-- ==== Sys2Proof/Word.lean ====
section
/-! DEFINITION. The machine's plain words: bytes, byte strings, register words and the index types of
its units (00_scope.md R3; 01_architecture.md Tables 1.3 to 1.5). -/

namespace Sys2Proof

abbrev Byte := BitVec 8
/-- A byte string, first byte at the lowest address (00 R6). -/
abbrev Bytes := List (BitVec 8)
abbrev Word16 := BitVec 16
abbrev Word32 := BitVec 32
abbrev Word64 := BitVec 64

/-- A PCIe function and the partition of the same number (02 R27). -/
abbrev Fn := Fin 32
/-- A submission and completion ring pair of a function (02 Table 2.8). -/
abbrev RingNo := Fin 8
/-- A cluster CL0 to CL7. -/
abbrev Cl := Fin 8
/-- A transaction core TC0 to TC63; core k belongs to cluster k / 8. -/
abbrev CoreNo := Fin 64
/-- Core 0 to 63, or 64 for the Warden on input 15 (01 R23; 13 Table 13.2). -/
abbrev Who := Fin 65

end Sys2Proof
end

