-- ==== Sys2Proof/Syntax.lean ====
section
/-! DEFINITION. The commands of the block: one constructor per row of spec/opcode_table.json, with the
row's operands. A verb's command names the descriptor it runs by the model's number of that descriptor;
an event's command says that its moment has come (notes/assumptions/3.md). -/

namespace Sys2Proof

/-- Which producer-index word a poll reads (02 R48). -/
inductive PollTarget where
  | ring (fn : Fn) (r : RingNo)
  | supply
  deriving DecidableEq, Repr

/-- Whose moderation timer elapsed (02 R53). -/
inductive IrqSource where
  | ring (fn : Fn) (r : RingNo)
  | paging
  deriving DecidableEq, Repr

/-- The cipher engines of a cluster (07 Table 7.1). -/
inductive Eng where
  | fce0 | fce1 | kce
  deriving DecidableEq, Repr

/-- A page as a core addresses it: the partition is that of the descriptor the core runs (07 R187). -/
structure PageAddr where
  who  : Who
  cl   : Cl
  eng  : Eng
  page : Fin 8
  deriving DecidableEq, Repr

/-- A digest page as a core addresses it (08 R209). -/
structure DgeAddr where
  who  : Who
  cl   : Cl
  page : Fin 8
  deriving DecidableEq, Repr

/-- Which key register a write of a GEN field fills (07 Table 7.3, 08 Table 8.2, 09 Table 9.2). -/
inductive KeyTarget where
  | cipher (a : PageAddr) (kb : Bool)
  | digest (a : DgeAddr)
  | pau (who : Who)
  deriving DecidableEq, Repr

/-- Which result register a core reads (07 R191, 08 R218, 09 R229). -/
inductive ResultReg where
  | cipher (a : PageAddr) (word : Fin 4)
  | digest (a : DgeAddr) (word : Fin 16)
  | pauLen (who : Who)
  deriving DecidableEq, Repr

/-- What makes a core fault (10 R257). -/
inductive CoreFaultCause where
  | noRetire | doubleException | gateRefusal
  deriving DecidableEq, Repr

/-- A message of the mesh after its header has been read (14 Table 14.5), with the port it came in on. -/
structure Msg where
  port    : Fin 4
  src     : Fin 8
  dst     : Fin 8
  tag     : Word16
  attempt : Word16
  part    : Fn
  hops    : Fin 8
  aux     : Word32
  body    : Bytes
  deriving DecidableEq, Repr

/-- The contents of a HELLO (14 R337 step 1). -/
structure Hello where
  meshId       : Fin 8
  serial       : Word64
  lifecycle    : BitVec 4
  version      : Word32
  rosterDigest : Bytes
  ownerDigest  : Bytes
  idKey        : Bytes
  endorsement  : Bytes
  position     : Fin 8
  port         : Fin 4
  encapKey     : Bytes
  random       : Bytes
  deriving DecidableEq, Repr

inductive Instr where
  -- host interface, rings and dispatcher
  | registerWrite (m : Fin 128) (addr : BitVec 40) (val : Word32) (be : BitVec 4)
  | timeLoRead (fn : Fn)
  | ringEnable (fn : Fn) (r : RingNo)
  | ringDisable (fn : Fn) (r : RingNo)
  | ringDisableDone (fn : Fn) (r : RingNo)
  | pagingEnable (fn : Fn)
  | ringPoll (t : PollTarget) (stores : List (Nat × Byte))
  | descriptorRead
  | dispatch
  | fenceRelease (fn : Fn) (r : RingNo)
  | irqTimer (t : IrqSource)
  | slotReserve (p : Fn)
  -- verbs: d is the descriptor, chk says that every release check of the run passed (07 R193, R194)
  | nop (d : Nat)
  | pinTranslate (d : Nat) (chk : Bool)
  | pinVerify (d : Nat) (chk : Bool)
  | pinChange (d : Nat) (chk : Bool)
  | pinSet (d : Nat) (chk : Bool)
  | dukptRegister (d : Nat) (chk : Bool)
  | dukptStatus (d : Nat)
  | dukptRetire (d : Nat)
  | dukptMacGenerate (d : Nat) (chk : Bool)
  | dukptMacVerify (d : Nat) (chk : Bool)
  | dukptDataDecrypt (d : Nat) (chk : Bool)
  | dukptDataEncrypt (d : Nat) (chk : Bool)
  | initialDerive (d : Nat) (chk : Bool)
  | macGenerate (d : Nat) (chk : Bool)
  | macVerify (d : Nat) (chk : Bool)
  | arqcVerify (d : Nat) (chk : Bool)
  | keyBlockImport (d : Nat) (chk : Bool)
  | keyBlockExport (d : Nat) (chk : Bool)
  | keyBlockDelete (d : Nat)
  | componentLoad (d : Nat) (chk : Bool)
  | componentAbort (d : Nat)
  | pqSend (d : Nat) (chk : Bool)
  | rsaSend (d : Nat) (chk : Bool)
  | eccSend (d : Nat) (chk : Bool)
  | rklReceive (d : Nat) (chk : Bool)
  | genericEncrypt (d : Nat) (chk : Bool)
  | genericDecrypt (d : Nat) (chk : Bool)
  | gcmEncrypt (d : Nat) (chk : Bool)
  | gcmDecrypt (d : Nat) (chk : Bool)
  | supportDigest (d : Nat) (chk : Bool)
  | supportCompare (d : Nat) (chk : Bool)
  | supportRandom (d : Nat)
  | supportSign (d : Nat) (chk : Bool)
  | supportVerify (d : Nat) (chk : Bool)
  | kemEncap (d : Nat) (chk : Bool)
  | kemDecap (d : Nat) (chk : Bool)
  | vaultGet (d : Nat)
  | vaultPut (d : Nat)
  | counterInc (d : Nat)
  | timeRead (d : Nat)
  | freqReport (d : Nat)
  | recipeRun (d : Nat) (chk : Bool)
  -- management: chk as for verbs, of the signatures checked and made
  | partitionCreate (d : Nat) (chk : Bool := true)
  | partitionDestroy (d : Nat) (chk : Bool := true)
  | quotaSet (d : Nat) (chk : Bool := true)
  | quotaReport (d : Nat) (chk : Bool := true)
  | hostWindowSet (d : Nat) (chk : Bool := true)
  | hostWindowRetire (p : Fn)
  | partitionReset (d : Nat) (chk : Bool := true)
  | masterGenerate (d : Nat) (chk : Bool := true)
  | keypairGenerate (d : Nat) (chk : Bool)
  | slotClear (d : Nat) (chk : Bool := true)
  | anchorAdvance (d : Nat) (chk : Bool := true)
  | custodianSet (d : Nat) (chk : Bool := true)
  | trustAnchorSet (d : Nat) (chk : Bool := true)
  | recipeLoad (d : Nat) (chk : Bool := true)
  | recipeRevoke (d : Nat) (chk : Bool := true)
  | recipeKeyRegister (d : Nat) (chk : Bool := true)
  | clusterQuiesce (d : Nat) (chk : Bool := true)
  | clusterDrained (c : Cl)
  | clusterPower (d : Nat) (chk : Bool := true)
  | clusterRejoin (d : Nat) (testsPass : Bool) (chk : Bool := true)
  | clusterRepair (c : Cl) (testsPass : Bool)
  | monitorFilterSet (d : Nat) (chk : Bool := true)
  | firmwareLoad (d : Nat) (chk : Bool := true)
  | firmwareActivate (d : Nat) (chk : Bool := true)
  | timeSet (d : Nat) (chk : Bool := true)
  | attestQuote (d : Nat) (chk : Bool := true)
  | deviceReset (d : Nat) (chk : Bool := true)
  | entropyRawEnter (d : Nat) (chk : Bool := true)
  | entropyRawCapture (d : Nat) (chk : Bool := true)
  | entropyRawLeave (d : Nat) (chk : Bool := true)
  -- resets and pins
  | functionLevelReset (fn : Fn)
  | warmReset
  | coldReset
  | sysRstNAssert (ns : Nat)
  | sysRstNRelease (straps : BitVec 3)
  | perstNFall
  | perstNRise
  -- tamper
  | monitorConfirm (k : Fin 159) (high : Bool)
  | eventWindowClose
  | scrubDone
  | tallyProgram
  | uvClassify (powerLoss : Bool)
  | monitorRearm (dom : Fin 30)
  | testGo (k : Byte)
  | monitorTestEnd (confirmed : Bool)
  | monitorTestPeriodic
  | sentinelPhase1End (c : Cl)
  | sentinelIntervalEnd (c : Cl)
  | cellSwitchover (toCell : Bool)
  | mainPowerUp
  -- arbiters and core faults; arbiter a is cluster a (0-7) or PAU a - 8 (8-11)
  | mapCommit (a : Fin 12)
  | rotationCommit (a : Fin 12)
  | arbiterDecision (a : Fin 12) (e : Fin 4)
  | coreFault (core : CoreNo) (cause : CoreFaultCause)
  -- cipher engine pages; w is the word written to OP (07 Table 7.3)
  | engineOpen (who : Who) (cl : Cl) (eng : Eng)
  | engineClose (a : PageAddr)
  | keyFetchIssue (t : KeyTarget) (w : Word32)
  | keyFetch
  | enc (a : PageAddr) (w : Word32)
  | dec (a : PageAddr) (w : Word32)
  | bufWrap (a : PageAddr) (w : Word32)
  | bufUnwrap (a : PageAddr) (w : Word32)
  | bufRandom (a : PageAddr) (w : Word32)
  | bufLoad (a : PageAddr) (w : Word32)
  | bufStore (a : PageAddr) (w : Word32)
  | bufXor (a : PageAddr) (w : Word32)
  | macInit (a : PageAddr) (w : Word32)
  | macUpdate (a : PageAddr) (w : Word32)
  | macGen (a : PageAddr) (w : Word32)
  | macVer (a : PageAddr) (w : Word32)
  | gcmInitEnc (a : PageAddr) (w : Word32)
  | gcmInitDec (a : PageAddr) (w : Word32)
  | gcmAad (a : PageAddr) (w : Word32)
  | gcmText (a : PageAddr) (w : Word32)
  | gcmTagGen (a : PageAddr) (w : Word32)
  | gcmTagVer (a : PageAddr) (w : Word32)
  | pinOpen (a : PageAddr) (w : Word32)
  | pinSeal (a : PageAddr) (w : Word32)
  | pinRef (a : PageAddr) (w : Word32)
  | refVer (a : PageAddr) (w : Word32)
  | refPut (a : PageAddr) (w : Word32)
  | engineRequestDone (a : PageAddr) (dm : Bytes) (chk : Bool)
  | nonceWaitResume (a : PageAddr)
  | nonceWaitTimeout (a : PageAddr)
  -- digest pages
  | dgeOpen (who : Who) (cl : Cl) (w : Word32)
  | dgeClose (a : DgeAddr)
  | dgeInit (a : DgeAddr)
  | keyAbsorb (a : DgeAddr)
  | dgeFinal (a : DgeAddr)
  | dgeSave (a : DgeAddr)
  | dgeDataWrite (a : DgeAddr) (w : Word32)
  | dgeBlockDone (a : DgeAddr) (chk : Bool)
  -- PAU contexts
  | pauOpen (who : Who)
  | pauClose (who : Who)
  | mldsaKeygen (who : Who)
  | mldsaSign (who : Who)
  | mldsaVerify (who : Who)
  | mlkemKeygen (who : Who)
  | mlkemEncap (who : Who)
  | mlkemDecap (who : Who)
  | ecKeygen (who : Who)
  | ecdsaSign (who : Who)
  | ecdsaVerify (who : Who)
  | ecdhEph (who : Who)
  | rsaKeygen (who : Who)
  | rsaSign (who : Who)
  | rsaPublic (who : Who)
  | rsaOaepWrap (who : Who)
  | rsaOaepUnwrap (who : Who)
  | pauOpDone (u : Fin 4) (k : Fin 4) (chk : Bool)
  -- key register
  | sweepDone (p : Fn)
  | keyregReady
  | keyregRebuild
  -- vault
  | pageSupply (stores : List (Nat × Byte))
  | pageRequestTimeout (serial : Word32)
  | pageWaitTimeout (d : Nat)
  | commitStart
  | commitRootWrite (readBackOk : Bool)
  | durabilityTimeout (d : Nat)
  | vaultStart
  -- entropy
  | entropyStartup (katOk : Bool)
  | entropyWindowClose
  | healthTestFail (src : Fin 16) (apt : Bool)
  | expanderCall (c : Cl) (internal : Bool)
  | randomWaitTimeout (d : Nat)
  -- time and power
  | ppsEdge (cycles : Word64) (aonCount : Word32)
  | ppsWindowClose
  | setNow
  | setAtEdge
  | domainPower (dom : Fin 30) (on : Bool)
  | powerGood (dom : Fin 30)
  -- gates 0 to 5
  | regionCommit (g : Fin 6) (r : Byte) (ctrl : Word32)
  | fenceGo (g : Fin 6)
  | fenceDone (g : Fin 6)
  -- mesh
  | linkTrain (p : Fin 4) (lanes : Fin 5)
  | retrain (p : Fin 4)
  | trainTimeout (p : Fin 4)
  | flitReceive (p : Fin 4) (flit : Bytes)
  | linkDown (p : Fin 4)
  | hello (p : Fin 4) (h : Hello)
  | kem (p : Fin 4) (ct : Bytes) (sig : Bytes)
  | finish (p : Fin 4) (flit : Bytes)
  | attestRetry (p : Fin 4)
  | fwd (m : Msg)
  | accept (m : Msg)
  | result (m : Msg)
  | refuse (m : Msg)
  | fwdMore (m : Msg)
  | fwdData (m : Msg)
  | txn (m : Msg)
  | txnAck (m : Msg)
  | txnDone (m : Msg)
  | resync (m : Msg)
  | heartbeat (m : Msg)
  | heartbeatSend
  | timeSync (m : Msg)
  | timeSyncSend
  | recipeSync (m : Msg)
  | memberDead (i : Fin 8)
  -- debug block tokens
  | tokenData (w : Word32)
  | tokenEmpty
  | openSession
  | enrol
  | recover
  | debugSessionEnd
  -- board controller
  | smbIdentity
  | smbTemperatures (temps : List Word16)
  | smbTally
  | smbLog (i : Nat)
  | smbFreq
  | smbHealth
  | smbAlerts
  -- further events
  | resultRead (r : ResultReg)
  | mainPowerLoss
  | backupCellLost
  | monitorClear (k : Fin 159)
  | sentinelTopUp (c : Cl)
  | counterHoldEnd
  | sriovVfEnable (n : Fn)
  | rawCaptureDone
  | entropyStartupEnd (failed : BitVec 16)
  deriving DecidableEq, Repr

end Sys2Proof
end

