-- ==== Sys2Proof/Config.lean ====
section
/-! DEFINITION. What one device or one standard fixes and the spec does not give: opaque constants. The
cryptographic functions are named by their standards and defined there (notes/assumptions/5.md), the
noise samples behind every random byte are the free values (notes/assumptions/6.md), and identity values are fused
per device (notes/assumptions/7.md). A function of a byte index gives the byte at that index of the standard's output. -/

namespace Sys2Proof.Config

/-! ### Free values -/

/-- The sample of a noise source at a sampling instant (11 R261): the instant, the source. -/
opaque sample : Nat → Nat → Bool
/-- Which of taken and ignored an SYS_RST_N pulse of 1 to 10 µs is, by how many came before (18 R418). -/
opaque shortPulse : Nat → Bool
/-- Bytes the spec leaves open, by where and which (notes/assumptions name each use). -/
opaque freeByte : Nat → Nat → Byte
opaque freeNat : Nat → Nat → Nat

/-! ### Identity, fuses and images -/

opaque serial : Word64
opaque deviceRoot : Bytes
opaque identityPublic : Nat → Byte
opaque endorsement : Nat → Byte
opaque droopOtp : Nat → Byte
opaque moroafyKey : Nat → Bytes

/-! ### Digests and keyed digests; algo as 04 R120 codes it -/

opaque shake256 : Bytes → Nat → Byte
opaque digest : Nat → Bytes → Nat → Byte
/-- The chaining or sponge state of algorithm algo after whole blocks of a stream (FIPS 180-4, FIPS 202). -/
opaque digestState : Nat → Bytes → Nat → Byte
opaque hmac : Nat → Bytes → Bytes → Nat → Byte
opaque kmac : Nat → Bytes → Bytes → Nat → Nat → Byte
/-- A keyed digest of another framing (08 R213, R214): the framing, the key, the message. -/
opaque framed : Nat → Bytes → Bytes → Nat → Byte
/-- The one-step key derivation function of SP 800-56C: hash, secret, fixed information. -/
opaque oneStep : Nat → Bytes → Bytes → Nat → Byte

/-! ### Block ciphers and modes; alg as 03 Table 3.3 codes it -/

opaque encBlock : Nat → Bytes → Bytes → Nat → Byte
opaque decBlock : Nat → Bytes → Bytes → Nat → Byte
opaque cmac : Nat → Bytes → Bytes → Nat → Byte
/-- ISO 9797-1 algorithm 3 under two-key TDES: padding method, key, message. -/
opaque retailMac : Nat → Bytes → Bytes → Nat → Byte
/-- GCM keystream byte: alg, key, nonce, index. -/
opaque gcmStream : Nat → Bytes → Bytes → Nat → Byte
/-- GCM tag: alg, key, nonce, additional data, ciphertext. -/
opaque gcmTag : Nat → Bytes → Bytes → Bytes → Bytes → Nat → Byte

/-! ### DUKPT for TDES (ANSI X9.24-1) and EMV derivation (EMV Book 2) -/

opaque tdesInitial : Bytes → Bytes → Nat → Byte
opaque tdesStep : Bytes → Bytes → Nat → Nat → Byte
/-- The transaction key with a variant: 0 PIN, 1 MAC request, 2 MAC response, 3 data request, 4 data response. -/
opaque tdesVariant : Nat → Bytes → Nat → Byte
opaque emvIcc : Nat → Bytes → Bytes → Nat → Byte
opaque emvSession : Nat → Bytes → Nat → Nat → Byte
opaque emvArpc : Nat → Nat → Bytes → Bytes → Bytes → Nat → Byte

/-! ### The key register's storage (03 R61, R64): mask key, slot and word; integrity key, image and slot -/

opaque maskWord : Bytes → Nat → Nat → Nat → Byte
opaque icode : Bytes → Bytes → Nat → Nat → Byte

/-! ### ANSI X9.143 key block keys: protection alg, key, 0 encryption and 1 authentication, payload alg -/

opaque blockKey : Nat → Bytes → Nat → Nat → Nat → Byte

/-! ### Public-key algorithms -/

opaque mldsaPublic : Bytes → Nat → Byte
opaque mldsaSign : Bytes → Bytes → Bytes → Bytes → Nat → Byte
/-- The number of signing attempts a signature takes (09 R240): seed, message and randomness. -/
opaque mldsaAttempts : Bytes → Bytes → Bytes → Nat
opaque mldsaVerify : Bytes → Bytes → Bytes → Bytes → Bool
/-- Message representative μ: public key, context, message. -/
opaque mldsaMu : Bytes → Bytes → Bytes → Nat → Byte
opaque mldsaSignMu : Bytes → Bytes → Bytes → Nat → Byte
opaque mldsaVerifyMu : Bytes → Bytes → Bytes → Bool
/-- A signature decodes under FIPS 204, hint well-formedness included. -/
opaque mldsaSigOk : Bytes → Bool
opaque mlkemPublic : Bytes → Nat → Byte
opaque mlkemEncapCt : Bytes → Bytes → Nat → Byte
opaque mlkemEncapSs : Bytes → Bytes → Nat → Byte
opaque mlkemDecap : Bytes → Bytes → Nat → Byte
/-- The encapsulation key passes the input checks of FIPS 203. -/
opaque mlkemKeyOk : Bytes → Bool
/-- Elliptic curves; the flag is P-384. -/
opaque ecPrivate : Bool → Bytes → Nat → Byte
opaque ecPublic : Bool → Bytes → Nat → Byte
opaque ecPointOk : Bool → Bytes → Bool
opaque ecdh : Bool → Bytes → Bytes → Nat → Byte
opaque ecdsaSign : Bool → Bytes → Bytes → Bytes → Nat → Byte
opaque ecdsaVerify : Bool → Bytes → Bytes → Bytes → Bool
/-- RSA with public exponent 65,537: the key pair made from random bytes for a modulus of 32 · units bytes. -/
opaque rsaPrivate : Nat → Bytes → Nat → Byte
opaque rsaFound : Nat → Bytes → Bool
opaque rsaPublicOp : Bytes → Bytes → Nat → Byte
/-- Scheme 4 PSS, 5 PKCS1-v1_5, both SHA-256: scheme, private key, message, salt. -/
opaque rsaSign : Nat → Bytes → Bytes → Bytes → Nat → Byte
opaque rsaRaw : Bytes → Bytes → Nat → Byte
opaque rsaVerify : Nat → Bytes → Bytes → Bytes → Bool
opaque oaepWrap : Bytes → Bytes → Bytes → Nat → Byte
/-- OAEP decoding succeeds; its message. -/
opaque oaepOk : Bytes → Bytes → Bool
opaque oaepLen : Bytes → Bytes → Nat
opaque oaepUnwrap : Bytes → Bytes → Nat → Byte

/-! ### Internal keys and seals whose fixed labels the spec does not print -/

/-- A fixed label of the device, by use: 16 K_VP, 17 K_VN and 18 + p K_IX of partition p (06 R155) among them. -/
opaque label : Nat → Bytes

/-- The first n bytes of an output given byte by byte. -/
def take (n : Nat) (f : Nat → Byte) : Bytes := (List.range n).map f

end Sys2Proof.Config
end

