-- ==== Sys2Proof/Machine/Bytes.lean ====
section
/-! DEFINITION. Byte strings as numbers and back (00 R5 for little-endian fields, R6 for byte strings),
slices, padding and bit fields of numbers. -/

namespace Sys2Proof.Machine

/-- The number a little-endian field holds (00 R5). -/
def leNat : Bytes → Nat
  | [] => 0
  | b :: r => b.toNat + 256 * leNat r

/-- v as an n-byte little-endian field. -/
def toLE : Nat → Nat → Bytes
  | 0, _ => []
  | n + 1, v => BitVec.ofNat 8 v :: toLE n (v / 256)

/-- The number a most-significant-first byte string holds. -/
def beNat (b : Bytes) : Nat := leNat b.reverse

/-- v as an n-byte string, most significant byte first. -/
def toBE (n v : Nat) : Bytes := (toLE n v).reverse

def zeros (n : Nat) : Bytes := List.replicate n 0

/-- Exactly n bytes: b cut, or filled with zeros. -/
def fit (n : Nat) (b : Bytes) : Bytes := (b ++ zeros n).take n

def slice (b : Bytes) (off len : Nat) : Bytes := (b.drop off).take len

def byteAt (b : Bytes) (i : Nat) : Byte := b.getD i 0

/-- The little-endian field of len bytes at off. -/
def leAt (b : Bytes) (off len : Nat) : Nat := leNat (slice b off len)

/-- b with v written over the bytes at off. -/
def putAt (b : Bytes) (off : Nat) (v : Bytes) : Bytes := b.take off ++ v ++ b.drop (off + v.length)

def xorBytes (a b : Bytes) : Bytes := List.zipWith (· ^^^ ·) a b

/-- Every byte is zero. -/
def allZero (b : Bytes) : Bool := b.all (· == 0)

/-- The blocks of n bytes that b is made of; the last may be short. -/
def blocksFuel : Nat → Nat → Bytes → List Bytes
  | 0, _, _ => []
  | f + 1, n, b => if b.isEmpty then [] else b.take n :: blocksFuel f n (b.drop n)

def blocks (n : Nat) (b : Bytes) : List Bytes := blocksFuel b.length n b

/-- Bits lo to lo + n - 1 of v. -/
def bits (v lo n : Nat) : Nat := v / 2 ^ lo % 2 ^ n

/-- Bit i of v. -/
def bit (v i : Nat) : Bool := v / 2 ^ i % 2 == 1

/-- v shifted to bit lo. -/
def at' (v lo : Nat) : Nat := v * 2 ^ lo

def b2n (b : Bool) : Nat := if b then 1 else 0

/-- A count that stops at its largest value. -/
def satInc {n : Nat} (v : BitVec n) : BitVec n := if v = BitVec.allOnes n then v else v + 1

/-- How many one bits the low n bits of v hold. -/
def popCount : Nat → Nat → Nat
  | 0, _ => 0
  | n + 1, v => v % 2 + popCount n (v / 2)

/-- The ASCII bytes of a string (all the spec's strings are ASCII). -/
def ascii (s : String) : Bytes := s.toList.map fun c => BitVec.ofNat 8 c.toNat

end Sys2Proof.Machine
end

