-- ==== Sys2Proof/Machine/Drbg.lean ====
section
/-! DEFINITION. The expander's CTR_DRBG with AES-256 and the derivation function, as SP 800-90A defines it and 11 R269 takes it:
instantiate, reseed and generate over one block of AES-256; and the conditioner and health tests of 11 R262 and R264 as functions of
samples. -/

namespace Sys2Proof.Machine

/-! ### CTR_DRBG -/

/-- The working state: key and V. -/
structure Drbg where
  key : Bytes := []
  v : Bytes := []
  deriving DecidableEq, Repr

def aes256 (key blk : Bytes) : Bytes := Config.take 16 (Config.encBlock 3 key blk)

/-- CBC-MAC of whole blocks: the chaining value after each. -/
def drbgBcc (key : Bytes) (data : Bytes) : Bytes := (blocks 16 data).foldl (fun c b => aes256 key (xorBytes c b)) (zeros 16)

/-- The derivation function: 48 bytes from an input string. -/
def drbgDf (input : Bytes) : Bytes :=
  let s := toBE 4 input.length ++ toBE 4 48 ++ input ++ [0x80]
  let s := s ++ zeros ((16 - s.length % 16) % 16)
  let k := (List.range 32).map fun i => BitVec.ofNat 8 i
  let t := (List.range 3).flatMap fun i => drbgBcc k (toBE 4 i ++ zeros 12 ++ s)
  let x1 := aes256 (t.take 32) (t.drop 32)
  let x2 := aes256 (t.take 32) x1
  x1 ++ x2 ++ aes256 (t.take 32) x2

/-- V advanced by n, modulo 2^128. -/
def Drbg.vPlus (x : Drbg) (n : Nat) : Bytes := toBE 16 ((beNat x.v + n) % 2 ^ 128)

/-- The update function with 48 bytes. -/
def Drbg.update (x : Drbg) (data : Bytes) : Drbg :=
  let t := xorBytes ((List.range 3).flatMap fun i => aes256 x.key (x.vPlus (i + 1))) data
  { key := t.take 32, v := t.drop 32 }

def Drbg.instantiate (entropy nonce pers : Bytes) : Drbg :=
  Drbg.update { key := zeros 32, v := zeros 16 } (drbgDf (entropy ++ nonce ++ pers))

def Drbg.reseed (x : Drbg) (entropy : Bytes) : Drbg := x.update (drbgDf entropy)

/-- One generate request of 16 bytes, with no additional input. -/
def Drbg.generate (x : Drbg) : Drbg × Bytes :=
  let v := x.vPlus 1
  (Drbg.update { x with v := v } (zeros 48), aes256 x.key v)

/-! ### Health tests (11 Table 11.1) -/

/-- The repetition count test fails a source: 81 consecutive samples are equal. -/
def repetitionFails (xs : List Bool) : Bool :=
  (xs.foldl (fun (a : Option (Bool × Nat) × Bool) x =>
    let n := match a.1 with
      | some (y, n) => if x = y then n + 1 else 1
      | none => 1
    (some (x, n), a.2 || decide (81 ≤ n))) (none, false)).2

/-- The adaptive proportion test fails a source in a window: 828 or more of its 1,024 samples equal the first. -/
def proportionFails (w : List Bool) : Bool := decide (w.length = 1024 ∧ 828 ≤ (w.filter fun x => some x == w.head?).length)

/-! ### Conditioner (11 R264) -/

/-- 256 samples of each source from instant t on: sample t of source s in bit 16t + s. -/
def rawBits (t : Nat) : Bytes :=
  (List.range 512).map fun k =>
    BitVec.ofNat 8 (((List.range 8).map fun i => b2n (Config.sample (t + k / 2) (k % 2 * 8 + i)) * 2 ^ i).sum)

/-- A conditioned block. -/
def conditioned (t : Nat) : Bytes := Config.take 32 (Config.shake256 (rawBits t))

end Sys2Proof.Machine
end

