-- ==== Sys2Proof/Machine/Map.lean ====
section
/-! DEFINITION. Finite tables as plain data: a list of (key, value) pairs, keys rising; a key that is not
listed stands at the table's reset value, which the reader names. -/

namespace Sys2Proof

abbrev Map (α : Type) := List (Nat × α)

/-- The value at key k, or d where k is not listed. -/
def mget {α : Type} (m : Map α) (k : Nat) (d : α) : α :=
  match m with
  | [] => d
  | (j, v) :: r => if j = k then v else mget r k d

/-- The table with v at key k. -/
def mset {α : Type} (m : Map α) (k : Nat) (v : α) : Map α :=
  match m with
  | [] => [(k, v)]
  | (j, w) :: r => if j = k then (k, v) :: r else if k < j then (k, v) :: (j, w) :: r else (j, w) :: mset r k v

/-- The table with key k no longer listed. -/
def mdel {α : Type} (m : Map α) (k : Nat) : Map α := m.filter fun c => c.1 != k

/-- The table with f applied to the value at key k (reset value d). -/
def mupd {α : Type} (m : Map α) (k : Nat) (d : α) (f : α → α) : Map α := mset m k (f (mget m k d))

/-- Is key k listed? -/
def mhas {α : Type} (m : Map α) (k : Nat) : Bool := m.any fun c => c.1 == k

end Sys2Proof
end

