-- ==== Sys2Proof/Machine/State.lean ====
section
/-! DEFINITION. The state of the block as plain data. Every register, table and queue the spec gives the
DX64 stands in one of the sub-structures below, one per unit; a field's default is its value in
State.reset: the Reset column of its table where it has one, else the value notes/assumptions names. -/

namespace Sys2Proof.Machine

/-- A posted write of the device on the link (02 R51): bytes to host memory, or an MSI-X message, with the function whose
requester ID it carries (02 R28). -/
inductive Posted where
  | mem (fn : Nat) (addr : Nat) (data : Bytes)
  | msix (fn : Nat) (vector : Nat) (addr : Nat) (data : Word32)
  deriving DecidableEq, Repr

/-! ### Host interface (02) -/

/-- Ring set-up and interrupt set-up of one ring pair (02 Tables 2.8, 2.9). -/
structure Ring where
  sqBase : Word64 := 0
  cqBase : Word64 := 0
  piAddr : Word64 := 0
  ciAddr : Word64 := 0
  log2 : BitVec 5 := 6
  pollMax : BitVec 6 := 50
  enabled : Bool := false
  draining : Bool := false
  fault : Bool := false
  stopped : Bool := false
  sqHead : Word32 := 0
  cqTail : Word32 := 0
  ciSeen : Word32 := 0
  outstanding : Nat := 0
  vector : BitVec 4 := 0
  irqEn : Bool := false
  count : Byte := 1
  timer : Word16 := 0
  pend : Nat := 0
  /-- R48, in ns. -/
  interval : Nat := 200
  /-- Producer index as last read: descriptors submitted (R47, R49). -/
  piSeen : Word32 := 0
  deriving DecidableEq, Repr

/-- One MSI-X table entry, as PCIe defines it. -/
structure MsixEntry where
  addr : Word64 := 0
  data : Word32 := 0
  mask : Bool := true
  deriving DecidableEq, Repr

/-- One PCIe function (02 Tables 2.3, 2.4, 2.9). -/
structure Func where
  /-- The function exists on PCIe: function 0, and each virtual function the host enabled (R56). -/
  present : Bool := false
  fnReady : Bool := false
  resetInProgress : Bool := false
  overcommit : Bool := false
  ciInvalid : Bool := false
  ringFault : Bool := false
  mboxBusy : Bool := false
  ringMask : Byte := 0
  partResets : Word16 := 0
  /-- The ring whose RING_DISABLE is running (R31, R33). -/
  mboxRun : Option Nat := none
  mboxResult : Word32 := 0
  evtStat : BitVec 9 := 0
  evtMask : BitVec 9 := 0
  msix : Map MsixEntry := []
  pba : Map Bool := []
  rings : Map Ring := []
  deriving DecidableEq, Repr

structure HostIf where
  mem : List Host.Cell := []
  /-- Oldest first. -/
  posted : List Posted := []
  funcs : Map Func := [(0, { present := true })]
  warmResets : Word16 := 0
  pgCount : Byte := 1
  pgTimer : Word16 := 0
  pgPend : Nat := 0
  readData : Word32 := 0
  smbResp : Bytes := []
  deriving DecidableEq, Repr

/-! ### Slots (03) -/

/-- A slot image before masking (03 Table 3.1), and what of its ICODE is wrong (R64). -/
structure Slot where
  key : Bytes := []
  nonce : Word64 := 0
  gen : Word16 := 0
  parentSlot : Word16 := 0
  parentGen : Word16 := 0
  part : BitVec 5 := 0
  cls : BitVec 2 := 0
  alg : BitVec 5 := 0
  depth : BitVec 3 := 0
  persist : Bool := false
  usage : Word16 := 0
  vStart : BitVec 24 := 0
  vEnd : BitVec 24 := 0
  /-- The stored ICODE xor the one R64 computes: zero while the slot verifies. -/
  flaw : Word64 := 0
  deriving DecidableEq, Repr

/-! ### Descriptors and dispatcher (01 R14, 02, 05) -/

/-- What a completion record will hold (02 Table 2.19), with the output not yet written. -/
structure Result where
  status : Word16 := 0
  out : Bytes := []
  inl : Bytes := []
  /-- The flags of the recipe step it belongs to. -/
  flags : BitVec 15 := 0
  /-- A recipe has already written its output: its length. -/
  len : Option Nat := none
  deriving DecidableEq, Repr

/-- A recipe run between its steps (05 R130 to R133, R145): what the next step starts from. -/
structure Run where
  pc : Nat := 0
  i : Nat := 0
  /-- The open loop: first step of its body, its last step, its count. -/
  loop : Option (Nat × Nat × Nat) := none
  scratch : Bytes := []
  flag : Bool := false
  res : Bytes := []
  /-- Status of the last VERB step that ran; it was caught. -/
  last : Option (Word16 × Bool) := none
  executed : Nat := 0
  work : Nat := 0
  pau : Nat := 0
  /-- One more than the highest DOUT offset written. -/
  hi : Nat := 0
  /-- Flags of the steps before, while the descriptor's own flags are those of a step that waits (05 R130, R149). -/
  before : Option (BitVec 15) := none
  deriving DecidableEq, Repr

/-- What a management operation that has been carried out still waits for. -/
inductive MgmtWait where
  | windows (p : Nat)
  | cluster (c : Nat)
  | sweep (p : Nat)
  | edge
  | recipes (ids : List Nat)
  | commit (seq : Nat)
  | capture
  | rawLeave
  | updatePause
  | clusterTurn
  | txn (rseq : Nat)
  deriving DecidableEq, Repr

/-- Where a descriptor that has been read stands. -/
inductive Stage where
  | fenced
  | inbox
  | recipePlace
  | mgmtPlace
  | queued
  | started
  /-- It waits to hold k transient slots (03 R68). -/
  | waitSlots (k : Nat)
  | parked (obj : Nat) (num : Nat)
  | waitRandom
  | waitNonce (slot : Nat)
  | waitDurable (r : Result)
  | waitSweep (p : Nat)
  | forwarded (peer : Nat) (tag : Nat)
  | mgmt
  | mgmtWait (w : MgmtWait) (r : Result)
  deriving DecidableEq, Repr

/-- What a piece of work has had, kept while it waits: nothing of it is done twice when the work goes on. -/
inductive Did where
  /-- A probe of a slot passed (03 R66). -/
  | probed (slot : Nat)
  /-- A fetch delivered a key from a slot (03 R71). -/
  | key (slot : Nat) (x : Slot)
  /-- The pull of the record at a place passed the check of its link (03 R77). -/
  | pulled (place : Nat)
  /-- A bucket of the partition's index was gone through (04 R114). -/
  | swept (bucket : Nat)
  /-- Random was drawn (11 R271). -/
  | drew (b : Bytes)
  /-- The counter of the terminal record at a place was accepted (04 R103). -/
  | counted (place : Nat)
  deriving DecidableEq, Repr

/-- A descriptor read and not yet completed (02 R49). -/
structure DRec where
  id : Nat
  fn : Nat
  ring : Nat
  idx : Word32
  bytes : Bytes
  stage : Stage
  core : Nat := 0
  /-- Its core has taken it up (15 R374). -/
  begun : Bool := false
  /-- Checked against the window set being retired (13 R326). -/
  oldWin : Bool := false
  flags : BitVec 15 := 0
  /-- Extents of output already written (02 R45, R58). -/
  written : List (Nat × Nat) := []
  /-- Reserved transient slots, absolute indexes (03 R68). -/
  trans : List Nat := []
  /-- Chain record (03 R82). -/
  chain : List Nat := []
  /-- The image bound at placement, with its identifier and version as one number (05 R140). -/
  recipe : Option Nat := none
  image : Bytes := []
  /-- DUKPT counters already accepted in this recipe run (05 R147): base key slot, initial key ID, counter. -/
  accepted : List (Nat × Bytes × Nat) := []
  /-- An update of its own has to be durable before it completes, whatever its status (04 R94). -/
  durable : Bool := false
  /-- Stages of a management command that are behind it: 0 none, 1 its command is accepted (16 R398). -/
  phase : Nat := 0
  /-- Its recipe run, once started. -/
  run : Option Run := none
  /-- Output of a peer's request that was streamed to it before its work failed (14 R353). -/
  streamed : Bytes := []
  /-- What its present draw of random has had so far, in whole calls (11 R273). -/
  drawn : Bytes := []
  /-- What its work has had so far, oldest first, and how much of that this run of the work has met again. -/
  did : List Did := []
  met : Nat := 0
  deriving DecidableEq, Repr

structure Disp where
  descs : List DRec := []
  nextId : Nat := 0
  /-- Descriptors read and waiting for the dispatcher, in order. -/
  inbox : List Nat := []
  coreQ : Map (List Nat) := []
  mgmtQ : List Nat := []
  recipePlace : Option Nat := none
  mgmtPlace : Option Nat := none
  /-- Ring served last (R49): 8 fn + ring. -/
  rr : Nat := 0
  /-- Recipe cache of each core, most recent first: identifier and version as one number, and length (05 R144). -/
  rcache : Map (List (Nat × Nat)) := []
  deriving DecidableEq, Repr

/-! ### Key register (03) -/

/-- A fetch in flight on the key bus (03 R70, R71). -/
structure Fetch where
  tgt : KeyTarget
  part : Nat
  index : Nat
  trans : Bool
  gen : Byte
  role : Word16
  algset : Word32
  /-- The descriptor served; none for the Warden. -/
  desc : Option Nat
  /-- The vault object it waits for (R85), and the status that ended that wait. -/
  waits : Option (Nat × Nat) := none
  failed : Option Word16 := none
  deriving DecidableEq, Repr

/-- A sweep in progress (03 R81): the slots still to visit, and the descriptor that waits for it. -/
structure Sweep where
  part : Nat
  roots : List (Nat × Word16)
  desc : Option Nat
  deriving DecidableEq, Repr

/-- The key bus machine (12 Table 12.7). -/
inductive BusState where
  | idle | fetch | write | invalidate | sweep | rebuild | halted
  deriving DecidableEq, Repr

structure KeyReg where
  /-- The mask key and the integrity key, 32 bytes each, once they are taken (R61). -/
  keys : Option (Bytes × Bytes) := none
  ready : Bool := false
  bus : BusState := .idle
  slots : Map Slot := []
  anchors : Map Word16 := []
  corrupt : Map Word32 := []
  reloaded : List Nat := []
  /-- Corrupt slots whose reload from the slot record is under way (R64). -/
  reloads : List Nat := []
  /-- Committed nonce reserve of each slot (06 R180). -/
  reserves : Map Nat := []
  /-- Descriptors that wait for transient slots, in order (R68). -/
  poolWait : List Nat := []
  fetches : List Fetch := []
  sweeps : List Sweep := []
  /-- The rebuild of R85 has run, or is running. -/
  rebuilt : Bool := false
  /-- The partition records have been read from the vault (R85; 13 R328). -/
  partsLoaded : Bool := false
  /-- Slots the rebuild has still to restore (R85). -/
  toRestore : List Nat := []
  /-- Entry 0 of the Warden key store holds the identity seed (16 R400). -/
  wardenKey : Option Bytes := none
  deriving DecidableEq, Repr

/-- A partition's record, kept in the vault's partition page and shared in a mesh (06 Table 6.7; 14 Table 14.7). -/
structure Part where
  live : Bool := false
  base : Nat := 0
  size : Nat := 0
  persist : Nat := 0
  recordQuota : Nat := 0
  recordsUsed : Nat := 0
  custodians : List Bytes := []
  recipeKey : Option Bytes := none
  freeNum : Nat := 0
  freeIdx : Nat := 0
  ixBase : Nat := 0
  ixLog2 : Nat := 0
  /-- An index rebuild in progress (06 R161): its descriptor, and the new run's first page and IX_LOG2. -/
  ixMove : Option (Nat × Nat × Nat) := none
  deriving DecidableEq, Repr

/-! ### Vault (06) -/

/-- A resident data page (06 Table 6.2); OCCUPIED is read off the records. -/
structure VPage where
  kind : Nat := 2
  part : Nat := 255
  nextFree : Nat := 0
  recs : Map Bytes := []
  dirty : Bool := false
  deriving DecidableEq, Repr

/-- A paging request not yet answered (06 Table 6.11, R171). -/
structure PReq where
  serial : Word32
  write : Bool
  obj : Nat
  num : Nat
  copy : Bool
  buf : Nat
  timedOut : Bool := false
  deriving DecidableEq, Repr

/-- The commit in flight (06 R176). -/
structure Commit where
  seq : Nat
  /-- Object kind, number and the new entry it is sealed under. -/
  objs : List (Nat × Nat × Word64)
  root : Word64
  /-- Nonce reserves the snapshot holds, by slot. -/
  reserves : List (Nat × Nat) := []
  /-- Objects whose WRITE request has not been issued for want of a buffer, with the sealed copies. -/
  todo : List (Nat × Nat × Word64 × Bytes)
  serials : List Word32
  /-- Descriptors whose completions wait on this commit. -/
  waiters : List Nat
  /-- The dirty pages as the snapshot took them: one that still is as it was then loses its mark at the end. -/
  snaps : List (Nat × VPage) := []
  deriving DecidableEq, Repr

/-- One of the 64 root slots (06 Table 6.13). -/
structure RootSlot where
  seq : Nat
  reserve : Nat
  rootEntry : Word64
  keyCheck : Bytes
  magic : Word32 := 0x56544A31
  format : Word16 := 1
  /-- CHECK, as the slot holds it. -/
  check : Bytes := []
  deriving DecidableEq, Repr

structure Vault where
  prqBase : Word64 := 0
  psqBase : Word64 := 0
  psqPi : Word64 := 0
  prqCi : Word64 := 0
  pgLog2 : BitVec 5 := 6
  pgEnabled : Bool := false
  pgFault : Bool := false
  pbufBase : Word64 := 0
  pbufCount : BitVec 13 := 0
  rebuilding : Bool := false
  integritySeen : Bool := false
  ready : Bool := false
  /-- The root slots have been read and an active root or a new vault chosen (R173). -/
  started : Bool := false
  /-- Page cipher keys K_VP, K_VN, K_IX are derived from the storage key mirror. -/
  keyed : Bool := false
  rootSlots : Map RootSlot := []
  active : Option Nat := none
  rootEntry : Word64 := 0
  lastSeq : Nat := 0
  reserve : Nat := 0
  pages : Map VPage := []
  nodes : Map (Map Word64) := []
  /-- Resident objects, level (0 a page) and number, most recently used first (R167). -/
  uses : List (Nat × Nat) := []
  /-- Objects that some descriptor waits for, whose request is not out yet. -/
  wanted : List (Nat × Nat) := []
  reqs : List PReq := []
  nextSerial : Word32 := 0
  prqTail : Word32 := 0
  prqCiSeen : Word32 := 0
  psqHead : Word32 := 0
  psqPiSeen : Word32 := 0
  psInterval : Nat := 200
  commit : Option Commit := none
  /-- A physical-function reset discarded a commit's requests: it is to start again (R177; 02 R55). -/
  recommit : Bool := false
  discards : Word32 := 0
  vaultId : Bytes := []
  parts : Map Part := [(0, { live := true })]
  deriving DecidableEq, Repr

/-! ### Cipher engines (07) -/

/-- A key register of a page or context (07 R189, 08 R213, 09 R237). -/
inductive KeyReg1 where
  | empty
  | inFlight
  | refused (st : Word16)
  /-- A key delivered: the slot's image as it was fetched, the ROLE of the fetch, and the slot. -/
  | held (x : Slot) (role : Word16) (slot : Nat) (trans : Bool)
  deriving DecidableEq, Repr

/-- A page state (07 Table 7.4). -/
inductive PState where
  | closed | opened | busy | ready | fault | abandoned | wait | refused
  deriving DecidableEq, Repr

/-- A chain in progress in a page: MAC or GCM (07 R189). -/
inductive Chain where
  | none
  | mac (kb : Bool) (data : Bytes)
  | gcm (enc : Bool) (kb : Bool) (nonce : Bytes) (aad : Bytes) (ct : Bytes)
  deriving DecidableEq, Repr

/-- A request written to OP and not finished (07 R189): its operation code and the OP word. -/
structure OpReq where
  code : Byte
  word : Word32
  deriving DecidableEq, Repr

/-- A cipher engine page (07 Table 7.3). -/
structure CPage where
  state : PState := .closed
  /-- The holding core (or 64, the Warden) + 1; 0 when nobody holds it. -/
  holder : Nat := 0
  /-- The descriptor it is held for + 1. -/
  desc : Nat := 0
  req : Option OpReq := none
  /-- The request is with the arbiter, or its blocks have run. -/
  entered : Bool := false
  /-- DIN at the write of OP, and the blocks written to it while the request is BUSY. -/
  first : Bytes := []
  feed : Bytes := []
  /-- What the last request with DST 1 gave the DM (the model's own output record). -/
  dm : Bytes := []
  ka : KeyReg1 := .empty
  kb : KeyReg1 := .empty
  indexA : Word32 := 0
  roleA : Word16 := 0
  algsetA : Word32 := 0
  indexB : Word32 := 0
  roleB : Word16 := 0
  algsetB : Word32 := 0
  din : Bytes := []
  result : Bytes := []
  earlyRead : Bool := false
  revoked : Bool := false
  kstat : Word16 := 0
  verdict : Word16 := 0
  vcheck : Word16 := 0
  progress : Word32 := 0
  tlen : BitVec 5 := 0
  tail : BitVec 5 := 0
  macalg : BitVec 2 := 0
  pad : BitVec 2 := 0
  pinIn : Byte := 0
  pinOut : Byte := 0
  nonce : Bytes := []
  nonceLocked : Bool := false
  aadBytes : Word64 := 0
  textBytes : Word64 := 0
  pan : Bytes := []
  /-- The clear PIN field, while PINF holds one (R192). -/
  pinf : Option Bytes := none
  kbuf : Bytes := []
  chain : Chain := .none
  /-- The buffer holds unwrapped material not yet authenticated (R196). -/
  unproved : Bool := false
  deriving DecidableEq, Repr

/-- A margin sentinel of one FCE (07 Table 7.10). -/
structure Sentinel where
  advance : BitVec 4 := 8
  en : Bool := true
  ops : Word64 := 0
  missFwd : Word32 := 0
  missInv : Word32 := 0
  deriving DecidableEq, Repr

/-! ### Digest engines (08) -/

inductive DState where
  | closed | opened | busy | ready | fault | abandoned | feeding | refused
  deriving DecidableEq, Repr

/-- Which operation keeps a digest page BUSY. -/
inductive DPend where
  | none | keyAbsorb | final | save | peer | chain (rest : Bytes)
  deriving DecidableEq, Repr

/-- A digest page (08 Table 8.2). -/
structure DPage where
  state : DState := .closed
  holder : Nat := 0
  desc : Nat := 0
  pend : DPend := .none
  /-- A request of the page is with the arbiter, or its blocks have run. -/
  entered : Bool := false
  ka : KeyReg1 := .empty
  indexA : Word32 := 0
  roleA : Word16 := 0
  algsetA : Word32 := 0
  algo : BitVec 3 := 0
  secret : Bool := false
  dest : BitVec 3 := 0
  peer : BitVec 3 := 0
  src : BitVec 2 := 0
  outLen : BitVec 13 := 0
  cmpLen : BitVec 7 := 0
  padc : Byte := 0
  frame : BitVec 2 := 0
  decl : Word64 := 0
  saveAddr : BitVec 18 := 0
  fed : Word64 := 0
  earlyRead : Bool := false
  /-- A full buffer waits for its block request (R211). -/
  blockBusy : Bool := false
  trunc : Bool := false
  overrun : Bool := false
  revoked : Bool := false
  whereSt : BitVec 2 := 3
  cls : BitVec 2 := 0
  kstat : Word16 := 0
  verdict : Word16 := 0
  vcheck : Word16 := 0
  saveSeq : Word32 := 0
  expect : Bytes := []
  result : Bytes := []
  /-- What a result with DEST 1 gave the DM (the model's own output record). -/
  dm : Bytes := []
  /-- Key bytes absorbed, then message bytes absorbed: the stream the context has taken. -/
  stream : Bytes := []
  keyed : Nat := 0
  kmac : Bool := false
  /-- The key register of the PAU operation whose secret the context took: empty for an operation without one (09 R233). -/
  link : Option KeyReg1 := none
  /-- Blocks of a request that waits for the core's turn at the engine (10 R247); 0 where none waits. -/
  waits : Nat := 0
  /-- Message bytes in the page's buffer. -/
  buf : Bytes := []
  deriving DecidableEq, Repr

/-! ### PAUs (09) -/

inductive XState where
  | closed | opened | busy | ready | fault | abandoned | await | refused | invalid | exhausted
  deriving DecidableEq, Repr

/-- A PAU context (09 Table 9.2). -/
structure Ctx where
  state : XState := .closed
  holder : Nat := 0
  desc : Nat := 0
  part : Nat := 0
  op : Byte := 0
  entered : Bool := false
  ka : KeyReg1 := .empty
  indexA : Word32 := 0
  roleA : Word16 := 0
  algsetA : Word32 := 0
  inOff : BitVec 18 := 0
  inLen : Word16 := 0
  outOff : BitVec 18 := 0
  outCap : Word16 := 0
  xofPage : BitVec 3 := 0
  xofEn : Bool := false
  sinkPage : BitVec 3 := 0
  sink : BitVec 2 := 0
  size : BitVec 5 := 0
  p384 : Bool := false
  prefixLen : BitVec 7 := 0
  suffixLen : BitVec 7 := 0
  decl : Bytes := []
  earlyRead : Bool := false
  revoked : Bool := false
  trReady : Bool := false
  kstat : Word16 := 0
  verdict : Word16 := 0
  vcheck : Word16 := 0
  progress : Word32 := 0
  resultLen : Word32 := 0
  pre : Bytes := []
  suf : Bytes := []
  digest : Option Bytes := none
  /-- The public operands that the checks of R232 passed. -/
  operands : Bytes := []
  /-- The bound page's result has still to come (R234), and the operation waits for random (R236). -/
  xofWait : Bool := false
  waitRandom : Bool := false
  deriving DecidableEq, Repr

/-! ### Arbiters (10) -/

/-- A request waiting at an arbiter input (10 R247, R252). -/
structure Req where
  who : Nat
  part : Nat
  page : Nat
  done : Nat := 0
  count : Nat
  preempted : Bool := false
  deriving DecidableEq, Repr

/-- One engine's grant state and counters (10 Table 10.7). -/
structure EngArb where
  owner : Option (Nat × Req) := none
  oos : Bool := false
  grants : Word32 := 0
  voids : Word32 := 0
  preempts : Word32 := 0
  /-- The owner was chosen in this cycle: its block has not started (R250). -/
  fresh : Bool := false
  /-- The decision just taken chose a request that has been withdrawn since (R253). -/
  voided : Bool := false
  deriving DecidableEq, Repr

/-- One arbiter (10 Table 10.7). -/
structure Arb where
  pendLo : Word32 := 0x76543210
  pendHi : BitVec 28 := 0xEDCBA98
  liveLo : Word32 := 0x76543210
  liveHi : BitVec 28 := 0xEDCBA98
  /-- A commit that the next decision but one uses first (R249). -/
  coming : Option (Word32 × BitVec 28) := none
  /-- Engines that have taken the decision after that commit, under the old map. -/
  seen : List Nat := []
  rotP : Word16 := 0x07FF
  rotEn : Bool := true
  rotCount : Word16 := 0
  mapErr : Bool := false
  eng : Map EngArb := []
  /-- Requests per input and engine, key 4 input + engine. -/
  queue : Map (List Req) := []
  deriving DecidableEq, Repr

/-- An OPEN that waits for a closed page (07 R188, 08 R209). -/
structure OpenReq where
  who : Nat
  part : Nat
  cl : Nat
  eng : Nat
  count : Nat
  deriving DecidableEq, Repr

/-- A digest context written out as a sealed image (08 R220). -/
structure SavedCtx where
  seq : Word32
  fed : Word64
  decl : Word64
  algo : BitVec 3
  /-- What the state had taken: the saved state is its (R220). -/
  stream : Bytes
  deriving DecidableEq, Repr

structure Engines where
  /-- Key: ((cluster * 3 + engine) * 32 + partition) * 8 + page; engine 0, 1 FCE, 2 KCE. -/
  pages : Map CPage := []
  /-- Key: (cluster * 32 + partition) * 8 + page. -/
  dpages : Map DPage := []
  /-- Key: unit * 4 + context. -/
  ctxs : Map Ctx := []
  arbs : Map Arb := []
  opens : List OpenReq := []
  /-- OPEN result registers; key (who * 8 + cluster) * 4 + engine. -/
  openRes : Map Word32 := []
  /-- PAGE_SET of the DGE; key who * 8 + cluster. -/
  pageSet : Map Word32 := []
  /-- OPENs waiting at the PAU port of each half, in order (09 R228). -/
  pauWait : Map (List Nat) := []
  pauRes : Map Word32 := []
  /-- Engine faults counted (07 R195, 08 R223, 09 R241); key cluster * 4 + engine, or 32 + unit. -/
  faults : Map Word32 := []
  /-- Counter values at the last three faults, newest first; key as faults. -/
  recent : Map (List Nat) := []
  misuse : Map Word32 := []
  /-- Page mask keys, context keys and KCE mask seed of the cluster are made (07 R186, 08 R222). -/
  seeded : Map Bool := []
  /-- The KCE mask generator of a cluster: its seed, and the blocks since it was taken (07 R186). -/
  kceMask : Map (Bytes × Nat) := []
  /-- The mask generator of a PAU, likewise (09 R236). -/
  pauMask : Map (Bytes × Nat) := []
  /-- The DGE context key CK of a cluster (08 R222), and the page mask keys of its engines, by 4 cluster + engine (07 R207). -/
  ctxKey : Map Bytes := []
  pageMask : Map Bytes := []
  sentinels : Map Sentinel := []
  /-- DGE internal contexts in use and the working page; key cluster. -/
  inner : Map (List Nat) := []
  working : Map (Option Nat) := []
  /-- Core local SRAM; key core * 2^18 + offset. -/
  sram : Map Byte := []
  /-- Saved digest contexts: key page key; save sequence, stream and buffer as sealed (08 R220). -/
  saved : Map SavedCtx := []
  deriving DecidableEq, Repr

/-! ### Entropy (11) -/

structure Expander where
  /-- Key and V (R269). -/
  drbg : Drbg := {}
  /-- Calls that wait for a seed, in order: an internal one, and the descriptor it is for + 1, 0 for none (R270). -/
  waits : List (Bool × Nat) := []
  calls : Nat := 0
  inst : Bool := false
  stretched : Bool := false
  seedWait : Bool := false
  /-- Past 2^16 calls when the configuration dropped below eight clusters: no call until it has reseeded (R270). -/
  barred : Bool := false
  reseeds : Word32 := 0
  stretches : Word32 := 0
  dryWaits : Word32 := 0
  deriving DecidableEq, Repr

inductive EntState where
  | starting | running | failed | raw
  deriving DecidableEq, Repr

/-- A capture in progress (11 R278): its descriptor, sources, samples of each, and where they go. -/
structure Capture where
  desc : Nat
  sources : Nat
  samples : Nat
  addr : Nat
  deriving DecidableEq, Repr

structure Entropy where
  st : EntState := .starting
  ready : Bool := false
  fail : Bool := false
  rawActive : Bool := false
  starting : Bool := true
  katPassed : Bool := false
  srcPass : Word16 := 0
  srcFail : Word16 := 0
  failTest : BitVec 2 := 0
  failSrc : BitVec 4 := 0
  /-- The seed queue's words, 16 bytes each, oldest first (R265). -/
  queue : List Bytes := []
  blocks : Word32 := 0
  discarded : Word32 := 0
  rawFails : Word32 := 0
  exps : Map Expander := []
  rr3 : Nat := 7
  rr4 : Nat := 7
  /-- Expanders that must reseed after raw mode, ahead of the reseed classes (R279). -/
  leaveReseed : List Nat := []
  capture : Option Capture := none
  /-- The LEAVE whose start-up runs (R279). -/
  leaving : Option Nat := none
  /-- Sampling instants so far: names the next free samples (notes/assumptions/6.md). -/
  instants : Nat := 0
  deriving DecidableEq, Repr

/-! ### Tamper (12) -/

inductive FellState where
  | armed | felling | felled | test
  deriving DecidableEq, Repr

/-- An event whose window is open or which waits for its Tally bit (12 R290, R302). -/
structure Event where
  cls : BitVec 4 := 0
  kinds : Word16 := 0
  firstKind : Byte := 0
  firstInst : Byte := 0
  onCell : Bool := false
  cellLost : Bool := false
  debug : Bool := false
  escalation : Bool := false
  late : Byte := 0
  time : Word64 := 0
  window : Bool := true
  /-- The Tally bit it programs; none once the Tally is full (R302, R303). -/
  tbit : Option Nat := none
  deriving DecidableEq, Repr

/-- The canary's two valid patterns, and the loss of the battery-backed SRAM (12 R300). -/
inductive Canary where
  | valid | emptied | lost
  deriving DecidableEq, Repr

/-- A log entry (12 Table 12.6). -/
structure LogEntry where
  seq : Word32
  ev : Event
  lcBefore : BitVec 4
  lcAfter : BitVec 4
  deriving DecidableEq, Repr

/-- A sentinel phase of a cluster (12 R309, R310). -/
inductive SentPhase where
  | off | one | two (aStar : Option Nat)
  deriving DecidableEq, Repr

structure Tamper where
  fell : FellState := .armed
  felledState : Bool := false
  /-- Filter lengths set, ns; a key not listed stands at Table 12.1's default. -/
  filters : Map Nat := []
  armed : Map Bool := []
  /-- Confirmed and not yet absent for the filter length (R292). -/
  latched : List Nat := []
  /-- Events not yet written to the log, oldest first. -/
  events : List Event := []
  /-- Union of the classes of the events of this felled period (R291). -/
  effect : BitVec 4 := 0
  pending : Bool := false
  pClass : BitVec 4 := 0
  pOnCell : Bool := false
  firstBit : Nat := 0
  lastBit : Nat := 0
  mirror : Nat := 0
  tally : Nat := 0
  log : List LogEntry := []
  logSeq : Word32 := 0
  canary : Canary := .emptied
  storageKey : Option Bytes := none
  lastKind : Byte := 0
  lastInst : Byte := 0
  tampOutN : Bool := true
  /-- A monitor has confirmed since the latch was cleared (R296). -/
  confirmedSince : Bool := false
  scrubbing : Bool := false
  uvPending : List Nat := []
  onCell : Bool := false
  testEntry : Byte := 0
  /-- The entry whose test runs. -/
  testRun : Byte := 0
  testBusy : Bool := false
  testPass : Bool := false
  testFail : Bool := false
  testDone : Byte := 0
  /-- Counter value at the last test of each entry (R308). -/
  testTime : Map Word64 := []
  nextTest : Nat := 0
  droop : Map Byte := []
  lowMargin : Map Bool := []
  phase : Map SentPhase := []
  /-- OPS and misses of both FCEs together when the interval began (R310). -/
  interval : Map (Nat × Nat) := []
  /-- Background blocks of this 100 ms (R312). -/
  topUp : Map Nat := []
  deriving DecidableEq, Repr

/-! ### Gates (13) -/

/-- A region of gates 1 to 5, or a host window (13 Table 13.4, R325). -/
structure Region where
  sizeExp : BitVec 6 := 0
  valid : Bool := false
  bad : Bool := false
  rd : Bool := false
  wr : Bool := false
  base : Word64 := 0
  rmask : BitVec 128 := 0
  wmask : BitVec 128 := 0
  deriving DecidableEq, Repr

/-- One gate's control and fault registers (13 Table 13.8). -/
structure Gate where
  epoch : Word32 := 0
  fenceBusy : Bool := false
  fenceEpoch : Word32 := 0
  ruleErr : Bool := false
  faults : Word32 := 0
  dbgFaults : Word32 := 0
  faultAddr : Word64 := 0
  faultMaster : BitVec 7 := 0
  faultWrite : Bool := false
  faultKind : BitVec 2 := 0
  faultPart : BitVec 5 := 0
  faultValid : Bool := false
  regions : Map Region := []
  staged : Map Region := []
  deriving DecidableEq, Repr

structure Gates where
  gates : Map Gate := []
  /-- The window set being retired, per partition (R326). -/
  oldWin : Map (List Region) := []
  deriving DecidableEq, Repr

/-! ### Mesh (14) -/

structure RosterEntry where
  meshId : Nat
  serial : Word64
  idDigest : Bytes
  deriving DecidableEq, Repr

structure Roster where
  topology : Nat := 0
  secondRing : Bool := false
  serve : Bool := false
  minFw : Word32 := 0
  members : List RosterEntry := []
  digest : Bytes := []
  deriving DecidableEq, Repr

/-- A stage of the exchange of 14 R337: its HELLO is sent, the peer's HELLO has passed its checks, the keys are made. -/
inductive Exch where
  | idle | sent | helloOk | keyed | done | failed
  deriving DecidableEq, Repr

/-- One exchange, with a neighbour or end to end (14 R337, R338): the seed of the own encapsulation key, both HELLOs,
what they say of the peer, the own ciphertext and its secret, and the 96 bytes of keys. -/
structure Shake where
  st : Exch := .idle
  seed : Bytes := []
  mine : Bytes := []
  theirs : Bytes := []
  peer : Nat := 0
  idKey : Bytes := []
  ct : Bytes := []
  secret : Bytes := []
  keys : Bytes := []
  deriving DecidableEq, Repr

structure Port where
  enable : Bool := true
  training : Bool := false
  up : Bool := false
  lanes : Nat := 0
  attested : Bool := false
  peerId : Nat := 0
  lateReplies : Word32 := 0
  retries : Word32 := 0
  txKey : Option Bytes := none
  rxKey : Option Bytes := none
  txCtr : Word64 := 0
  rxCtr : Word64 := 0
  txSeq : BitVec 12 := 0
  /-- Last class 1-4 SEQ received in order and accepted. -/
  rxSeq : BitVec 12 := 0
  acked : BitVec 12 := 0
  nak : Bool := false
  tagFails : Nat := 0
  replay : List (BitVec 12) := []
  /-- Flits that wait for a credit or for the replay buffer: class and virtual lane (14 R335). -/
  waiting : List (Nat × Nat) := []
  credits : Map Nat := []
  deriving DecidableEq, Repr

/-- A forwarded request this device sent, live under a destination and tag (14 R350). -/
structure Fwd where
  dst : Nat
  tag : Nat
  attempt : Word16
  accepted : Bool := false
  desc : Nat
  part : Nat
  /-- The FWD message's body, and the port it went out on. -/
  body : Bytes
  port : Nat
  /-- Input bytes sent so far. -/
  sent : Nat := 0
  /-- For a recipe step: the run before it, and its input. -/
  step : Option (Run × Bytes) := none
  deriving DecidableEq, Repr

/-- Forwarded work this device holds as home (14 R350 to R352). -/
structure Held where
  src : Nat
  tag : Word16
  attempt : Word16
  part : Nat
  /-- The input received so far. -/
  body : Bytes
  /-- How many bytes of it. -/
  got : Nat := 0
  /-- Up to which offset it has been asked for (R352). -/
  asked : Nat := 0
  /-- The port its messages come in on; 4 for work of a transaction. -/
  port : Nat := 4
  deriving DecidableEq, Repr

/-- A replicated transaction in the journal (14 R343). -/
structure Txn where
  rseq : Nat
  origin : Nat
  tag : Word16
  attempt : Word16
  body : Bytes
  waiting : List Nat := []
  done : Bool := false
  deriving DecidableEq, Repr

/-- What a heartbeat told of a member (14 Table 14.6). -/
structure Beat where
  fresh : Bool := false
  lifecycle : BitVec 4 := 0
  entReady : Bool := false
  vaultReady : Bool := false
  queued : Nat := 0
  map : Byte := 0
  deriving DecidableEq, Repr

/-- A message sent, a KEY message as it stands under its pair key: the model's own output record. Port 4 is the device itself. -/
structure Sent where
  port : Nat
  src : Nat
  dst : Nat
  type : Nat
  tag : Nat := 0
  attempt : Nat := 0
  part : Nat := 0
  hops : Nat := 0
  aux : Nat := 0
  body : Bytes
  deriving DecidableEq, Repr

structure Mesh where
  roster : Option Roster := none
  memberMap : Byte := 0
  ports : Map Port := []
  pairKeys : Map Bytes := []
  /-- Keys of MASTER_GENERATE in the mesh key unit, by RSEQ (14 R341). -/
  unitKeys : Map Bytes := []
  mrk : Option Bytes := none
  /-- The copy in the root store, with the storage key it is sealed under (R345). -/
  sealedMrk : Option (Bytes × Bytes) := none
  slotHome : Map (Option Nat) := []
  rseq : Nat := 0
  journal : List Txn := []
  fwds : List Fwd := []
  attempts : Map Word16 := []
  held : List Held := []
  /-- FWDs that wait in their REQ buffers for a place in the forwarded queue (R350). -/
  waitFwd : List Msg := []
  /-- Exchanges: key p for port p's neighbour, 8 + i end to end with member i. -/
  hs : Map Shake := []
  /-- The 64-bit counter of each pair key (R338). -/
  pairCtr : Map Nat := []
  /-- TXNs of this origin that have no TXN_DONE yet, by descriptor. -/
  asked : Map Bytes := []
  beats : Map Beat := []
  stale : Bool := false
  /-- Joined and not yet brought up to date (R346): the RSEQ it has to reach, once it is told. -/
  resyncing : Bool := false
  resyncTo : Option Nat := none
  /-- Heartbeats of the coordinator since RESYNC was sent and nothing came back. -/
  resyncBeats : Nat := 0
  attestFails : Word32 := 0
  unknownMsgs : Word32 := 0
  /-- Messages sent, oldest first. -/
  sent : List Sent := []
  deriving DecidableEq, Repr

/-! ### Time and power (15) -/

structure Time where
  counter : Word64 := 0
  frac : Word32 := 0
  trim : Word32 := 0
  hiLatch : Word32 := 0
  setVal : Word64 := 0
  valid : Bool := false
  setPending : Bool := false
  holdover : Bool := false
  holding : Bool := false
  capt : Word64 := 0
  /-- Counter at the edge that ended the last gate (Table 15.2). -/
  gateTime : Word64 := 0
  ppsEn : Bool := false
  ppsFalling : Bool := false
  lock : Bool := false
  missing : Bool := false
  outOfWindow : Bool := false
  ppsOffset : Word32 := 0
  freq : Word64 := 0
  freqSeq : Word32 := 0
  lastF : Word32 := 0
  lockEver : Bool := false
  /-- A frequency count has been posted since cold reset (Table 15.2 VALID). -/
  counted : Bool := false
  good : Nat := 0
  badWindows : Nat := 0
  /-- The boundary whose window last held a counted edge. -/
  lastBoundary : Option Nat := none
  deltas : List Int := []
  aonCount : Word32 := 0
  deriving DecidableEq, Repr

/-- A cluster state (15 Table 15.7). -/
inductive CState where
  | off | powering | quiesced | testing | serving | draining | failed
  deriving DecidableEq, Repr

structure Domain where
  on : Bool := false
  pgood : Bool := false
  iso : Bool := true
  ramping : Bool := false
  op : Bool := false
  deriving DecidableEq, Repr

/-- A cluster operation (15 R378): an owner's command by its descriptor, a repair of a cluster (R377), or a step of
the firmware update (16 R396) on a cluster. -/
inductive ClusterOp where
  | verb (d : Nat) (c : Nat)
  | repair (c : Nat)
  | update (c : Nat)
  deriving DecidableEq, Repr

structure Power where
  domains : Map Domain := []
  servingBits : Byte := 0
  cstate : Map CState := []
  /-- Stored setting per cluster: on, point (root store, R375). -/
  stored : Map (Bool × Bool) := []
  /-- Time of each cluster's last repair (R377), and outcomes. -/
  repaired : Map Word64 := []
  repairs : List (Nat × Bool) := []
  /-- The cluster operation in progress, and those in turn after it (R378). -/
  current : Option ClusterOp := none
  /-- The repair in progress has cycled the power. -/
  cycled : Bool := false
  turn : List ClusterOp := []
  /-- The image whose core section the cores of a cluster have loaded (16 R396). -/
  coreImage : Map Bool := []
  deriving DecidableEq, Repr

/-! ### Lifecycle and root store (16) -/

/-- The lifecycle states (16 Table 16.1). -/
inductive Lifecycle where
  | blank | owned | operational | emptied | quarantined | retired | development
  deriving DecidableEq, Repr

/-- A firmware image (16 R391): the chunks loaded into it, newest first, each with its offset; what no chunk covers
is what the factory left there (notes/assumptions/8.md). -/
structure Image where
  chunks : List (Nat × Bytes) := []
  /-- Verified, and nothing loaded into it since (R395). -/
  valid : Bool := false
  deriving DecidableEq, Repr

/-- Where the boot stands (16 Table 16.7). -/
inductive Boot where
  | held | waitEntropy | waitLink | stopped | done
  deriving DecidableEq, Repr

/-- A recipe image in the store (05 R139). -/
structure Recipe where
  id : Nat
  rversion : Nat
  part : Nat
  signer : Nat
  digest : Bytes
  image : Bytes
  deriving DecidableEq, Repr

structure Life where
  st : Lifecycle := .blank
  boot : Boot := .held
  ownerKey : Option Bytes := none
  cmdSeq : Nat := 0
  active : Bool := false
  imageA : Image := { valid := true }
  imageB : Image := {}
  running : Bool := false
  svnFloor : Word16 := 0
  key0Revoked : Bool := false
  fwNone : Bool := false
  /-- The activation in progress: its descriptor, the image, and the clusters still to update (R396). -/
  activating : Option (Nat × Bool × List Nat) := none
  updatePause : Bool := false
  dbgEn : Bool := false
  session : Bool := false
  tokenResult : Word16 := 0
  devNonce : Bytes := []
  token : Bytes := []
  runControl : Map Word32 := []
  tokenFails : Word32 := 0
  straps : BitVec 3 := 0
  sysRstN : Bool := true
  perstN : Bool := true
  mainPower : Bool := true
  /-- SYS_RST_N pulses of 1 to 10 µs so far (18 R418). -/
  pulses : Nat := 0
  recipes : List Recipe := []
  rversions : Map Nat := []
  /-- Bit i: the item of SMBus request i is new (18 R422). -/
  newItems : BitVec 8 := 0
  deriving DecidableEq, Repr

/-! ### The whole state -/

structure State where
  /-- Commands waiting, first in, first out. -/
  pending : List Instr := []
  host : HostIf := {}
  disp : Disp := {}
  kr : KeyReg := {}
  vault : Vault := {}
  eng : Engines := {}
  ent : Entropy := {}
  tam : Tamper := {}
  gate : Gates := {}
  mesh : Mesh := {}
  time : Time := {}
  pwr : Power := {}
  life : Life := {}
  deriving DecidableEq, Repr

/-- Why the block stops with a fault. -/
inductive Fault where
  /-- Raised by RING_POLL and PAGE_SUPPLY whose host stores lie outside the 64-bit host address space
  (02 R26, R28): no such address exists. Safe: no hardware run offers one. -/
  | noSuchHostAddress (addr : Nat)
  deriving DecidableEq, Repr

/-- Why a command is refused. -/
inductive Refusal where
  /-- A command whose meaning is not written yet. Safe. -/
  | notModelled (mnemonic : String)
  deriving DecidableEq, Repr

/-- The block at a cold reset, before its boot: every register at its Reset value, retained items as a
fresh production part in Blank holds them (notes/assumptions/8.md). -/
def State.reset : State := {}

end Sys2Proof.Machine
end

