-- ==== Sys2Proof/Machine/Flags.lean ====
section
/-! DEFINITION. Status codes, completion flags and event flags by their numbers (02 Tables 2.9, 2.20, 2.21),
and which status a set of flags gives. -/

namespace Sys2Proof.Machine

/-! ### Status codes (02 Table 2.20) -/

def stDone : Word16 := 0x0000
def stFlagged : Word16 := 0x0001
def stBad : Word16 := 0x0101
def stShort : Word16 := 0x0102
def stLimit : Word16 := 0x0103
def stEmpty : Word16 := 0x0201
def stCorrupt : Word16 := 0x0202
def stStale : Word16 := 0x0203
def stUsage : Word16 := 0x0204
def stExpired : Word16 := 0x0205
def stAuth : Word16 := 0x0301
def stEntNotReady : Word16 := 0x0401
def stEntFailed : Word16 := 0x0402
def stMissing : Word16 := 0x0501
def stIntegrity : Word16 := 0x0502
def stPageTimeout : Word16 := 0x0503
def stMesh : Word16 := 0x0601
def stAccess : Word16 := 0x0701
def stEngine : Word16 := 0x0801
def stRecipe : Word16 := 0x0901
def stPartReset : Word16 := 0x0A01
def stFelled : Word16 := 0x0F01

/-! ### Completion flags (02 Table 2.21), as bit numbers -/

def cfExcess : Nat := 0
def cfRevoked : Nat := 1
def cfStretched : Nat := 2
def cfForwarded : Nat := 3
def cfTrunc : Nat := 4
def cfUnaligned : Nat := 5

/-- Flags with bit i set. -/
def setFlag {n : Nat} (f : BitVec n) (i : Nat) : BitVec n := f ||| BitVec.ofNat n (2 ^ i)

/-- At least one flag of the noted set is raised (02 Table 2.21). -/
def anyNoted (f : BitVec 15) : Bool := f &&& 0x17 != 0

/-- DONE becomes DONE_FLAGGED when a noted flag is raised (02 Tables 2.20, 2.21). -/
def flaggedStatus (st : Word16) (f : BitVec 15) : Word16 :=
  if st = stDone ∨ st = stFlagged then (if anyNoted f then stFlagged else stDone) else st

/-- DONE or DONE_FLAGGED: output and results stand (02 R45). -/
def succeeded (st : Word16) : Bool := st == stDone || st == stFlagged

/-! ### Event flags (02 Table 2.9), as bit numbers -/

def evMbox : Nat := 0
def evFelled : Nat := 1
def evEntFail : Nat := 2
def evEntReady : Nat := 3
def evVaultReady : Nat := 4
def evRingFault : Nat := 5
def evOwnerReset : Nat := 6
def evUpdatePause : Nat := 7
def evPps : Nat := 8

end Sys2Proof.Machine
end

