-- ==== Sys2Proof/Machine/Ops.lean ====
section
/-! DEFINITION. The shared operations over the host side: functions and rings, the gates' decision
(13 R317, R318, R325), host memory in its canonical form, posted writes (02 R51) and interrupts (02 R53). -/

namespace Sys2Proof.Machine

/-- What a command answers. -/
abbrev Out := Host.Outcome State Fault Refusal

/-! ### What the board controller is told of (18 R422, Table 18.5) -/

/-- Image A (false) or B. -/
def State.image (s : State) (b : Bool) : Image := if b then s.life.imageB else s.life.imageA

/-- Bytes off to off + n of an image. -/
def State.imageBytes (s : State) (b : Bool) (off n : Nat) : Bytes :=
  (List.range n).map fun k =>
    let i := off + k
    match (s.image b).chunks.find? fun c => decide (c.1 ≤ i ∧ i < c.1 + c.2.length) with
    | some c => byteAt c.2 (i - c.1)
    | none => Config.freeByte (10 + b2n b) i

/-- VERSION of the running image (16 Table 16.6). -/
def State.fwVersion (s : State) : Word32 := BitVec.ofNat 32 (leNat (s.imageBytes s.life.running 8 4))

/-- Everything HEALTH reports. -/
def State.healthSame (s t : State) : Bool :=
  s.ent.fail == t.ent.fail && s.ent.failSrc == t.ent.failSrc && s.ent.failTest == t.ent.failTest
    && s.eng.faults == t.eng.faults && s.kr.corrupt == t.kr.corrupt && s.pwr.cstate == t.pwr.cstate
    && s.tam.lowMargin == t.tam.lowMargin && s.pwr.repairs == t.pwr.repairs && s.vault.discards == t.vault.discards
    && s.gate.gates.map (fun g => (g.1, g.2.faults, g.2.dbgFaults)) == t.gate.gates.map (fun g => (g.1, g.2.faults, g.2.dbgFaults))
    && s.mesh.attestFails == t.mesh.attestFails && s.life.tokenFails == t.life.tokenFails && s.mesh.stale == t.mesh.stale

/-- Bits by request code: the items that differ between two states. -/
def State.changed (s t : State) : BitVec 8 :=
  let same : Nat → Bool := fun i =>
    match i with
    | 1 => s.life.st == t.life.st && s.fwVersion == t.fwVersion && s.life.fwNone == t.life.fwNone
    | 3 => s.tam.tally == t.tam.tally && s.tam.pending == t.tam.pending
    | 4 => s.tam.logSeq == t.tam.logSeq
    | 5 => s.time.lock == t.time.lock && s.time.missing == t.time.missing && s.time.outOfWindow == t.time.outOfWindow
        && s.time.holdover == t.time.holdover
    | 6 => s.healthSame t
    | _ => true
  BitVec.ofNat 8 (((List.range 8).map fun i => if same i then 0 else 2 ^ i).sum)

/-- The new bits of what changed from s to t are set. -/
def State.noteNew (s t : State) : State :=
  { t with life := { t.life with newItems := t.life.newItems ||| s.changed t } }

/-- What a command leaves: the state t that it leads to, with the board controller's new bits; the queue is not its to change. -/
def State.settled (s t : State) : State := { s.noteNew t with pending := s.pending }

/-- A command's answer from state s: the state t that it leads to. -/
def answer (s t : State) : Out := .next (s.settled t)

/-! ### Host memory: cells by rising address, none listed that holds zero -/

/-- The canonical form of the host memory. -/
def Memory.wf (m : List Host.Cell) : Bool :=
  decide ((m.map Prod.fst).Pairwise (· < ·)) && m.all fun c => c.2 != 0

/-- The byte at address a; a byte nobody stored reads 0 (notes/assumptions/1.md). -/
def memGet (m : List Host.Cell) (a : Nat) : Byte := mget m a 0

def memPut (m : List Host.Cell) (a : Nat) (v : Byte) : List Host.Cell := if v = 0 then mdel m a else mset m a v

/-- The bytes of b stored from address a on. -/
def memPutAll (m : List Host.Cell) (a : Nat) (b : Bytes) : List Host.Cell :=
  match b with
  | [] => m
  | v :: r => memPutAll (memPut m a v) (a + 1) r

/-- Stores by the host itself, in order. -/
def memStores (m : List Host.Cell) (w : List (Nat × Byte)) : List Host.Cell := w.foldl (fun m c => memPut m c.1 c.2) m

def State.hostGet (s : State) (a n : Nat) : Bytes := (List.range n).map fun i => memGet s.host.mem (a + i)

/-- A posted write of the device for partition p, under its requester ID (02 R28, R51), recorded in order. -/
def State.postWrite (s : State) (p a : Nat) (b : Bytes) : State :=
  { s with host := { s.host with mem := memPutAll s.host.mem a b, posted := s.host.posted ++ [.mem p a b] } }

/-! ### Functions, rings, partitions -/

def State.func (s : State) (n : Nat) : Func := mget s.host.funcs n {}

def State.setFunc (s : State) (n : Nat) (f : Func) : State :=
  { s with host := { s.host with funcs := mset s.host.funcs n f } }

/-- Ring set-up at reset: VECTOR of ring r reads r (02 Table 2.9). -/
def ringReset (r : Nat) : Ring := { vector := BitVec.ofNat 4 r }

def Func.ring (f : Func) (r : Nat) : Ring := mget f.rings r (ringReset r)

def State.ring (s : State) (n r : Nat) : Ring := (s.func n).ring r

def State.setRing (s : State) (n r : Nat) (x : Ring) : State :=
  s.setFunc n { s.func n with rings := mset (s.func n).rings r x }

def State.part (s : State) (p : Nat) : Part := mget s.vault.parts p {}

def State.setPart (s : State) (p : Nat) (x : Part) : State :=
  { s with vault := { s.vault with parts := mset s.vault.parts p x } }

/-- PARTITION_LIVE (02 R27, Table 2.4). -/
def State.partLive (s : State) (n : Nat) : Bool := if n = 0 then (s.func 0).fnReady else (s.part n).live

def ringSize (x : Ring) : Nat := 2 ^ x.log2.toNat

/-! ### Gates -/

def State.gateOf (s : State) (g : Nat) : Gate := mget s.gate.gates g {}

def State.setGate (s : State) (g : Nat) (x : Gate) : State :=
  { s with gate := { s.gate with gates := mset s.gate.gates g x } }

/-- What a gate decides (13 R318). -/
inductive GateAns where
  | pass | noMatch | overlap | denied
  deriving DecidableEq, Repr

def Region.covers (r : Region) (a : Nat) : Bool :=
  r.valid && !r.bad && decide (r.base.toNat ≤ a ∧ a < r.base.toNat + 2 ^ r.sizeExp.toNat)

/-- A committed region with VALID 1 is BAD when its size or its base is malformed (13 R317). -/
def Region.malformed (r : Region) : Bool :=
  r.valid && (decide (r.sizeExp.toNat < 12 ∨ 40 < r.sizeExp.toNat) || r.base.toNat % 2 ^ r.sizeExp.toNat != 0)

/-- The decision over a table of regions (13 R318), where grants says what the one matching region allows. -/
def gateDecide (regions : List Region) (a : Nat) (grants : Region → Bool) : GateAns :=
  match regions.filter (·.covers a) with
  | [] => .noMatch
  | [r] => if grants r then .pass else .denied
  | _ => .overlap

/-- The windows of partition p in force, or the set being retired (13 R325, R326). -/
def State.windows (s : State) (p : Nat) (old : Bool) : List Region :=
  let now := (List.range 8).map fun w => mget (s.gateOf 0).regions (8 * p + w) {}
  if old then mget s.gate.oldWin p now else now

/-- The first bytes of the pieces a request is split into at 4 KiB boundaries (13 R320). -/
def pieceStarts (a len : Nat) : List Nat :=
  if len = 0 then [] else a :: (List.range ((a + len - 1) / 4096 - a / 4096)).map fun i => (a / 4096 + i + 1) * 4096

/-- The first piece of a host request that GATE_HOST refuses, with its answer. -/
def hostRefusal (ws : List Region) (a len : Nat) (write : Bool) : Option (Nat × GateAns) :=
  (pieceStarts a len).findSome? fun p =>
    match gateDecide ws p (fun r => if write then r.wr else r.rd) with
    | .pass => none
    | g => some (p, g)

def State.hostPasses (s : State) (p : Nat) (old : Bool) (a len : Nat) (write : Bool) : Bool :=
  (hostRefusal (s.windows p old) a len write).isNone

/-- FAULT_KIND (13 Table 13.8). -/
def GateAns.kind : GateAns → BitVec 2
  | .pass => 0
  | .noMatch => 1
  | .overlap => 2
  | .denied => 3

/-- A refusal recorded by gate g (13 R324): counts saturate, the first refusal stands until FAULT_VALID is cleared. -/
def State.noteRefusal (s : State) (g master : Nat) (a : Nat) (write : Bool) (ans : GateAns) (part : Nat) : State :=
  let x := s.gateOf g
  let x := { x with faults := satInc x.faults, dbgFaults := if master = 80 then satInc x.dbgFaults else x.dbgFaults }
  s.setGate g <|
    if x.faultValid then x
    else { x with faultAddr := BitVec.ofNat 64 a, faultMaster := BitVec.ofNat 7 master, faultWrite := write,
                  faultKind := ans.kind, faultPart := BitVec.ofNat 5 part, faultValid := true }

/-- The identity FAULT_MASTER reports for the ring engine, which 13 Table 13.2 does not list: a free value, written 128 + identity so
that it is never read as DBG. Paging transfers and captures are a data mover's (13 R314, Table 13.7), which of the eight is free
(notes/assumptions/20.md). -/
def ringEngineId : Nat := 128 + Config.freeNat 2 0 % 128
def pagingId : Nat := 65 + Config.freeNat 2 1 % 8

/-- A host request checked by GATE_HOST: the state with a refusal noted, and whether it passes. -/
def State.checkHost (s : State) (master p : Nat) (old : Bool) (a len : Nat) (write : Bool) : State × Bool :=
  match hostRefusal (s.windows p old) a len write with
  | none => (s, true)
  | some (f, g) => (s.noteRefusal 0 master f write g p, false)

/-! ### Interrupts -/

/-- Vector v of function n is sent, or pends while its entry is masked (02 R53). -/
def State.sendVector (s : State) (n v : Nat) : State :=
  if 10 ≤ v then s
  else
    let f := s.func n
    let e := mget f.msix v {}
    if e.mask then s.setFunc n { f with pba := mset f.pba v true }
    else { s with host := { s.host with posted := s.host.posted ++ [.msix n v e.addr.toNat e.data] } }

/-- An EVT_STAT bit is set; going from 0 to 1 it raises vector 8 when unmasked in EVT_MASK (02 R53). -/
def State.raiseEvt (s : State) (n i : Nat) : State :=
  let f := s.func n
  if f.evtStat.getLsbD i then s
  else
    let s := s.setFunc n { f with evtStat := setFlag f.evtStat i }
    if f.evtMask.getLsbD i then s.sendVector n 8 else s

/-- The functions that exist on PCIe. -/
def State.present (s : State) : List Nat := (List.range 32).filter fun n => (s.func n).present

/-- An event that every function's EVT_STAT reports. -/
def State.raiseAll (s : State) (i : Nat) : State := s.present.foldl (fun s n => s.raiseEvt n i) s

/-- COUNT, where 0 acts as 1 (02 Table 2.9). -/
def moderation (c : Byte) : Nat := if c = 0 then 1 else c.toNat

/-- Interrupts of ring r of function n are off: IRQ_EN 0, or VECTOR 10 to 15 (02 R53). -/
def Ring.irqOff (x : Ring) : Bool := !x.irqEn || decide (10 ≤ x.vector.toNat)

/-- The ring's vector is sent and PENDING reset (02 R53). -/
def State.signalRing (s : State) (n r : Nat) : State :=
  let x := s.ring n r
  (s.setRing n r { x with pend := 0 }).sendVector n x.vector.toNat

/-- A completion record has been written to ring r (02 R53). -/
def State.noteRecord (s : State) (n r : Nat) (irqNow : Bool) : State :=
  let x := s.ring n r
  if x.irqOff then s
  else
    let x := { x with pend := x.pend + 1 }
    let s := s.setRing n r x
    if irqNow || decide (moderation x.count ≤ x.pend) then s.signalRing n r else s

/-- A record has been written to the paging request ring: vector 9 under PG_COUNT (02 R53). -/
def State.notePaging (s : State) : State :=
  let k := s.host.pgPend + 1
  if moderation s.host.pgCount ≤ k then { s with host := { s.host with pgPend := 0 } }.sendVector 0 9
  else { s with host := { s.host with pgPend := k } }

end Sys2Proof.Machine
end

