-- ==== Sys2Proof/Machine/GateRules.lean ====
section
/-! DEFINITION. The decisions of the access gates over the fabric address space (13 R315, R318 to R320). -/

namespace Sys2Proof.Machine

/-! ### Decisions (R318, R319) -/

/-- What a fixed rule says of an address: none where no fixed rule covers it, else whether the access passes (Table 13.5). -/
def fixedRule (g master a : Nat) (write : Bool) : Option Bool :=
  if g = 4 ∧ 0x0E000000 ≤ a ∧ a < 0x0E500000 then some (master == 64)
  else if g = 4 ∧ 0x0E500000 ≤ a ∧ a < 0x0E501000 then some (master == 64 || master == 80)
  else if g = 4 ∧ 0x0F800000 ≤ a ∧ a < 0x0F900000 then some (master == 74 || (master == 64 && !write))
  else if g = 3 ∧ 0x0C000000 ≤ a ∧ a < 0x0D000000 then some (master == 73)
  else none

/-- What a region grants an identity: identity 80's bits read 0 outside Blank (R327). -/
def State.grantsTo (s : State) (master : Nat) (write : Bool) (r : Region) : Bool :=
  (master != 80 || s.life.st == .blank) && if write then r.wmask.getLsbD master else r.rmask.getLsbD master

/-- The answer of gate g (1 to 5) to an access. -/
def State.gateAnswer (s : State) (g master a : Nat) (write : Bool) : GateAns :=
  match fixedRule g master a write with
  | some true => .pass
  | some false => .denied
  | none =>
    gateDecide ((List.range 64).map fun r => mget (s.gateOf g).regions r {}) a (s.grantsTo master write)

/-- An access checked by gate g, a refusal recorded with its partition tag. -/
def State.gateCheck (s : State) (g master a : Nat) (write : Bool) (part : Nat) : State × Bool :=
  match s.gateAnswer g master a write with
  | .pass => (s, true)
  | ans => (s.noteRefusal g master a write ans part, false)

/-- The gate that guards an address (Table 13.3); an address outside every block is checked by GATE_REG. -/
def gateFor (a : Nat) : Nat :=
  if 0x04000000 ≤ a ∧ a < 0x05000000 then 1
  else if 0x08000000 ≤ a ∧ a < 0x0A000000 then 2
  else if 0x0C000000 ≤ a ∧ a < 0x0D000000 then 3
  else 4

/-- Bytes off to off + n of core w's local SRAM, in pieces of at most 4 KiB (R320): checked for a master. -/
def State.sramCheck (s : State) (master w off n : Nat) (write : Bool) (part : Nat) : State × Bool :=
  let base := 0x04000000 + 0x40000 * w
  match (pieceStarts (base + off) n).find? fun a => s.gateAnswer 1 master a write != .pass with
  | some a => (s.gateCheck 1 master a write part)
  | none => (s, true)

/-! ### Local SRAM -/

/-- Bytes of core w's local SRAM. -/
def State.sramGet (s : State) (w off n : Nat) : Bytes := (List.range n).map fun i => mget s.eng.sram (w * 2 ^ 18 + off + i) 0

def State.sramPut (s : State) (w off : Nat) (b : Bytes) : State :=
  { s with eng := { s.eng with sram := ((List.range b.length).foldl (fun (m : Map Byte) i =>
    mset m (w * 2 ^ 18 + off + i) (byteAt b i)) s.eng.sram) } }

end Sys2Proof.Machine
end

