-- ==== Sys2Proof/Machine/Verb.lean ====
section
/-! DEFINITION. The frame in which a verb is written: a computation over the state that answers a value or
stops. What it changed before it failed stays (04 R103, 05 R148). A computation that has to wait is run again from the
state it started in, so that waiting consumes nothing twice (06 R172); but what its descriptor holds by then, it keeps: the
keys delivered, the chain record, its transient slots, random already drawn and its completion flags. -/

namespace Sys2Proof.Machine

/-- Why a verb's run ends early. -/
inductive Stop where
  /-- It completes with a status; wrote is what it had put out by then (02 R45). -/
  | fail (st : Word16) (wrote : Bytes)
  /-- It waits for a vault object (06 R172): its level (0 a page) and number. -/
  | park (obj num : Nat)
  /-- It waits for a vault object; what it did so far stands, and it goes on from there. -/
  | parkKeep (obj num : Nat)
  /-- It waits otherwise, with nothing consumed yet. -/
  | wait (g : Stage)
  /-- It waits otherwise; what it did so far stands, and it goes on from there. -/
  | waitKeep (g : Stage)
  /-- What it did stands, and its completion waits at a stage of its own. -/
  | hold (g : Stage)
  /-- The record or key has its home on a mesh peer (04 R95). -/
  | forward (peer : Nat)
  deriving DecidableEq, Repr

abbrev V (α : Type) := ExceptT Stop (StateM State) α

/-- A verb completes with a status and no output. -/
def failV {α : Type} (st : Word16) : V α := throw (.fail st [])

def stopV {α : Type} (x : Stop) : V α := throw x

/-- Unless c holds, the verb completes with a status. -/
def need (c : Bool) (st : Word16) : V Unit := if c then pure () else failV st

def getV : V State := get

def modV (f : State → State) : V Unit := modify f

/-- A verb's run from a state: what it ended with, and the state. -/
def runV {α : Type} (m : V α) (s : State) : Except Stop α × State := m.run.run s

/-- What a verb that completed leaves to be delivered. -/
structure Answer where
  out : Bytes := []
  inl : Bytes := []
  /-- The completion waits for the vault commit of its updates (04 R94). -/
  durable : Bool := false
  deriving DecidableEq, Repr

/-- Where a verb's key comes from: nothing, a handle, or a reserved transient slot (05 Table 5.7). -/
inductive KeySel where
  | none
  | handle (h : Nat)
  | trans (slot : Option Nat)
  deriving DecidableEq, Repr

/-- A verb's operands, read from a descriptor or given by a recipe step (02 Table 2.14; 05 R125). -/
structure Opnd where
  d : Nat
  p : Nat
  cl : Nat := 0
  fam : Nat
  op : Nat
  opt : Nat := 0
  keyA : KeySel := .none
  keyB : KeySel := .none
  /-- Where a recipe step sends the key it makes; none for the verb's own destination. -/
  keyOut : Option Nat := Option.none
  param : Nat := 0
  inp : Bytes := []
  auxLen : Nat := 0
  outCap : Nat := 0
  inl : Bytes := []
  /-- The message bytes declared, where a recipe's DIGEST step declares fewer than it feeds (05 R150). -/
  decl : Option Nat := Option.none
  recipe : Bool := false
  chk : Bool := true
  deriving DecidableEq, Repr

def Opnd.inLen (o : Opnd) : Nat := o.inp.length

/-! ### Descriptor records -/

def State.desc (s : State) (d : Nat) : Option DRec := s.disp.descs.find? fun r => r.id == d

def State.modDesc (s : State) (d : Nat) (f : DRec → DRec) : State :=
  { s with disp := { s.disp with descs := s.disp.descs.map fun r => if r.id = d then f r else r } }

/-- The completion flag i of descriptor d is raised (02 R44). -/
def State.flag (s : State) (d i : Nat) : State := s.modDesc d fun r => { r with flags := setFlag r.flags i }

/-! ### What a piece of work keeps while it waits -/

/-- The first thing not yet met again in this run that f picks, with the place behind it. -/
def DRec.ahead {α : Type} (r : DRec) (f : Did → Option α) : Option (Nat × α) :=
  (List.range (r.did.length - r.met)).findSome? fun k => ((r.did[r.met + k]?).bind f).map fun a => (r.met + k + 1, a)

/-- m, done once: work that goes on after a wait meets what it had, as f reads it. -/
def once {α : Type} (d : Nat) (f : Did → Option α) (note : α → Did) (m : V α) : V α := do
  let s ← getV
  match (s.desc d).bind fun r => r.ahead f with
  | some (k, a) => modV fun s => s.modDesc d fun r => { r with met := k }; pure a
  | none =>
    let a ← m
    modV fun s => s.modDesc d fun r => { r with did := r.did ++ [note a], met := r.did.length + 1 }
    pure a

/-- A run of descriptor d's work starts over and meets what it has had. -/
def State.rewind (s : State) (d : Nat) : State := s.modDesc d fun r => { r with met := 0 }

/-- A new piece of work of descriptor d: nothing has been had for it. -/
def State.anew (s : State) (d : Nat) : State := s.modDesc d fun r => { r with did := [], met := 0, drawn := [] }

/-- State s with what descriptor d holds in state t, where its work has to wait or to end: completion flags, transient slots,
chain record, and what it has had; random drawn stays drawn. -/
def State.keepWork (s t : State) (d : Nat) : State :=
  match t.desc d with
  | none => s
  | some r =>
    let s := s.modDesc d fun q => { q with
      flags := q.flags ||| r.flags, trans := r.trans, chain := r.chain, did := r.did, met := r.met, drawn := r.drawn }
    { s with kr := { s.kr with poolWait := t.kr.poolWait }, ent := t.ent }

/-- From here on what the work did stands: a wait within m goes on from this point (04 R94, R103). -/
def standing {α : Type} (d : Nat) (m : V α) : V α := do
  let u ← getV
  tryCatch m fun e =>
    match e with
    | .park l n => do modV fun t => u.keepWork t d; stopV (.parkKeep l n)
    | .wait g => do modV fun t => u.keepWork t d; stopV (.waitKeep g)
    | e => stopV e

/-! ### Engines and their faults (07 R195; 08 R223; 09 R241) -/

/-- Arbiter a is cluster a, or PAU a - 8. -/
def arbReset (a : Nat) : Arb := { rotP := if a < 8 then 0x07FF else 0x0FFF }

def State.arb (s : State) (a : Nat) : Arb := mget s.eng.arbs a (arbReset a)
def State.setArb (s : State) (a : Nat) (x : Arb) : State := { s with eng := { s.eng with arbs := mset s.eng.arbs a x } }

def Arb.engine (x : Arb) (e : Nat) : EngArb := mget x.eng e {}
def Arb.setEngine (x : Arb) (e : Nat) (y : EngArb) : Arb := { x with eng := mset x.eng e y }

def Arb.inputQ (x : Arb) (i e : Nat) : List Req := mget x.queue (4 * i + e) []
def Arb.setInputQ (x : Arb) (i e : Nat) (q : List Req) : Arb := { x with queue := if q = [] then mdel x.queue (4 * i + e) else mset x.queue (4 * i + e) q }

/-- Requests that pass a test are withdrawn from an engine (10 R253, R258): waiting ones and preempted ones leave their queues; an
owner's block runs to its boundary with its result discarded, and where it has not started its grant is void. -/
def Arb.withdraw (x : Arb) (e : Nat) (bad : Req → Bool) : Arb :=
  let x := (List.range 16).foldl (fun x i => x.setInputQ i e ((x.inputQ i e).filter fun q => !bad q)) x
  let y := x.engine e
  match y.owner with
  | some (_, q) => if bad q then x.setEngine e { y with owner := none, fresh := false, voided := y.voided || y.fresh } else x
  | none => x

/-- Engine of a fault key: arbiter and engine number. -/
def faultEngine (k : Nat) : Nat × Nat := if k < 32 then (k / 4, k % 4) else (8 + (k - 32), 0)

/-- A failed check on engine k is counted; the third within 1 s takes the engine out of service, and its requests are
withdrawn (10 R253). -/
def State.countFault (s : State) (k : Nat) : State :=
  let now := s.time.counter.toNat
  let l := (now :: mget s.eng.recent k []).take 3
  let s : State := { s with eng := { s.eng with faults := mset s.eng.faults k (satInc (mget s.eng.faults k 0)), recent := mset s.eng.recent k l } }
  if l.length = 3 ∧ now - l.getD 2 0 ≤ 1000000000 then
    let (a, e) := faultEngine k
    let x := (s.arb a).withdraw e fun _ => true
    s.setArb a (x.setEngine e { x.engine e with oos := true })
  else s

/-- The kinds of engine a verb computes on: 0 FCE, 2 KCE, 3 DGE, 4 PAU (04 Tables 4.4 to 4.19; 07 R183). -/
def engineKinds (fam op : Nat) : List Nat :=
  match fam with
  | 1 => [0]
  | 2 => if 4 ≤ op ∧ op ≤ 7 then [2, 0] else [2]
  | 3 => [0]
  | 4 => [2, 0]
  | 5 => [2]
  | 6 => [4]
  | 7 => [4]
  | 8 => [0]
  | 9 => if op ≤ 2 then [3] else [4]
  | _ => [4]

/-- The fault keys of the engines of a kind that cluster c has, or its half for PAUs. -/
def kindKeys (c kind : Nat) : List Nat :=
  match kind with
  | 0 => [4 * c, 4 * c + 1]
  | 4 => [32 + c / 4 * 2, 33 + c / 4 * 2]
  | k => [4 * c + k]

def State.inService (s : State) (k : Nat) : Bool := !((s.arb (faultEngine k).1).engine (faultEngine k).2).oos

/-- The engines of a kind that serve work of cluster c: its own in service, or else those of the serving clusters of its half
(07 R195; 09 R241). -/
def State.enginesFor (s : State) (c kind : Nat) : List Nat :=
  match (kindKeys c kind).filter s.inService with
  | [] => ((List.range 4).map (c / 4 * 4 + ·)).flatMap fun q =>
      if q != c && s.pwr.servingBits.getLsbD q then (kindKeys q kind).filter s.inService else []
  | own => own

/-- An engine of the kind serves somewhere that cores of cluster c reach. -/
def State.kindServes (s : State) (c kind : Nat) : Bool := !(s.enginesFor c kind).isEmpty

end Sys2Proof.Machine
end

