-- ==== Sys2Proof/Machine/Draw.lean ====
section
/-! DEFINITION. Random output: which domains are powered, the seed queue's service (11 R265, R266, R279), one
expander call (11 R269, R270) and a descriptor's draw of random (11 R272, R273). -/

namespace Sys2Proof.Machine

/-! ### Power domains by number: AON 0, SEC 1, ENT 2, CLCc 3 + c, CLEc 11 + c, PAUu 19 + u, VC 23 and 24, PCIE 25, WLp 26 + p -/

/-- A domain at reset: ON for AON, SEC, ENT, VC0, VC1 and PCIE (15 Table 15.5). -/
def domainReset (d : Nat) : Domain := { on := decide (d ≤ 2 ∨ 23 ≤ d ∧ d ≤ 25) }

/-- A domain that works: on, and isolated no longer (15 R369). -/
def Domain.up (x : Domain) : Bool := x.on && !x.iso

def State.domain (s : State) (d : Nat) : Domain := mget s.pwr.domains d (domainReset d)

def State.setDomain (s : State) (d : Nat) (x : Domain) : State :=
  { s with pwr := { s.pwr with domains := mset s.pwr.domains d x } }

/-- The clusters whose CLE domain is powered. -/
def State.poweredCle (s : State) : List Nat :=
  (List.range 8).filter fun c => (s.domain (11 + c)).up

/-! ### Seed queue -/

/-- Words in the seed queue. -/
def Entropy.words (e : Entropy) : Nat := e.queue.length

/-- The key register has its mask key and integrity key (03 R61). -/
def KeyReg.keyed (k : KeyReg) : Bool := k.keys.isSome

def State.expander (s : State) (c : Nat) : Expander := mget s.ent.exps c {}

def State.setExpander (s : State) (c : Nat) (x : Expander) : State :=
  { s with ent := { s.ent with exps := mset s.ent.exps c x } }

/-- Who may take words of the seed queue (11 Table 11.2). -/
inductive SeedUser where
  | instantiate (c : Nat) | keyRegister | leave (c : Nat) | late (c : Nat) | early (c : Nat)
  deriving DecidableEq, Repr

def SeedUser.words : SeedUser → Nat
  | .instantiate _ => 3
  | .keyRegister => 4
  | _ => 2

/-- The first cluster of cs after place rr, in ascending order and round (11 R266). -/
def nextRound (rr : Nat) (cs : List Nat) : Option Nat :=
  match cs.filter (rr < ·) with
  | c :: _ => some c
  | [] => cs.head?

/-- The first waiting consumer in the order of 11 R266; after LEAVE the expanders come ahead of the reseeds. -/
def State.seedFirst (s : State) : Option SeedUser :=
  let up := s.poweredCle
  match up.filter (fun c => !(s.expander c).inst) with
  | c :: _ => some (.instantiate c)
  | [] =>
    if !s.kr.keyed && s.kr.bus != .halted && !up.isEmpty then some .keyRegister
    else
      match s.ent.leaveReseed.filter (up.contains ·) with
      | c :: _ => some (.leave c)
      | [] =>
        match nextRound s.ent.rr3 (up.filter fun c => decide (2 ^ 16 ≤ (s.expander c).calls)) with
        | some c => some (.late c)
        | none =>
          match nextRound s.ent.rr4 (up.filter fun c => decide (61440 ≤ (s.expander c).calls)) with
          | some c => some (.early c)
          | none => none

/-- The personalisation string of cluster c's expander (11 R269). -/
def State.drbgName (s : State) (c : Nat) : Bytes :=
  toBE 8 Config.serial.toNat ++ [BitVec.ofNat 8 c, BitVec.ofNat 8 s.life.straps.toNat] ++ zeros 6

/-- One generate call of an expander: 16 bytes. -/
def Expander.call (x : Expander) : Expander × Bytes :=
  let (g, b) := x.drbg.generate
  ({ x with drbg := g, calls := x.calls + 1 }, b)

/-- n pairs of calls, 32 bytes each. -/
def Expander.pairs (x : Expander) : Nat → Expander × List Bytes
  | 0 => (x, [])
  | n + 1 =>
    let (x, a) := x.call
    let (x, b) := x.call
    let (x, l) := Expander.pairs x n
    (x, (a ++ b) :: l)

/-- A reseed of cluster c's expander with two words (11 R269): the call counter starts again. -/
def State.reseed (s : State) (c : Nat) (entropy : Bytes) : State :=
  let x := s.expander c
  s.setExpander c { x with drbg := x.drbg.reseed entropy, calls := 0, stretched := false, seedWait := false, barred := false, reseeds := satInc x.reseeds }

/-- Cluster c's expander holds its seed (11 R269), and makes the first seeds of the KCE mask generator, the DGE context key and the
page mask keys of the four engines, two internal calls each (07 R186, R207; 08 R222; 11 Table 11.5; the order is DEDUCED,
notes/assumptions/11.md). -/
def State.instantiate (s : State) (c : Nat) (ws : List Bytes) : State :=
  let x := s.expander c
  let x := { x with drbg := Drbg.instantiate (ws.take 2).flatten (ws.drop 2).flatten (s.drbgName c), inst := true, calls := 0,
                    stretched := false, seedWait := false, barred := false }
  let (x, l) := x.pairs 6
  let s := s.setExpander c x
  { s with eng := { s.eng with
      seeded := mset s.eng.seeded c true,
      kceMask := mset s.eng.kceMask c (l.getD 0 [], 0),
      ctxKey := mset s.eng.ctxKey c (l.getD 1 []),
      pageMask := (List.range 4).foldl (fun m e => mset m (4 * c + e) (l.getD (2 + e) [])) s.eng.pageMask } }

/-- One consumer served: each word goes to it alone (11 R265). -/
def State.seedServeOne (s : State) (u : SeedUser) : State :=
  let ws := s.ent.queue.take u.words
  let s := { s with ent := { s.ent with queue := s.ent.queue.drop u.words } }
  match u with
  | .instantiate c => s.instantiate c ws
  | .keyRegister => { s with kr := { s.kr with keys := some ((ws.take 2).flatten, (ws.drop 2).flatten) } }
  | .leave c => { s with ent := { s.ent with leaveReseed := s.ent.leaveReseed.erase c } }.reseed c ws.flatten
  | .late c => { s with ent := { s.ent with rr3 := c } }.reseed c ws.flatten
  | .early c => { s with ent := { s.ent with rr4 := c } }.reseed c ws.flatten

/-- Strict service: only the first waiting consumer, and only when all its words are there (11 R266). -/
def State.seedServe : Nat → State → State
  | 0, s => s
  | f + 1, s =>
    match s.seedFirst with
    | none => s
    | some u => if u.words ≤ s.ent.words then (s.seedServeOne u).seedServe f else s

/-- Cluster c's expander serves a call now (11 R270, Table 11.4). -/
def State.expanderServes (s : State) (c : Nat) : Bool :=
  let x := s.expander c
  x.inst && !x.barred && !s.ent.fail && !s.ent.rawActive && s.ent.st == .running
    && (decide (x.calls < 2 ^ 16) || (decide (s.poweredCle.length = 8) && decide (x.calls < 2 ^ 20)))

/-- The expander after a served call, and its 16 bytes: a call past 2^16 is stretched. -/
def Expander.served (x : Expander) : Expander × Bytes :=
  let past := decide (2 ^ 16 ≤ x.calls)
  let (y, b) := x.call
  ({ y with stretched := past || x.stretched, stretches := if past && !x.stretched then satInc x.stretches else x.stretches }, b)

/-- The cluster whose expander serves the Warden (11 Table 11.5). -/
def State.wardenCluster (s : State) : Nat := s.poweredCle.headD 0

/-- A draw of the Warden's own in k calls, or none where its expander does not serve them. -/
def State.wardenCalls : Nat → State → Option (State × Bytes)
  | 0, s => some (s, [])
  | k + 1, s =>
    let c := s.wardenCluster
    if s.expanderServes c then
      let (x, b) := (s.expander c).served
      (State.wardenCalls k (s.setExpander c x)).map fun r => (r.1, b ++ r.2)
    else none

/-- A new DEV_NONCE (16 Table 16.3); none until random is there. -/
def State.newNonce (s : State) : State :=
  match s.wardenCalls 2 with
  | some (t, b) => { t with life := { t.life with devNonce := b } }
  | none => { s with life := { s.life with devNonce := [] } }

/-- The first DEV_NONCE after a reset comes with ENT_READY. -/
def State.freshNonce (s : State) : State := if s.life.devNonce.isEmpty then s.newNonce else s

/-- ENT_READY becomes 1 once every powered expander is instantiated (after LEAVE: reseeded) and the key
register has its keys (11 R267, R279). -/
def State.entReadyCheck (s : State) : State :=
  if s.ent.ready || s.ent.fail || s.ent.starting || s.ent.rawActive || s.ent.st != .running then s
  else if s.poweredCle.all (fun c => (s.expander c).inst && !s.ent.leaveReseed.contains c) && s.kr.keyed then
    { s with ent := { s.ent with ready := true } }.freshNonce.raiseAll evEntReady
  else s

/-- The queue's service after words came or a consumer began to wait; 64 words serve at most 32 consumers. -/
def State.seedQueue (s : State) : State :=
  if s.ent.st = .running then
    let s := (s.seedServe 32).entReadyCheck
    if s.ent.ready then s.freshNonce else s
  else s

/-! ### Expander calls -/

/-- One call (11 R269, R270): served and counted, with the queue asked for a reseed from 61,440 calls on, and its 16 bytes; or
none: it waits for a seed. -/
def State.expanderCall (s : State) (c : Nat) : State × Option Bytes :=
  let x := s.expander c
  if s.expanderServes c then
    let (y, b) := x.served
    ((s.setExpander c y).seedQueue, some b)
  else if x.inst && !x.seedWait then
    ((s.setExpander c { x with seedWait := true, dryWaits := satInc x.dryWaits }).seedQueue, none)
  else (s, none)

/-! ### Blocks that engines run -/

def sentinelKey (c f : Nat) : Nat := 2 * c + f

def State.sentinel (s : State) (c f : Nat) : Sentinel := mget s.eng.sentinels (sentinelKey c f) {}

def State.setSentinel (s : State) (c f : Nat) (x : Sentinel) : State :=
  { s with eng := { s.eng with sentinels := mset s.eng.sentinels (sentinelKey c f) x } }

/-- OPS of both FCEs together. -/
def State.ops (s : State) (c : Nat) : Nat := (s.sentinel c 0).ops.toNat + (s.sentinel c 1).ops.toNat

def Sentinel.misses (x : Sentinel) : Nat := x.missFwd.toNat + x.missInv.toNat

def State.misses (s : State) (c : Nat) : Nat := (s.sentinel c 0).misses + (s.sentinel c 1).misses

def satAdd (v : Word32) (n : Nat) : Word32 := BitVec.ofNat 32 (min (2 ^ 32 - 1) (v.toNat + n))

/-- n blocks through one FCE; how many of them miss in each pipeline is a free value (notes/assumptions/26.md). -/
def Sentinel.run (x : Sentinel) (k n : Nat) : Sentinel :=
  if !x.en then { x with ops := x.ops + BitVec.ofNat 64 n }
  else { x with ops := x.ops + BitVec.ofNat 64 n,
                missFwd := satAdd x.missFwd (Config.freeNat 10 (2 * k) % (n + 1)),
                missInv := satAdd x.missInv (Config.freeNat 10 (2 * k + 1) % (n + 1)) }

/-- A mask generator's seed from cluster c's expander: two internal calls (11 Table 11.5). -/
def State.maskSeed (s : State) (c : Nat) : State × Option Bytes :=
  match s.expanderCall c with
  | (t, some a) =>
    match t.expanderCall c with
    | (t, some b) => (t, some (a ++ b))
    | r => r
  | r => r

/-- The cluster whose expander seeds PAU u's mask generator: the lowest-numbered powered one of its half. -/
def State.pauCluster (s : State) (u : Nat) : Option Nat := s.poweredCle.find? fun c => c / 4 == u / 2

/-- PAU u's mask generator takes a seed, where it can (09 R236; 07 R186). -/
def State.pauSeed (s : State) (u : Nat) : State :=
  match s.pauCluster u with
  | none => s
  | some c =>
    match s.maskSeed c with
    | (t, some b) => { t with eng := { t.eng with pauMask := mset t.eng.pauMask u (b, 0) } }
    | (t, none) => t

/-- Powered PAUs whose mask generators hold no seed take their first. -/
def State.pauSeeds (s : State) : State :=
  (List.range 4).foldl (fun (s : State) u => if (s.domain (19 + u)).up && !mhas s.eng.pauMask u then s.pauSeed u else s) s

/-- PAU u's mask generator after n more blocks: a new seed every 4,096, asked for again at later blocks while there is none. -/
def State.pauBlocks (s : State) (u n : Nat) : State :=
  let (seed, k) := mget s.eng.pauMask u ([], 4096)
  let s : State := { s with eng := { s.eng with pauMask := mset s.eng.pauMask u (seed, min 4096 (k + n)) } }
  if k + n < 4096 then s else s.pauSeed u

/-- The seed of cluster c's KCE mask generator after n more blocks (07 R186): a new one every 4,096 blocks, from two internal calls
of its expander; where the expander cannot supply it, the generator keeps its seed and asks again at every later block. -/
def State.kceBlocks (s : State) (c n : Nat) : State :=
  let (seed, k) := mget s.eng.kceMask c ([], 0)
  let set := fun (s : State) v => { s with eng := { s.eng with kceMask := mset s.eng.kceMask c v } }
  if k + n < 4096 then set s (seed, k + n)
  else
    match s.maskSeed c with
    | (t, some b) => set t (b, 0)
    | (t, none) => set t (seed, 4096)

/-- Blocks that an FCE ran are counted by its sentinel (07 R206), those of a KCE by its mask generator. -/
def State.countBlocks (s : State) (c e n : Nat) : State :=
  if e < 2 then s.setSentinel c e ((s.sentinel c e).run (2 * s.ops c + e) n) else if e = 2 then s.kceBlocks c n else s

/-- The blocks of a verb's work, on one engine of each kind: how many they are and which of the engines that serve runs them are
free values (notes/assumptions/89.md). -/
def State.ranBlocks (s : State) (o : Opnd) (kinds : List Nat) : State :=
  kinds.foldl (fun s kind =>
    let ks := s.enginesFor o.cl kind
    let k := ks.getD (Config.freeNat 13 (o.d * 8 + kind) % ks.length) 0
    if kind = 0 ∨ kind = 2 then s.countBlocks (k / 4) (k % 4) (Config.freeNat 14 (o.d * 8 + kind) % if kind = 0 then 2 ^ 32 else 4096) else s) s

/-- A verb's use of engines of some kinds: it completes ENGINE_FAULT where none of a kind serves, or where a release check fails
(01 R21; 07 R195). Which engine failed is a free choice among those that serve it, and so is how much of the output out it
was streaming had left by then (notes/assumptions/25.md). -/
def engineOf (o : Opnd) (kinds : List Nat) (out : Bytes) : V Unit := do
  let s ← getV
  need (kinds.all (s.kindServes o.cl)) stEngine
  modV fun s => s.ranBlocks o kinds
  if o.chk then pure ()
  else
    let ks := kinds.flatMap (s.enginesFor o.cl)
    modV fun s => s.countFault (ks.getD (Config.freeNat 8 o.d % ks.length) (4 * o.cl))
    stopV (.fail stEngine (out.take (Config.freeNat 12 o.d % (out.length + 1))))

def engine (o : Opnd) (out : Bytes := []) : V Unit := engineOf o (engineKinds o.fam o.op) out

/-! ### Draws -/

/-- So many more calls of cluster c's expander for descriptor d, which has had b: those served before one that waits are kept. -/
def callsV (d c : Nat) : Nat → Bytes → V Bytes
  | 0, b => pure b
  | k + 1, b => do
    let s ← getV
    let past := decide (2 ^ 16 ≤ (s.expander c).calls)
    match s.expanderCall c with
    | (t, some x) => do
      modV fun _ => (if past then t.flag d cfStretched else t).modDesc d fun r => { r with drawn := b ++ x }
      callsV d c k (b ++ x)
    | (_, none) => stopV (.wait .waitRandom)

/-- A draw of n random bytes in k calls of the descriptor's cluster's expander (11 R271, R273, R274, R277). -/
def drawV (o : Opnd) (n k : Nat) : V Bytes := do
  let s ← getV
  if s.ent.fail then failV stEntFailed
  else if s.ent.rawActive then failV stEntNotReady
  else if !s.ent.ready then stopV (.wait .waitRandom)
  else
    let had := ((s.desc o.d).map (·.drawn)).getD []
    let b ← callsV o.d o.cl (k - had.length / 16) had
    modV fun s => s.modDesc o.d fun r => { r with drawn := [] }
    pure (b.take n)

/-- A descriptor's draw, which a wait behind it does not take back. -/
def randomCalls (o : Opnd) (n k : Nat) : V Bytes :=
  once o.d (fun | .drew b => some b | _ => none) .drew (drawV o n k)

/-- The same, 16 bytes a call (11 Table 11.5). -/
def random (o : Opnd) (n : Nat) : V Bytes := randomCalls o n ((n + 15) / 16)

end Sys2Proof.Machine
end

