-- ==== Sys2Proof/Machine/Keys.lean ====
section
/-! DEFINITION. The key register's operations (03): slot images, windows and transient slots, the checks of a
probe and of a fetch in the order of Table 3.5, the ancestor chain, writes and their links, invalidation. -/

namespace Sys2Proof.Machine

def State.slot (s : State) (i : Nat) : Slot := mget s.kr.slots i {}

def State.setSlot (s : State) (i : Nat) (x : Slot) : State := { s with kr := { s.kr with slots := mset s.kr.slots i x } }

def State.anchor (s : State) (p : Nat) : Word16 := mget s.kr.anchors p 0

/-- Key bytes by ALG (03 Table 3.3). -/
def algLen (a : Nat) : Nat :=
  if a = 1 ∨ a = 4 then 16 else if a = 2 ∨ a = 5 then 24 else if a = 3 ∨ 6 ≤ a ∧ a ≤ 12 then 32 else 0

/-- Block size by ALG: AES 16, TDES 8. -/
def algBlock (a : Nat) : Nat := if a ≤ 3 then 16 else 8

/-- The classes an ALG can hold (03 Table 3.3). -/
def classPermitted (alg cls : Nat) : Bool :=
  if 1 ≤ alg ∧ alg ≤ 5 then decide (cls ≤ 1) else if alg = 6 then cls == 1 else decide (8 ≤ alg ∧ alg ≤ 12) && cls == 2

/-- The attributes at +0x28 and +0x30 and the image's bytes 0x00 to 0x37 (03 Table 3.1). -/
def Slot.attr28 (x : Slot) : Nat :=
  x.gen.toNat + at' x.parentSlot.toNat 16 + at' x.parentGen.toNat 32 + at' x.part.toNat 48 + at' x.cls.toNat 53
    + at' x.alg.toNat 55 + at' x.depth.toNat 60 + at' (b2n x.persist) 63

def Slot.attr30 (x : Slot) : Nat := x.usage.toNat + at' x.vStart.toNat 16 + at' x.vEnd.toNat 40

/-- Bytes 0x00 to 0x37 with w in the NONCE_CTR word. -/
def Slot.image (x : Slot) (w : Nat) : Bytes := fit 32 x.key ++ toLE 8 w ++ toLE 8 x.attr28 ++ toLE 8 x.attr30

/-- A slot read back from those bytes. -/
def Slot.ofImage (b : Bytes) : Slot :=
  let w := leAt b 0x28 8
  let u := leAt b 0x30 8
  let alg := bits w 55 5
  { key := b.take (algLen alg), nonce := BitVec.ofNat 64 (leAt b 0x20 8), gen := BitVec.ofNat 16 w,
    parentSlot := BitVec.ofNat 16 (bits w 16 16), parentGen := BitVec.ofNat 16 (bits w 32 16),
    part := BitVec.ofNat 5 (bits w 48 5), cls := BitVec.ofNat 2 (bits w 53 2), alg := BitVec.ofNat 5 alg,
    depth := BitVec.ofNat 3 (bits w 60 3), persist := bit w 63, usage := BitVec.ofNat 16 u,
    vStart := BitVec.ofNat 24 (bits u 16 24), vEnd := BitVec.ofNat 24 (bits u 40 24) }

/-! ### Masked storage (03 R61, R62, R64) -/

/-- ICODE of an image at an absolute index. -/
def icodeOf (intKey image : Bytes) (i : Nat) : Nat := leNat (Config.take 8 (Config.icode intKey image i))

/-- The 64 bytes of slot i as its SRAM holds them under the two keys: each word XORed with its keystream word. -/
def State.storedSlot (s : State) (i : Nat) : Option Bytes :=
  s.kr.keys.map fun k =>
    let x := s.slot i
    let image := x.image x.nonce.toNat
    xorBytes (image ++ toLE 8 (icodeOf k.2 image i ^^^ x.flaw.toNat))
      ((List.range 8).flatMap fun w => Config.take 8 (Config.maskWord k.1 i w))

/-! ### Windows and transient slots (03 R65, R68) -/

/-- Absolute indexes of partition p's transient pool. -/
def State.pool (s : State) (p : Nat) : List Nat :=
  let x := s.part p
  (List.range (x.size - x.persist)).map fun i => x.base + x.persist + i

/-- Transient slots some descriptor has reserved. -/
def State.reserved (s : State) : List Nat := s.disp.descs.flatMap (·.trans)

def State.freePool (s : State) (p : Nat) : List Nat :=
  let r := s.reserved
  (s.pool p).filter fun i => !r.contains i

/-- Release: the key field is zeroed and OWN_GEN advances by one, modulo 2^16 (03 R68). -/
def State.releaseSlot (s : State) (i : Nat) : State := s.setSlot i { gen := (s.slot i).gen + 1 }

/-- Every transient slot of descriptor d is released. -/
def State.releaseTrans (s : State) (d : Nat) : State :=
  match s.desc d with
  | none => s
  | some r => (r.trans.foldl State.releaseSlot s).modDesc d fun r => { r with trans := [] }

/-- The level of a park that waits for the partition records of the rebuild (02 R56 step 7; 03 R85). -/
def parkParts : Nat := 7

/-- Whether the lifecycle lets the rebuild run (16 R382, R394). -/
def State.mayRebuild (s : State) : Bool :=
  match s.life.st with
  | .operational => true
  | .owned => true
  | .development => s.life.ownerKey.isSome
  | _ => false

/-- Whether there is a vault whose partition records are still to be read: in Development before enrolment only where the device
holds a storage key. -/
def State.recordsToCome (s : State) : Bool :=
  match s.life.st with
  | .operational => true
  | .owned => true
  | .emptied => true
  | .development => s.life.ownerKey.isSome || s.tam.storageKey.isSome
  | _ => false

/-- What a partition holds is known once its record has been read; until then the work waits, where there is a record to read
at all. -/
def partsKnown : V Unit := do
  let s ← getV
  if s.kr.partsLoaded || !s.recordsToCome then pure ()
  else if s.vault.pgFault then failV stPageTimeout else stopV (.park parkParts 0)

/-- Descriptor d holds k transient slots from now on, or has to wait behind those that wait already (03 R68).
A reservation larger than the whole pool completes ACCESS_FAULT. -/
def reserve (o : Opnd) (k : Nat) : V (List Nat) := do
  partsKnown
  let s ← getV
  match s.desc o.d with
  | none => pure []
  | some r =>
    if k ≤ r.trans.length then pure r.trans
    else if (s.pool o.p).length < k then failV stAccess
    else
      let free := s.freePool o.p
      let ahead := (s.kr.poolWait.takeWhile (· != o.d)).any fun e => (s.desc e).any fun q => decide (q.fn = o.p)
      if k - r.trans.length ≤ free.length ∧ !ahead then
        let got := r.trans ++ free.take (k - r.trans.length)
        modV fun s => { s with kr := { s.kr with poolWait := s.kr.poolWait.erase o.d } }
        modV fun s => s.modDesc o.d fun q => { q with trans := got }
        pure got
      else stopV (.wait (.waitSlots k))

/-! ### Fetch checks (03 Table 3.5) -/

/-- What a request for a key carries (03 R70, R88): class set, family (0 for the Warden), mode bits, ALG set. -/
structure KeyReq where
  cls : List Nat
  fam : Nat
  mode : Nat
  algs : List Nat
  deriving DecidableEq, Repr

/-- Step 1 without ICODE: a CLASS or ALG that is never written, or a combination that is not permitted (03 R63, Table 3.2). -/
def Slot.formOk (x : Slot) : Bool := if x.alg = 0 then x.cls != 3 else classPermitted x.alg.toNat x.cls.toNat

/-- The validity window (03 R72). -/
def State.windowOk (s : State) (x : Slot) : Bool :=
  if x.vStart = 0 ∧ x.vEnd = BitVec.allOnes 24 then true
  else
    let t := s.time.counter.toNat
    s.time.valid && decide (t < 2 ^ 62) && decide (x.vStart.toNat ≤ bits t 38 24 ∧ bits t 38 24 ≤ x.vEnd.toNat)

/-- The ancestor stages (03 R76): the slots read on the way to the anchor, or none at a mismatch. -/
def State.walk (s : State) : Nat → Slot → Option (List Nat)
  | 0, _ => none
  | f + 1, x =>
    if x.depth = 1 then
      if s.anchor (x.parentSlot.toNat % 32) = x.parentGen then some [] else none
    else
      let q := s.slot x.parentSlot.toNat
      if q.gen = x.parentGen then (s.walk f q).map (x.parentSlot.toNat :: ·) else none

/-- Step 5: class, family bit, mode bits (03 R70) and ALG set (04 R88). -/
def KeyReq.usageOk (q : KeyReq) (x : Slot) : Bool :=
  q.cls.contains x.cls.toNat && (q.fam = 0 || x.usage.getLsbD (q.fam - 1))
    && x.usage.toNat &&& q.mode == q.mode && q.algs.contains x.alg.toNat

/-- Steps 1 to 4: integrity, generation (for a handle), emptiness, partition. -/
def checkHead (x : Slot) (p : Nat) (gen : Option Nat) : Option Word16 :=
  if x.flaw ≠ 0 || !x.formOk then some stCorrupt
  else if gen.any (· != x.gen.toNat % 256) then some stStale
  else if x.alg = 0 then some stEmpty
  else if x.part.toNat ≠ p then some stCorrupt
  else none

/-- Steps 5 and 6. -/
def State.checkUse (s : State) (x : Slot) (q : KeyReq) : Option Word16 :=
  if !q.usageOk x then some stUsage else if !s.windowOk x then some stExpired else none

/-- The status that decides a probe of steps 1 to 6, or none when it passes. -/
def State.probeStatus (s : State) (x : Slot) (p : Nat) (gen : Option Nat) (q : KeyReq) : Option Word16 :=
  (checkHead x p gen).or (s.checkUse x q)

/-- All seven steps: the status of the first that fails, or the slots of the chain. A transient slot's path was checked as
its key was derived, and it stays usable (03 R82; 05 R131). -/
def State.fetchStatus (s : State) (x : Slot) (p : Nat) (gen : Option Nat) (q : KeyReq) : Except Word16 (List Nat) :=
  match s.probeStatus x p gen q with
  | some st => .error st
  | none =>
    if !x.persist then .ok []
    else
      match s.walk 4 x with
      | none => .error stStale
      | some c => .ok c

/-- A corrupt slot is counted for its partition (03 R64). -/
def State.countCorrupt (s : State) (p : Nat) : State :=
  { s with kr := { s.kr with corrupt := mset s.kr.corrupt p (satInc (mget s.kr.corrupt p 0)) } }

/-! ### Writes (03 R75) -/

/-- What a write declares: ALG, class, usage and window. -/
structure KeyDecl where
  alg : Nat
  cls : Nat
  usage : Nat
  vStart : Nat := 0
  vEnd : Nat := 0xFFFFFF
  deriving DecidableEq, Repr

/-- The window that stands for every time stays as it is; any other intersects (03 R75). -/
def intersectWindow (a b : Nat × Nat) : Option (Nat × Nat) :=
  let w := (max a.1 b.1, min a.2 b.2)
  if w.1 ≤ w.2 then some w else none

/-- What a result of source src (index and image) is linked to: its slot or partition, its generation and its depth. A
transient source passes its own link parent on, and a transient result goes to a parent of DEPTH 3 or less (03 R75). -/
def linkParent (src : Nat × Slot) (persist : Bool) : Word16 × Word16 × Nat :=
  let x := src.2
  if x.persist && (persist || decide (x.depth.toNat ≤ 3)) then (BitVec.ofNat 16 src.1, x.gen, x.depth.toNat)
  else (x.parentSlot, x.parentGen, x.depth.toNat - 1)

/-- The slot a derivation or unwrap writes, or the status that refuses the write (03 R75). -/
def linkedSlot (src : Nat × Slot) (d : KeyDecl) (persist : Bool) (p : Nat) (key : Bytes) (gen : Word16) :
    Except Word16 Slot :=
  let (pi, pg, dep) := linkParent src persist
  let usage := if src.2.usage.getLsbD 15 then d.usage else d.usage % 2 ^ 15
  if persist ∧ 4 ≤ dep then .error stUsage
  else if !classPermitted d.alg d.cls then .error stUsage
  else
    match intersectWindow (d.vStart, d.vEnd) (src.2.vStart.toNat, src.2.vEnd.toNat) with
    | none => .error stExpired
    | some w =>
      .ok { key := fit (algLen d.alg) key, gen := gen, parentSlot := pi, parentGen := pg, part := BitVec.ofNat 5 p,
            cls := BitVec.ofNat 2 d.cls, alg := BitVec.ofNat 5 d.alg, depth := BitVec.ofNat 3 (dep + 1), persist := persist,
            usage := BitVec.ofNat 16 usage, vStart := BitVec.ofNat 24 w.1, vEnd := BitVec.ofNat 24 w.2 }

/-- A clear write by the Warden: DEPTH 1 under the partition's anchor (03 R75). -/
def State.clearLinked (s : State) (d : KeyDecl) (p : Nat) (key : Bytes) (gen : Word16) (w : Word64) : Slot :=
  { key := fit (algLen d.alg) key, nonce := w, gen := gen, parentSlot := BitVec.ofNat 16 p, parentGen := s.anchor p,
    part := BitVec.ofNat 5 p, cls := BitVec.ofNat 2 d.cls, alg := BitVec.ofNat 5 d.alg, depth := 1, persist := true,
    usage := BitVec.ofNat 16 d.usage, vStart := BitVec.ofNat 24 d.vStart, vEnd := BitVec.ofNat 24 d.vEnd }

/-! ### Invalidation (03 R80, R82) -/

/-- A persistent slot whose OWN_GEN has reached 0xFFFF and that is empty is worn (03 R80). -/
def Slot.worn (x : Slot) : Bool := x.alg == 0 && x.gen == 0xFFFF

/-- A key register holds a key. -/
def KeyReg1.filled : KeyReg1 → Bool
  | .held .. => true
  | _ => false

/-- The commit of an invalidation marks every descriptor whose chain record holds the slot, and the pages and contexts
that hold its keys (03 R82; 07 Table 7.3). -/
def State.markRevoked (s : State) (i : Nat) : State :=
  let hit : List Nat := (s.disp.descs.filter fun r => r.chain.contains i).map fun r => r.id + 1
  { s with
    disp := { s.disp with
      descs := s.disp.descs.map fun r => if r.chain.contains i then { r with flags := setFlag r.flags cfRevoked } else r }
    eng := { s.eng with
      pages := s.eng.pages.map (fun (c : Nat × CPage) =>
        if hit.contains c.2.desc && (c.2.ka.filled || c.2.kb.filled) then (c.1, { c.2 with revoked := true }) else c)
      dpages := s.eng.dpages.map (fun (c : Nat × DPage) =>
        if hit.contains c.2.desc && c.2.ka.filled then (c.1, { c.2 with revoked := true }) else c)
      ctxs := s.eng.ctxs.map (fun (c : Nat × Ctx) =>
        if hit.contains c.2.desc && c.2.ka.filled then (c.1, { c.2 with revoked := true }) else c) } }

/-- Slot i is invalidated: an empty image with the next generation (03 R80); the generation stops at 0xFFFF. -/
def State.invalidate (s : State) (i : Nat) : State :=
  let x := s.slot i
  (s.setSlot i { gen := if x.gen = 0xFFFF then x.gen else x.gen + 1 }).markRevoked i

/-- The slots of partition p's persistent region whose chain reaches slot i (03 R81). -/
def State.reaches (s : State) (i : Nat) : Nat → Slot → Bool
  | 0, _ => false
  | f + 1, x =>
    x.alg != 0 && x.depth != 1 && (x.parentSlot.toNat == i || s.reaches i f (s.slot x.parentSlot.toNat))

def State.descendants (s : State) (p i : Nat) : List Nat :=
  let x := s.part p
  ((List.range x.persist).map (x.base + ·)).filter fun j => j != i && s.reaches i 4 (s.slot j)

/-- Slots read by a passed fetch enter the descriptor's chain record (03 R82). -/
def State.chainAdd (s : State) (d : Nat) (is : List Nat) : State :=
  s.modDesc d fun r => { r with chain := (is ++ r.chain).eraseDups }

end Sys2Proof.Machine
end

