-- ==== Sys2Proof/Machine/Store.lean ====
section
/-! DEFINITION. The vault as the verbs see it (06): which object is resident or has to be read first, records,
allocation and the free chains, the index, slot records and nonce reserves. -/

namespace Sys2Proof.Machine

/-! ### Residency (06 R163, R166) -/

def nodeKey (lvl idx : Nat) : Nat := lvl * 2 ^ 24 + idx

def State.resident (s : State) (lvl num : Nat) : Bool :=
  if lvl = 0 then mhas s.vault.pages num else mhas s.vault.nodes (nodeKey lvl num)

/-- The version entry of an object where it is known; 0 is "never written" (06 R164). -/
def State.entryOf (s : State) : Nat → Nat → Nat → Option Word64
  | 0, _, _ => some s.vault.rootEntry
  | f + 1, lvl, num =>
    if 5 ≤ lvl then some s.vault.rootEntry
    else if s.resident (lvl + 1) (num / 64) then
      some (mget (mget s.vault.nodes (nodeKey (lvl + 1) (num / 64)) []) (num % 64) 0)
    else
      match s.entryOf f (lvl + 1) (num / 64) with
      | some 0 => some 0
      | _ => none

/-- The object that has to be read before lvl, num can be used; none when it is resident or was never written. -/
def State.missing (s : State) : Nat → Nat → Nat → Option (Nat × Nat)
  | 0, _, _ => none
  | f + 1, lvl, num =>
    if s.resident lvl num then none
    else
      match s.entryOf 6 lvl num with
      | some 0 => none
      | some _ => some (lvl, num)
      | none => s.missing f (lvl + 1) (num / 64)

/-- A page that was never written: every record free (06 R155, R157, Table 6.4). -/
def pageReset (n : Nat) : VPage := { kind := if 33 ≤ n ∧ n < 2148 then 3 else 2 }

def State.page (s : State) (n : Nat) : VPage := mget s.vault.pages n (pageReset n)

def State.setPage (s : State) (n : Nat) (x : VPage) : State :=
  { s with vault := { s.vault with pages := mset s.vault.pages n x } }

def VPage.rc (x : VPage) (i : Nat) : Bytes := mget x.recs i (zeros 128)

def VPage.recType (x : VPage) (i : Nat) : Nat := (byteAt (x.rc i) 0).toNat

/-- The lowest free record. -/
def VPage.freeRec (x : VPage) : Option Nat := (List.range 31).find? fun i => x.recType i == 0

/-- The keys of the page ciphers: 0 K_VP, 1 K_VN, 2 + p K_IX of partition p, each 32 bytes of SHAKE256 over the storage key and a fixed
label (06 R155). -/
def State.vaultKey (s : State) (k : Nat) : Bytes :=
  Config.take 32 (Config.shake256 (s.tam.storageKey.getD [] ++ Config.label (16 + k)))

/-! ### The cache's frames and cells (06 R167, R168) -/

/-- The half that caches an object: VC(n mod 2), the level 5 node VC0. -/
def halfOfObj (lvl num : Nat) : Nat := if lvl = 5 then 0 else num % 2

/-- A resident object has just been used. -/
def State.touch (s : State) (lvl num : Nat) : State :=
  if s.resident lvl num then
    { s with vault := { s.vault with uses := (lvl, num) :: s.vault.uses.erase (lvl, num) } }
  else s

/-- The page of slot i's slot record (06 R157). -/
def slotPage (i : Nat) : Nat := 33 + i / 31

def State.dirtyPages (s : State) : List Nat := (s.vault.pages.filter fun c => c.2.dirty).map (·.1)

/-- Pages that stay resident: dirty, or in the commit in flight. -/
def State.keptPages (s : State) : List Nat :=
  s.dirtyPages ++ ((s.vault.commit.map (·.objs)).getD []).filterMap fun o => if o.1 = 0 then some o.2.1 else none

/-- Level 1 and level 2 nodes above a set of pages. -/
def nodesAbove (ps : List Nat) : List (Nat × Nat) := (ps.map (fun n => (1, n / 64)) ++ ps.map fun n => (2, n / 4096)).eraseDups

/-- Page n holds the sealed record of a key in a PAU context (09 R237). -/
def State.sealedHeld (s : State) (n : Nat) : Bool :=
  s.eng.ctxs.any fun c => match c.2.ka with
    | .held x _ _ _ => (x.alg == 0x0B || x.alg == 0x0C) && bits x.nonce.toNat 5 29 == n
    | _ => false

/-- An object that may be evicted: clean, no pinned node, no page of slot records that a rebuild has still to restore
(notes/assumptions/87.md), no sealed record of an open context. -/
def State.evictable (s : State) (o : Nat × Nat) : Bool :=
  if o.1 = 0 then !s.keptPages.contains o.2 && !(s.vault.rebuilding && s.kr.toRestore.any fun i => slotPage i == o.2) && !s.sealedHeld o.2 else decide (o.1 ≤ 2) && !(nodesAbove s.keptPages).contains o

/-- Objects of a half and kind (data frames, or node cells) that are resident, by use. -/
def State.resIn (s : State) (half : Nat) (node : Bool) : List (Nat × Nat) :=
  s.vault.uses.filter fun o => (o.1 != 0) == node && halfOfObj o.1 o.2 == half

def State.evict (s : State) (o : Nat × Nat) : State :=
  let v := s.vault
  { s with vault := { v with
      pages := if o.1 = 0 then mdel v.pages o.2 else v.pages,
      nodes := if o.1 = 0 then v.nodes else mdel v.nodes (nodeKey o.1 o.2),
      uses := v.uses.erase o } }

/-- 3,584 data frames and 3,584 node cells a half: a full half gives up the least recently used it may evict. -/
def State.makeRoom (s : State) (lvl num : Nat) : State :=
  let l := s.resIn (halfOfObj lvl num) (lvl != 0)
  if l.length < 3584 then s
  else
    match (l.filter s.evictable).getLast? with
    | none => s
    | some o => s.evict o

/-- The vault object is there to use; otherwise the verb parks for it (06 R172), or ends when the paging rings have
stopped (06 R171). -/
def needObj (lvl num : Nat) : V Unit := do
  let s ← getV
  if s.vault.ready && (s.missing 6 lvl num).isNone then modV fun s => s.touch lvl num
  else if s.vault.pgFault then failV stPageTimeout
  else stopV (.park lvl num)

/-- The level of a park that waits for the running commit to make room. -/
def parkDirty : Nat := 6

/-- Page pg may become dirty: the level 2 and level 1 nodes above it are resident and stay so, and a half has at most 3,072 dirty frames
and at most 2,048 cells kept for dirty pages (R168). -/
def dirtyRoom (pg : Nat) : V Unit := do
  needObj 2 (pg / 4096)
  needObj 1 (pg / 64)
  let s ← getV
  let ds := s.dirtyPages
  if ds.contains pg then pure ()
  else
    let tight := fun (h : Nat) => decide (2048 < ((nodesAbove (pg :: ds)).filter fun o => halfOfObj o.1 o.2 == h).length)
    if 3072 ≤ (ds.filter (· % 2 == pg % 2)).length then stopV (.park parkDirty (pg % 2))
    else if tight 0 then stopV (.park parkDirty 0)
    else if tight 1 then stopV (.park parkDirty 1)
    else if s.resident 0 pg then pure () else modV fun s => s.makeRoom 0 pg

def getRec (pg i : Nat) : V Bytes := do
  needObj 0 pg
  let s ← getV
  pure ((s.page pg).rc i)

/-- A record's new bytes; its page is dirty from now on (06 R168). -/
def State.putRec (s : State) (pg i : Nat) (b : Bytes) : State :=
  let x := s.page pg
  (s.setPage pg { x with recs := mset x.recs i (fit 128 b), dirty := true }).touch 0 pg

def putRecV (pg i : Nat) (b : Bytes) : V Unit := do
  dirtyRoom pg
  modV fun s => s.putRec pg i b

/-! ### The vault descriptor and the partition records (06 Table 6.7) -/

def State.vaultField (s : State) (off len : Nat) : Nat := leAt ((s.page 0).rc 0) off len

def State.setVaultField (s : State) (off len v : Nat) : State :=
  s.putRec 0 0 (putAt ((s.page 0).rc 0) off (toLE len v))

/-- Type 0x02 from the live record, with the anchor. -/
def partBytes (x : Part) (anchor : Nat) (p : Nat) : Bytes :=
  fit 128 ([0x02, BitVec.ofNat 8 p] ++ toLE 2 anchor ++ toLE 4 (b2n x.live) ++ toLE 8 x.recordQuota ++ toLE 8 x.recordsUsed
    ++ toLE 4 x.freeNum ++ toLE 4 x.freeIdx ++ toLE 4 x.ixBase ++ toLE 4 x.ixLog2 ++ toLE 4 x.base ++ toLE 4 x.size
    ++ toLE 4 x.persist)

/-- The live partition record and its anchor read back from type 0x02. -/
def partOfBytes (x : Part) (b : Bytes) : Part :=
  { x with live := bit (leAt b 4 4) 0, recordQuota := leAt b 8 8, recordsUsed := leAt b 0x10 8, freeNum := leAt b 0x18 4,
           freeIdx := leAt b 0x1C 4, ixBase := leAt b 0x20 4, ixLog2 := leAt b 0x24 1, base := leAt b 0x28 2,
           size := leAt b 0x2C 4, persist := leAt b 0x30 4 }

/-- The partition record as it stands goes into page 1 + p. -/
def State.savePart (s : State) (p : Nat) : State := s.putRec (1 + p) 0 (partBytes (s.part p) (s.anchor p).toNat p)

/-- A partition's live record changes and is written to its page. -/
def modPart (p : Nat) (f : Part → Part) : V Unit := do
  needObj 0 (1 + p)
  dirtyRoom (1 + p)
  modV fun s => (s.setPart p (f (s.part p))).savePart p

/-! ### Allocation (06 R158, R162) -/

/-- Head of partition p's chain of numbered (0) or indexed (1) pages with a free record. -/
def Part.chainHead (x : Part) (kind : Nat) : Nat := if kind = 0 then x.freeNum else x.freeIdx

def Part.setHead (x : Part) (kind h : Nat) : Part := if kind = 0 then { x with freeNum := h } else { x with freeIdx := h }

/-- A page for the partition: the head of the device free chain, else page NEXT_PAGE. -/
def takePage (p kind : Nat) : V Nat := do
  needObj 0 0
  let s ← getV
  let h := s.vaultField 8 4
  let n := s.vaultField 4 4
  if h ≠ 0 then
    needObj 0 h
    dirtyRoom 0
    dirtyRoom h
    let s ← getV
    modV fun s => s.setVaultField 8 4 (s.page h).nextFree
    modV fun s' => s'.setPage h { s.page h with kind := kind, part := p, nextFree := 0, dirty := true }
    modV fun s => s.setVaultField 0xC 4 (s.vaultField 0xC 4 + 1)
    pure h
  else if 2 ^ 29 ≤ n then failV stAccess
  else
    needObj 0 n
    dirtyRoom 0
    dirtyRoom n
    modV fun s => s.setVaultField 4 4 (n + 1)
    modV fun s => s.setPage n { kind := kind, part := p, dirty := true }
    modV fun s => s.setVaultField 0xC 4 (s.vaultField 0xC 4 + 1)
    pure n

/-- A free record of partition p, counted against its quota (but for the moves of an index rebuild): page and index. -/
def allocRec (p kind : Nat) (extra : Bool := false) : V (Nat × Nat) := do
  needObj 0 (1 + p)
  let s ← getV
  let x := s.part p
  need (extra || x.recordsUsed + 1 ≤ x.recordQuota) stAccess
  let pg ← if x.chainHead kind ≠ 0 then (do needObj 0 (x.chainHead kind); pure (x.chainHead kind)) else takePage p kind
  let s ← getV
  match (s.page pg).freeRec with
  | none => failV stAccess
  | some i =>
    -- the record is marked by the caller; a page that has no other free record leaves its chain
    let full := ((List.range 31).filter fun j => (s.page pg).recType j == 0).length ≤ 1
    modPart p fun x =>
      let x := { x with recordsUsed := x.recordsUsed + 1 }
      if full then x.setHead kind (s.page pg).nextFree else x.setHead kind pg
    modV fun s => if full then s.setPage pg { s.page pg with nextFree := 0, dirty := true } else s
    pure (pg, i)

/-- A record is deleted: zeroed except REUSE; a page that was full goes onto its partition's chain. -/
def freeRec (p kind pg i : Nat) : V Unit := do
  needObj 0 (1 + p)
  needObj 0 pg
  let s ← getV
  let full := (s.page pg).freeRec.isNone
  putRecV pg i (if kind = 0 then zeros 4 ++ slice ((s.page pg).rc i) 4 4 else [])
  modV fun s => if full then s.setPage pg { s.page pg with nextFree := (s.part p).chainHead kind, dirty := true } else s
  modPart p fun x =>
    let x := { x with recordsUsed := x.recordsUsed - 1 }
    if full then x.setHead kind pg else x

/-! ### Record numbers (06 R158, R159) -/

def meshId (s : State) : Nat := s.life.straps.toNat

def recordNumber (s : State) (pg i reuse : Nat) : Nat := i + pg * 2 ^ 5 + reuse * 2 ^ 34 + meshId s * 2 ^ 53

/-- The record a number names, with the type the operation needs: page, index, bytes (06 R159). -/
def namedRec (p num : Nat) (type : Nat) : V (Nat × Nat × Bytes) := do
  need (bits num 56 8 = 0 ∧ bits num 0 5 ≠ 31) stBad
  let s ← getV
  if bits num 53 3 ≠ meshId s then stopV (.forward (bits num 53 3))
  else
    let pg := bits num 5 29
    let i := bits num 0 5
    needObj 0 pg
    let s ← getV
    let x := s.page pg
    need (x.kind = 0 ∧ x.part = p ∧ x.recType i ≠ 0 ∧ leAt (x.rc i) 4 4 = bits num 34 19) stMissing
    need (x.recType i = type) stAccess
    pure (pg, i, x.rc i)

/-- A new numbered record of the type with the given fields from byte 8 on: its number. -/
def newNumbered (p type : Nat) (body : Bytes) : V Nat := do
  let (pg, i) ← allocRec p 0
  let s ← getV
  let reuse := (leAt ((s.page pg).rc i) 4 4 + 1) % 2 ^ 19
  putRecV pg i ([BitVec.ofNat 8 type, BitVec.ofNat 8 p, 0, 0] ++ toLE 4 reuse ++ body)
  pure (recordNumber s pg i reuse)

/-! ### The index (06 R161) -/

/-- Buckets of the index run: page and record of bucket b. -/
def Part.bucketAt (x : Part) (b : Nat) : Nat × Nat := (x.ixBase + b / 31, b % 31)

/-- A place: page × 32 + index. -/
def placeOf (pg i : Nat) : Nat := pg * 32 + i

def State.fingerprint (s : State) (p dom : Nat) (key : Bytes) : Nat :=
  leNat (Config.take 8 (Config.shake256
    (s.vaultKey (2 + p) ++ [BitVec.ofNat 8 dom] ++ key)))

/-- The entries of a bucket record: fingerprint and place. -/
def bucketEntries (b : Bytes) : List (Nat × Nat) :=
  (List.range (min 7 (byteAt b 2).toNat)).map fun k => (leAt b (0x10 + 16 * k) 8, leAt b (0x18 + 16 * k) 8)

/-- The first target among places whose own fields pass the test. -/
def firstMatch (ok : Bytes → Bool) : List Nat → V (Option Nat)
  | [] => pure none
  | t :: r => do
    let b ← getRec (t / 32) (t % 32)
    if ok b then pure (some t) else firstMatch ok r

/-- The chain of buckets from a place on is searched for the fingerprint. -/
def searchBuckets (fp : Nat) (ok : Bytes → Bool) : Nat → Nat → V (Option Nat)
  | 0, _ => pure none
  | f + 1, pl => do
    let b ← getRec (pl / 32) (pl % 32)
    let hit ← firstMatch ok ((bucketEntries b).filterMap fun e => if e.1 = fp then some e.2 else none)
    match hit with
    | some t => pure (some t)
    | none => if leAt b 8 8 = 0 then pure none else searchBuckets fp ok f (leAt b 8 8)

/-- The first bucket's place for a fingerprint. -/
def State.bucketPlace (s : State) (p fp : Nat) : Nat :=
  let (pg, i) := (s.part p).bucketAt (fp % 2 ^ (s.part p).ixLog2)
  placeOf pg i

/-- The partition's index is being rebuilt, and the descriptor that does it is still there. -/
def State.ixMoving (s : State) (p : Nat) : Bool :=
  (s.part p).ixMove.any fun m => s.disp.descs.any fun r => r.id == m.1

/-- Stage number of work that waits for the index rebuild of partition p. -/
def waitIndex (p : Nat) : Nat := 96 + p

/-- The record found under a lookup key in the partition's index. -/
def indexFind (p dom : Nat) (key : Bytes) (ok : Bytes → Bool) : V (Option Nat) := do
  let s ← getV
  if s.ixMoving p then stopV (.wait (.waitSweep (waitIndex p))) else pure ()
  needObj 0 (1 + p)
  let s ← getV
  if (s.part p).ixBase = 0 then pure none
  else
    let fp := s.fingerprint p dom key
    searchBuckets fp ok ((s.part p).recordsUsed + 1) (s.bucketPlace p fp)

/-- A bucket's new bytes; its page is an indexed page of the partition (06 R161). -/
def putBucket (p pg i : Nat) (b : Bytes) : V Unit := do
  dirtyRoom pg
  modV fun s => s.setPage pg { s.page pg with kind := 1, part := p }
  modV fun s => s.putRec pg i b

/-- An entry goes into the first bucket of the chain with room; a full chain gets an overflow bucket. -/
def bucketInsert (p fp target : Nat) (extra : Bool) : Nat → Nat → V Unit
  | 0, _ => pure ()
  | f + 1, pl => do
    let b ← getRec (pl / 32) (pl % 32)
    let n := (byteAt b 2).toNat
    if n < 7 then
      putBucket p (pl / 32) (pl % 32)
        (putAt (putAt ([0x06, BitVec.ofNat 8 p, BitVec.ofNat 8 (n + 1)] ++ b.drop 3) (0x10 + 16 * n) (toLE 8 fp))
          (0x18 + 16 * n) (toLE 8 target))
    else if leAt b 8 8 ≠ 0 then bucketInsert p fp target extra f (leAt b 8 8)
    else
      let (pg, i) ← allocRec p 1 extra
      putRecV (pl / 32) (pl % 32) (putAt b 8 (toLE 8 (placeOf pg i)))
      putRecV pg i ([0x06, BitVec.ofNat 8 p, 1] ++ zeros 13 ++ toLE 8 fp ++ toLE 8 target)

def indexInsert (p dom : Nat) (key : Bytes) (target : Nat) : V Unit := do
  let s ← getV
  need ((s.part p).ixBase ≠ 0) stAccess
  let fp := s.fingerprint p dom key
  bucketInsert p fp target false ((s.part p).recordsUsed + 2) (s.bucketPlace p fp)

/-- The entry for a target is removed; the bucket's last entry takes its place. -/
def bucketRemove (p target : Nat) : Nat → Nat → V Unit
  | 0, _ => pure ()
  | f + 1, pl => do
    let b ← getRec (pl / 32) (pl % 32)
    let es := bucketEntries b
    if es.any (·.2 == target) then
      let keep := es.filter (·.2 != target)
      putRecV (pl / 32) (pl % 32)
        ([0x06, BitVec.ofNat 8 p, BitVec.ofNat 8 keep.length] ++ slice b 3 13 ++ keep.flatMap fun e => toLE 8 e.1 ++ toLE 8 e.2)
    else if leAt b 8 8 = 0 then pure ()
    else bucketRemove p target f (leAt b 8 8)

def indexRemove (p dom : Nat) (key : Bytes) (target : Nat) : V Unit := do
  let s ← getV
  let fp := s.fingerprint p dom key
  bucketRemove p target ((s.part p).recordsUsed + 2) (s.bucketPlace p fp)

/-- A new indexed record. -/
def newIndexed (p dom : Nat) (key : Bytes) (b : Bytes) : V Nat := do
  let (pg, i) ← allocRec p 1
  putRecV pg i b
  indexInsert p dom key (placeOf pg i)
  pure (placeOf pg i)

/-- An indexed record is deleted with its entry. -/
def dropIndexed (p dom : Nat) (key : Bytes) (t : Nat) : V Unit := do
  indexRemove p dom key t
  freeRec p 1 (t / 32) (t % 32)

/-! ### Slot records and nonce reserves (03 R62; 06 R157, R180) -/

/-- The slot record of absolute slot i: w stands in its NONCE_CTR word (the reserve, or RECORD for class SIGN). -/
def slotRecord (i : Nat) (x : Slot) (w : Nat) : Bytes :=
  [0x04, BitVec.ofNat 8 x.part.toNat, 0, 0] ++ toLE 2 i ++ zeros 26 ++ x.image w

/-- The word a slot record carries at its first write: 2^16, or RECORD. -/
def firstReserve (x : Slot) : Nat := if x.cls = 2 then x.nonce.toNat else if x.alg = 0 then 0 else 2 ^ 16

/-- A persistent slot is written with its record. -/
def writePersist (i : Nat) (x : Slot) : V Unit := do
  needObj 0 (slotPage i)
  dirtyRoom (slotPage i)
  modV fun s => (s.setSlot i x).putRec (slotPage i) (i % 31) (slotRecord i x (firstReserve x))

/-- The reserve the slot record holds now. -/
def State.recordReserve (s : State) (i : Nat) : Nat := leAt ((s.page (slotPage i)).rc (i % 31)) 0x40 8

/-- When the live counter n reaches L − 2^15, L rises by 2^16 in the slot record (06 R180). -/
def State.raiseReserve (s : State) (i n : Nat) : State :=
  if s.recordReserve i ≤ n + 2 ^ 15 then
    s.putRec (slotPage i) (i % 31)
      (putAt ((s.page (slotPage i)).rc (i % 31)) 0x40 (toLE 8 (s.recordReserve i + 2 ^ 16)))
  else s

/-- The live counter of a GCM encryption fetch of slot i: the value delivered, and the state with it advanced and
the reserve raised where due; a fetch that would reach the committed reserve waits (03 R74; 06 R180; 07 R201). -/
def takeNonce (i : Nat) : V Nat := do
  let s ← getV
  let x := s.slot i
  let n := x.nonce.toNat
  need (x.nonce ≠ BitVec.allOnes 64) stUsage
  if !x.persist then
    modV fun s => s.setSlot i { x with nonce := x.nonce + 1 }
    pure n
  else
    needObj 0 (slotPage i)
    dirtyRoom (slotPage i)
    modV fun s => s.raiseReserve i (n + 1)
    if mget s.kr.reserves i 0 ≤ n + 1 then stopV (.wait (.waitNonce i))
    else
      modV fun s => s.setSlot i { s.slot i with nonce := (s.slot i).nonce + 1 }
      pure n

end Sys2Proof.Machine
end

