-- ==== Sys2Proof/Machine/Operands.lean ====
section
/-! DEFINITION. A descriptor's fields (02 Table 2.14), scatter-gather lists (02 R37 to R39), the checks of
02 R36 and 04 R87 that every descriptor passes before its work, and the keys its handles name (03 R66). -/

namespace Sys2Proof.Machine

/-! ### Fields (02 Tables 2.14 to 2.16) -/

def DRec.selector (r : DRec) : Nat := leAt r.bytes 0x00 2
def DRec.dflags (r : DRec) : Nat := leAt r.bytes 0x02 2
def DRec.hostTag (r : DRec) : Nat := leAt r.bytes 0x04 4
def DRec.handleA (r : DRec) : Nat := leAt r.bytes 0x08 4
def DRec.handleB (r : DRec) : Nat := leAt r.bytes 0x0C 4
def DRec.inAddr (r : DRec) : Nat := leAt r.bytes 0x10 8
def DRec.inLen (r : DRec) : Nat := leAt r.bytes 0x18 4
def DRec.auxLen (r : DRec) : Nat := leAt r.bytes 0x1C 4
def DRec.outAddr (r : DRec) : Nat := leAt r.bytes 0x20 8
def DRec.outCap (r : DRec) : Nat := leAt r.bytes 0x28 4
def DRec.param (r : DRec) : Nat := leAt r.bytes 0x2C 4
def DRec.inlineOps (r : DRec) : Bytes := fit 16 (slice r.bytes 0x30 16)
def DRec.inSgl (r : DRec) : Bool := bit r.dflags 0
def DRec.outSgl (r : DRec) : Bool := bit r.dflags 1
def DRec.irqNow (r : DRec) : Bool := bit r.dflags 2
def DRec.fence (r : DRec) : Bool := bit r.dflags 3
def DRec.verbOpt (r : DRec) : Nat := bits r.dflags 8 4
def DRec.isRecipe (r : DRec) : Bool := bit r.selector 15
def DRec.family (r : DRec) : Nat := bits r.selector 8 7
def DRec.operation (r : DRec) : Nat := bits r.selector 0 8
def DRec.isMgmt (r : DRec) : Bool := !r.isRecipe && r.family == 0x0F

/-- A NOP that completes DONE even after a felling (02 R58). -/
def DRec.wellFormedNop (r : DRec) : Bool :=
  r.selector == 0 && r.dflags &&& 0xFFF3 == 0 && r.handleA == 0 && r.handleB == 0 && r.inLen == 0 && r.auxLen == 0
    && r.outCap == 0 && r.param == 0 && allZero r.inlineOps

/-! ### Scatter-gather lists (02 R37) -/

/-- A list read whole: its data entries, or why it is refused: none for a malformed list, else the GATE_HOST refusal. -/
def sglWalk (s : State) (ws : List Region) : Nat → Nat → Nat → Nat → Except (Option (Nat × GateAns)) (List (Nat × Nat))
  | 0, _, _, _ => .error none
  | f + 1, a, data, segs =>
    match hostRefusal ws a 16 false with
    | some g => .error (some g)
    | none =>
      let e := s.hostGet a 16
      let addr := leAt e 0 8
      let len := leAt e 8 4
      let fl := leAt e 0xC 4
      if 4 ≤ fl then .error none
      else if bit fl 1 then
        if bit fl 0 || len ≠ 0 || addr % 16 ≠ 0 || segs = 0 then .error none
        else sglWalk s ws f addr data (segs - 1)
      else if data = 0 then .error none
      else if bit fl 0 then .ok [(addr, len)]
      else (sglWalk s ws f (a + 16) (data - 1) segs).map ((addr, len) :: ·)

/-- At most 256 data entries in at most 16 segments; the list address is 16-byte-aligned. -/
def sglRead (s : State) (ws : List Region) (a : Nat) : Except (Option (Nat × GateAns)) (List (Nat × Nat)) :=
  if a % 16 ≠ 0 then .error none else sglWalk s ws 272 a 256 15

def extentTotal (l : List (Nat × Nat)) : Nat := (l.map (·.2)).sum

/-- The first n bytes of a list of extents. -/
def extentCut : List (Nat × Nat) → Nat → List (Nat × Nat)
  | [], _ => []
  | (a, len) :: r, n =>
    if n = 0 then [] else if len = 0 then extentCut r n else (a, min len n) :: extentCut r (n - len)

def State.gather (s : State) (l : List (Nat × Nat)) : Bytes := l.flatMap fun e => s.hostGet e.1 e.2

/-- The data mover of a core's cluster (13 Table 13.2). -/
def dmId (core : Nat) : Nat := 65 + core / 8

/-- Who makes a descriptor's host requests: its cluster's data mover, or the Warden. -/
def DRec.master (r : DRec) : Nat := if r.isMgmt then 64 else dmId r.core

/-! ### Verb forms -/

/-- What a verb's tables fix about its operands. -/
structure Form where
  /-- The VERB_OPT bits it defines. -/
  opts : Opnd → Nat := fun _ => 0
  useA : Opnd → Bool := fun _ => false
  useB : Bool := false
  /-- The largest result it can produce (02 R36 step 6); none where it writes no output. -/
  out : Opnd → Option Nat := fun _ => none
  /-- Steps 1 and 2 of 04 R87. -/
  check : Opnd → Option Word16
  /-- It takes random (04 R93). -/
  random : Opnd → Bool := fun _ => false
  /-- Record numbers in its operands, and index lookups it makes: domain and key (14 R349). -/
  nums : Opnd → List Nat := fun _ => []
  lookups : State → Opnd → List (Nat × Bytes) := fun _ _ => []
  /-- PAU operations it makes (05 Table 5.9). -/
  pau : Opnd → Nat := fun _ => 0
  run : Opnd → V Answer

/-- The absolute slot a key reference names, for a lookup; a recipe slot that holds nothing names none. -/
def State.absSlot (s : State) (p : Nat) : KeySel → Nat
  | .none => 0
  | .trans t => t.getD 0
  | .handle h => (s.part p).base + bits h 0 16

/-- The first status of a list of checks. -/
def firstFail (l : List (Bool × Word16)) : Option Word16 := (l.find? fun c => !c.1).map (·.2)

/-- The extents of a descriptor's input or output; a malformed list is BAD_DESCRIPTOR, a refused read ACCESS_FAULT. -/
def extents (r : DRec) (sgl : Bool) (addr len : Nat) : V (List (Nat × Nat)) := do
  let s ← getV
  if sgl then
    match sglRead s (s.windows r.fn r.oldWin) addr with
    | .ok l => pure l
    | .error none => failV stBad
    | .error (some (a, g)) =>
      modV fun s => s.noteRefusal 0 r.master a false g r.fn
      failV stAccess
  else pure (if len = 0 then [] else [(addr, len)])

/-- Every extent lies inside the windows (02 R28, R36 step 4). -/
def State.inWindows (s : State) (r : DRec) (l : List (Nat × Nat)) (write : Bool) : Bool :=
  l.all fun e => s.hostPasses r.fn r.oldWin e.1 e.2 write

/-- The operands of a descriptor before its input is read. -/
def DRec.opnd (r : DRec) (chk : Bool) : Opnd :=
  { d := r.id, p := r.fn, cl := r.core / 8, fam := r.family, op := r.operation, opt := r.verbOpt,
    keyA := if r.handleA = 0 then .none else .handle r.handleA,
    keyB := if r.handleB = 0 then .none else .handle r.handleB,
    param := r.param, inp := zeros r.inLen, auxLen := r.auxLen, outCap := r.outCap, inl := r.inlineOps, chk := chk }

/-- 02 R36 step 1 on what every descriptor has: reserved flag bits, and handle bits [23:16]. -/
def DRec.reservedClear (r : DRec) : Bool :=
  bits r.dflags 4 4 == 0 && bits r.dflags 12 4 == 0 && bits r.handleA 16 8 == 0 && bits r.handleB 16 8 == 0

/-- A handle of zero is a handle: whether a role uses it is the form's word. -/
def withHandles (r : DRec) (f : Form) (o : Opnd) : Opnd :=
  { o with keyA := if f.useA o then .handle r.handleA else .none, keyB := if f.useB then .handle r.handleB else .none }

/-- Steps 3 to 6 of 02 R36: the extents of input and output. The input list is read, and may be refused, before the output list
is looked at, and OUT_CAP against the output list's lengths comes between steps 3 and 4 (DESIGN CHOICE,
notes/assumptions/75.md); an input list longer than IN_LEN counts for every operation, one without input too (DESIGN CHOICE,
notes/assumptions/76.md). -/
def hostOperands (r : DRec) (outMin : Nat) : V (List (Nat × Nat) × List (Nat × Nat)) := do
  let ins ← extents r r.inSgl r.inAddr r.inLen
  let outs ← extents r r.outSgl r.outAddr r.outCap
  need (!r.outSgl || extentTotal outs == r.outCap) stBad
  let s ← getV
  need (s.inWindows r ins false && s.inWindows r outs true) stAccess
  need (r.inLen ≤ extentTotal ins) stShort
  modV fun s => if r.inLen < extentTotal ins then s.flag r.id cfExcess else s
  need (outMin ≤ r.outCap) stBad
  pure (extentCut ins r.inLen, outs)

/-- Which descriptors each lifecycle state serves, after the checks of 02 R36 (16 Table 16.1); a recipe runs verbs of
families 0x01 to 0x09. -/
def State.serves (s : State) (r : DRec) : Bool :=
  match s.life.st with
  | .owned => true
  | .operational => true
  | .development => true
  | .emptied => r.isMgmt || r.selector == 0
  | _ => r.selector == 0 || r.selector == 0x0F17

/-- All checks of 02 R36 and 04 R87 of a verb's descriptor: its operands, and where its output goes. -/
def intake (r : DRec) (f : Form) (chk : Bool) : V (Opnd × List (Nat × Nat)) := do
  let o := withHandles r f (r.opnd chk)
  need (r.reservedClear && r.verbOpt &&& f.opts o == r.verbOpt
    && (f.useA o || r.handleA == 0) && (f.useB || r.handleB == 0)) stBad
  let (ins, outs) ← hostOperands r ((f.out o).getD 0)
  let s ← getV
  need (s.serves r) stAccess
  need ((f.out o).isSome || (r.outCap == 0 && !r.outSgl)) stBad
  match f.check o with
  | some st => failV st
  | none =>
    let s ← getV
    pure ({ o with inp := s.gather ins }, outs)

/-! ### Keys by handle (03 R66, R71, R85) -/

/-- The slot record of slot i holds a slot record. -/
def State.recorded (s : State) (i : Nat) : Bool :=
  let b := (s.page (slotPage i)).rc (i % 31)
  byteAt b 0 == 4 && leAt b 4 2 == i

/-- A slot takes the image of its slot record: one the rebuild has still to restore, or one that is reloaded (03 R64, R85). -/
def State.restore (s : State) (i : Nat) : State :=
  let s := { s with kr := { s.kr with toRestore := s.kr.toRestore.erase i, reloads := s.kr.reloads.erase i } }
  let b := (s.page (slotPage i)).rc (i % 31)
  if byteAt b 0 = 4 ∧ leAt b 4 2 = i then
    let x := Slot.ofImage (slice b 0x20 0x38)
    let s := s.setSlot i x
    { s with kr := { s.kr with reserves := mset s.kr.reserves i x.nonce.toNat } }
  else s

def meet (i : Nat) : V Unit := do
  let s ← getV
  if s.kr.toRestore.contains i then
    needObj 0 (slotPage i)
    modV fun s => s.restore i
  else pure ()

/-- A slot met by a probe or fetch: one whose record is missing gives KEY_SLOT_EMPTY (03 R85). -/
def meetKey (i : Nat) : V Unit := do
  let s ← getV
  if s.kr.toRestore.contains i then
    meet i
    let s ← getV
    need (s.recorded i) stEmpty
  else pure ()

/-- The slots that a walk from slot image x reads, met in their turn (03 R76, R85). -/
def meetUp : Nat → Slot → V Unit
  | 0, _ => pure ()
  | f + 1, x =>
    if x.depth.toNat ≤ 1 then pure ()
    else do
      meet x.parentSlot.toNat
      let s ← getV
      meetUp f (s.slot x.parentSlot.toNat)

/-- A slot that fails its ICODE check is counted, and the reload of a persistent one starts at once, from its slot record as soon
as that is there; a second failure leaves it corrupt (03 R64). -/
def State.meetCorrupt (s : State) (p i : Nat) : State :=
  let s := s.countCorrupt p
  if s.kr.reloaded.contains i || i < (s.part p).base || (s.part p).base + (s.part p).persist ≤ i then s
  else
    let s : State := { s with kr := { s.kr with reloaded := i :: s.kr.reloaded } }
    if s.resident 0 (slotPage i) then s.restore i else { s with kr := { s.kr with reloads := s.kr.reloads ++ [i] } }

/-- The absolute slot a key reference names, and the generation its handle carries. -/
def keySlot (o : Opnd) (k : KeySel) : V (Nat × Option Nat) := do
  let s ← getV
  match k with
  | .none => failV stBad
  | .trans none => failV stEmpty
  | .trans (some i) => pure (i, none)
  | .handle h =>
    need (bits h 16 8 = 0) stBad
    partsKnown
    need (bits h 0 16 < (s.part o.p).persist) stAccess
    pure ((s.part o.p).base + bits h 0 16, some (bits h 24 8))

/-- A status that refuses a probe or fetch of slot i ends the verb. -/
def refuseKey (o : Opnd) (i : Nat) (st : Word16) : V Unit := do
  modV fun s => if (s.slot i).flaw ≠ 0 then s.meetCorrupt o.p i else s
  failV st

/-- Steps 1 to 6 of 03 Table 3.5. -/
def probeNow (o : Opnd) (k : KeySel) (q : KeyReq) : V Nat := do
  let (i, g) ← keySlot o k
  meetKey i
  let s ← getV
  match s.probeStatus (s.slot i) o.p g q with
  | some st => refuseKey o i st; pure i
  | none => pure i

/-- A verb's probe of a handle, which a wait behind it does not repeat. -/
def probe (o : Opnd) (k : KeySel) (q : KeyReq) : V Unit := do
  let _ ← once o.d (fun | .probed i => some i | _ => none) .probed (probeNow o k q)
  pure ()

/-- Steps 1 to 4 only (04 R112; 05 R143). -/
def probeHead (o : Opnd) (k : KeySel) : V Nat := do
  let (i, g) ← keySlot o k
  meetKey i
  let s ← getV
  match checkHead (s.slot i) o.p g with
  | some st => refuseKey o i st; pure i
  | none => pure i

/-- A fetch on the key bus: all seven steps; what it read enters the descriptor's chain record. -/
def fetchNow (o : Opnd) (k : KeySel) (q : KeyReq) : V (Nat × Slot) := do
  let (i, g) ← keySlot o k
  meetKey i
  let s ← getV
  if (s.probeStatus (s.slot i) o.p g q).isNone && (s.slot i).persist then meetUp 4 (s.slot i) else pure ()
  let s ← getV
  match s.fetchStatus (s.slot i) o.p g q with
  | .error st => refuseKey o i st; pure (i, s.slot i)
  | .ok c =>
    modV fun s => s.chainAdd o.d (i :: c)
    pure (i, s.slot i)

/-- A verb's fetch: its key is delivered once, whatever waits come behind it (03 R82). -/
def fetch (o : Opnd) (k : KeySel) (q : KeyReq) : V (Nat × Slot) := do
  let (i, _) ← keySlot o k
  once o.d (fun | .key j x => if j = i then some (i, x) else none | _ => none) (fun e => .key e.1 e.2) (fetchNow o k q)

/-- A GCM encryption fetch, which takes the slot's invocation counter with it: the key and the value delivered (03 R74). -/
def fetchGcm (o : Opnd) (k : KeySel) (q : KeyReq) : V (Slot × Nat) := do
  let (i, _) ← keySlot o k
  let (_, x) ← once o.d (fun | .key j x => if j = i then some (i, x) else none | _ => none) (fun e => .key e.1 e.2) (do
    let (i, x) ← fetchNow o k q
    let n ← takeNonce i
    pure (i, { x with nonce := BitVec.ofNat 64 n }))
  pure (x, x.nonce.toNat)

/-! ### Transient slots of a verb's own (03 R68, R75) -/

/-- The transient slots a verb's own derivations use: a descriptor's reservation, or the last four of a recipe's. -/
def State.workSlots (s : State) (o : Opnd) : List Nat :=
  let l := ((s.desc o.d).map (·.trans)).getD []
  if o.recipe then l.drop (l.length - 4) else l

/-- The generation of a transient slot's next image: one that holds a key is used again under the next (03 R68). -/
def State.nextGen (s : State) (t : Nat) : Word16 := (s.slot t).gen + if (s.slot t).alg = 0 then 0 else 1

/-- An image goes into work slot j. -/
def putWork (o : Opnd) (j : Nat) (x : State → Word16 → Except Word16 Slot) : V (Nat × Slot) := do
  let s ← getV
  match (s.workSlots o)[j]? with
  | none => failV stAccess
  | some t =>
    match x s (s.nextGen t) with
    | .error st => failV st
    | .ok y => modV fun s => s.setSlot t y; pure (t, y)

/-- A key derived or unwrapped under src goes into work slot j, as the verb declares it (01 R20; 03 R75). -/
def derive (o : Opnd) (j : Nat) (src : Nat × Slot) (d : KeyDecl) (key : Bytes) : V (Nat × Slot) :=
  putWork o j fun _ g => linkedSlot src d false o.p key g

/-- The engine that works under a key in a work slot fetches it from there for its role (01 R19; 03 R78, R79). -/
def fetchWork (o : Opnd) (t : Nat) (d : KeyDecl) : V (Nat × Slot) :=
  fetch o (.trans (some t)) { cls := [d.cls], fam := o.fam, mode := d.usage / 512 * 512, algs := [d.alg] }

def throughSlot (o : Opnd) (j : Nat) (src : Nat × Slot) (d : KeyDecl) (key : Bytes) : V (Nat × Slot) := do
  let (t, _) ← derive o j src d key
  fetchWork o t d

/-- A key with no source in the partition goes through work slot j: it is linked as a clear write is (04 R115, R120). -/
def rootSlot (o : Opnd) (j : Nat) (d : KeyDecl) (key : Bytes) : V (Nat × Slot) := do
  let (t, _) ← putWork o j fun s g => .ok { s.clearLinked d o.p key g 0 with persist := false }
  fetchWork o t d

/-! ### Where a made key goes (04 R91) -/

/-- The destination in the persistent region is inside it, empty and not worn. -/
def destCheck (p dest : Nat) : V Nat := do
  partsKnown
  let s ← getV
  need (dest < (s.part p).persist) stAccess
  meet ((s.part p).base + dest)
  let s ← getV
  let x := s.slot ((s.part p).base + dest)
  need (x.alg = 0 && !x.worn) stUsage
  pure ((s.part p).base + dest)

/-- Handle of slot i of partition p, least significant byte first, in an 8-byte inline result (04 R91). -/
def handleInl (s : State) (p i : Nat) : Bytes :=
  toLE 4 (i - (s.part p).base + at' ((s.slot i).gen.toNat % 256) 24) ++ zeros 4

/-- A write of a persistent slot waits for a sweep of the partition (03 R81). -/
def noSweep (p : Nat) : V Unit := do
  let s ← getV
  if s.kr.sweeps.any fun w => w.part == p then stopV (.wait (.waitSweep p)) else pure ()

/-- A derived or unwrapped key goes into a recipe's transient slot, or into the persistent destination (04 R91; 05 R131). -/
def storeKey (o : Opnd) (dest : Nat) (src : Nat × Slot) (d : KeyDecl) (key : Bytes) : V Answer := do
  match o.keyOut with
  | some t =>
    let s ← getV
    match linkedSlot src d false o.p key (s.nextGen t) with
    | .error st => failV st
    | .ok x => modV fun s => s.setSlot t x; pure {}
  | none =>
    noSweep o.p
    let i ← destCheck o.p dest
    let s ← getV
    match linkedSlot src d true o.p key (s.slot i).gen with
    | .error st => failV st
    | .ok x =>
      writePersist i x
      let s ← getV
      pure { inl := handleInl s o.p i, durable := true }

/-- The key declaration in the inline operands (04 Table 4.1). -/
def keyDecl (inl : Bytes) : Nat × KeyDecl :=
  (leAt inl 0 2, { alg := leAt inl 2 1, cls := leAt inl 3 1, usage := leAt inl 4 2, vStart := leAt inl 6 3, vEnd := leAt inl 9 3 })

/-- Its form: class 0 or 1 and zero reserved bytes (04 R92). -/
def keyDeclOk (inl : Bytes) : Bool := decide (leAt inl 3 1 ≤ 1) && leAt inl 12 4 == 0

end Sys2Proof.Machine
end

