-- ==== Sys2Proof/Machine/Cipher.lean ====
section
/-! DEFINITION. Modes composed from single blocks (07 R198), nonces (07 R199), PIN blocks (04 R98 to R100)
and DUKPT derivation (04 R104), over the opaque ciphers of Config. -/

namespace Sys2Proof.Machine

def enc (alg : Nat) (key blk : Bytes) : Bytes := Config.take (algBlock alg) (Config.encBlock alg key blk)
def dec (alg : Nat) (key blk : Bytes) : Bytes := Config.take (algBlock alg) (Config.decBlock alg key blk)

/-! ### CBC and CTR (07 R198) -/

def cbcEncList (alg : Nat) (key : Bytes) : Bytes → List Bytes → Bytes
  | _, [] => []
  | iv, b :: r =>
    let c := enc alg key (xorBytes b iv)
    c ++ cbcEncList alg key c r

def cbcDecList (alg : Nat) (key : Bytes) : Bytes → List Bytes → Bytes
  | _, [] => []
  | iv, c :: r => xorBytes (dec alg key c) iv ++ cbcDecList alg key c r

def cbcEnc (alg : Nat) (key iv t : Bytes) : Bytes := cbcEncList alg key iv (blocks (algBlock alg) t)
def cbcDec (alg : Nat) (key iv t : Bytes) : Bytes := cbcDecList alg key iv (blocks (algBlock alg) t)

/-- The counter block is one big-endian integer of the whole block, incremented modulo its size (07 R198). -/
def ctrList (alg : Nat) (key : Bytes) : Nat → List Bytes → Bytes
  | _, [] => []
  | c, b :: r =>
    let n := algBlock alg
    xorBytes b (enc alg key (toBE n c)) ++ ctrList alg key ((c + 1) % 256 ^ n) r

def ctrMode (alg : Nat) (key iv t : Bytes) : Bytes := ctrList alg key (beNat iv) (blocks (algBlock alg) t)

def ecbEnc (alg : Nat) (key t : Bytes) : Bytes := (blocks (algBlock alg) t).flatMap (enc alg key)
def ecbDec (alg : Nat) (key t : Bytes) : Bytes := (blocks (algBlock alg) t).flatMap (dec alg key)

def gcmCrypt (alg : Nat) (key nonce t : Bytes) : Bytes := xorBytes t (Config.take t.length (Config.gcmStream alg key nonce))
def gcmTag (alg : Nat) (key nonce aad ct : Bytes) (n : Nat) : Bytes := Config.take n (Config.gcmTag alg key nonce aad ct)

/-- The fixed field of a nonce (07 Table 7.7) and the invocation counter behind it. -/
def nonceBytes (s : State) (p eng n : Nat) : Bytes :=
  toBE 4 (at' (meshId s) 29 + at' p 24 + at' (eng % 16) 20 + Config.serial.toNat % 2 ^ 20) ++ toBE 8 n

/-! ### PIN blocks (04 R98 to R100) -/

def nibbles (b : Bytes) : List Nat := b.flatMap fun x => [x.toNat / 16, x.toNat % 16]

def ofNibbles : List Nat → Bytes
  | h :: l :: r => BitVec.ofNat 8 (16 * (h % 16) + l % 16) :: ofNibbles r
  | _ => []

/-- The 12-digit account number of formats 0 and 3 from the format 4 account field (04 R98), as the 8-byte field
that is XORed with the PIN field: four zero digits, then the 12 rightmost digits without the check digit. -/
def accountField (acct : Bytes) : Bytes :=
  let n := 12 + (nibbles acct).headD 0
  let digits := ((nibbles acct).drop 1).take (n - 1)
  let last := digits.drop (digits.length - 12)
  ofNibbles (List.replicate (16 - last.length) 0 ++ last)

def pinBlockSize (fmt : Nat) : Nat := if fmt = 4 then 16 else 8

/-- A PIN field's nibbles checked: control nibble, length 4 to 12, fill (04 R98); the PIN digits. -/
def pinOfField (fmt : Nat) (f : List Nat) : Option (List Nat) :=
  let len := f.getD 1 0
  let fill := (f.take 16).drop (2 + len)
  if f.getD 0 0 = fmt ∧ 4 ≤ len ∧ len ≤ 12 ∧
      fill.all (fun d => if fmt = 0 then d == 15 else if fmt = 3 then decide (10 ≤ d) else if fmt = 4 then d == 10 else true)
  then some ((f.drop 2).take len) else none

/-- The clear PIN field of a block (04 R98; 07 Table 7.6). -/
def openField (fmt alg : Nat) (key blk acct : Bytes) : Bytes :=
  if fmt = 4 then dec alg key (xorBytes (dec alg key blk) acct)
  else if fmt = 1 then dec alg key blk
  else xorBytes (dec alg key blk) (accountField acct)

def openPin (fmt alg : Nat) (key blk acct : Bytes) : Option (List Nat) :=
  pinOfField fmt (nibbles (openField fmt alg key blk acct))

/-- A PIN field of a format from the digits and fresh random bytes (04 R99; fill digits A to F taken from random
nibbles modulo 6, notes/assumptions/12.md). -/
def buildField (fmt : Nat) (pin : List Nat) (rnd : Bytes) : Bytes :=
  let head := fmt :: pin.length :: pin
  let k := 16 - head.length
  let fill :=
    if fmt = 0 then List.replicate k 15
    else if fmt = 4 then List.replicate k 10
    else if fmt = 3 then ((nibbles rnd).take k).map fun r => 10 + r % 6
    else (nibbles rnd).take k
  ofNibbles (head ++ fill) ++ if fmt = 4 then fit 8 rnd else []

/-- A format that takes random (04 Table 4.3). -/
def fmtRandom (fmt : Nat) : Bool := fmt == 1 || fmt == 3 || fmt == 4

def sealField (fmt alg : Nat) (key f acct : Bytes) : Bytes :=
  if fmt = 4 then enc alg key (xorBytes (enc alg key f) acct)
  else if fmt = 1 then enc alg key f
  else enc alg key (xorBytes f (accountField acct))

/-- The canonical PIN field (04 R100): control 4, length, digits, fill A. -/
def canonicalField (pin : List Nat) : Bytes := ofNibbles ((4 :: pin.length :: pin) ++ List.replicate (14 - pin.length) 10)

def refValue (alg : Nat) (key : Bytes) (pin : List Nat) (acct : Bytes) : Bytes :=
  Config.take 16 (Config.cmac alg key (canonicalField pin ++ acct))

/-! ### DUKPT derivation (04 R104; ANSI X9.24-3 and X9.24-1) -/

/-- Derivation data (04 Table 4.23): version, block counter, usage, algorithm, length, and the last 8 bytes. -/
def derivData (blk usage alg : Nat) (tail : Bytes) : Bytes :=
  [0x01, BitVec.ofNat 8 blk] ++ toBE 2 usage ++ toBE 2 (alg + 1) ++ toBE 2 (8 * algLen alg) ++ tail

/-- One derivation under AES: as many blocks as the derived key needs, cut to its length. -/
def deriveAes (alg : Nat) (key : Bytes) (usage outAlg : Nat) (tail : Bytes) : Bytes :=
  (enc alg key (derivData 1 usage outAlg tail) ++ enc alg key (derivData 2 usage outAlg tail)).take (algLen outAlg)

/-- A counter with its lowest one bit cleared (04 R104). -/
def parentCtr (c : Nat) : Nat := c &&& (c - 1)

/-- The counter and its ancestors down to the last before zero, nearest first. -/
def ctrPath : Nat → Nat → List Nat
  | 0, _ => []
  | f + 1, c => if c = 0 then [] else c :: ctrPath f (parentCtr c)

/-- The terminal's initial key from the base derivation key (usage 0x8001 of X9.24-3; notes/assumptions/13.md). -/
def initialKey (alg : Nat) (bdk id : Bytes) : Bytes :=
  if alg = 4 then Config.take 16 (Config.tdesInitial bdk id) else deriveAes alg bdk 0x8001 alg id

/-- One step of the walk: the key of counter c from its parent's. -/
def stepKey (alg : Nat) (key id : Bytes) (c : Nat) : Bytes :=
  if alg = 4 then Config.take 16 (Config.tdesStep key id c) else deriveAes alg key 0x8000 alg (slice id 4 4 ++ toBE 4 c)

/-- The working key (04 R105): AES by usage and size, TDES by variant. -/
def workKey (alg : Nat) (key id : Bytes) (c usage variant outAlg : Nat) : Bytes :=
  if alg = 4 then Config.take 16 (Config.tdesVariant variant key)
  else deriveAes alg key usage outAlg (slice id 4 4 ++ toBE 4 c)

/-! Terminal record fields (06 Table 6.6) -/

def trPolicy (b : Bytes) : Nat := leAt b 2 2 % 4
def trAlg (b : Bytes) : Nat := bits (leAt b 2 2) 2 5
def trMask (b : Bytes) : Nat := bits (leAt b 2 2) 8 4
def trLinkSlot (b : Bytes) : Nat := leAt b 4 2
def trLinkGen (b : Bytes) : Nat := leAt b 6 2
def trHighest (b : Bytes) : Nat := leAt b 0x10 4
def trCacheCtr (b : Bytes) : Nat := leAt b 0x14 4
def trSeen (b : Bytes) : Nat := leAt b 0x18 8

/-- A new terminal record. -/
def terminalBytes (p policy alg slot gen : Nat) (id key : Bytes) : Bytes :=
  fit 128 ([0x05, BitVec.ofNat 8 p] ++ toLE 2 (policy + at' alg 2) ++ toLE 2 slot ++ toLE 2 gen ++ fit 8 id ++ zeros 16 ++ key)

/-- The counters whose keys the record caches, with the keys: the k-th ancestor of CACHE_CTR for each mask bit. -/
def trCached (b : Bytes) : List (Nat × Bytes) :=
  let n := algLen (trAlg b)
  let cs := (ctrPath 33 (trCacheCtr b)).take 4
  let held := (List.range cs.length).filter fun k => bit (trMask b) k
  (List.range held.length).map fun j => (cs.getD (held.getD j 0) 0, slice b (0x20 + n * (j + 1)) n)

/-- The policy's check and update, one atomic step (04 Table 4.6): the record after it, or none when refused. -/
def acceptCtr (b : Bytes) (c : Nat) : Option Bytes :=
  let h := trHighest b
  let setHigh (b : Bytes) := putAt b 0x10 (toLE 4 c)
  match trPolicy b with
  | 0 => if h < c then some (setHigh b) else none
  | 1 =>
    if h < c then
      let seen := if 64 ≤ c - h then 0 else trSeen b * 2 ^ (c - h) % 2 ^ 64
      some (putAt (setHigh b) 0x18 (toLE 8 (seen ||| 1)))
    else if 1 ≤ h - c ∧ h - c ≤ 63 ∧ !bit (trSeen b) (h - c) then
      some (putAt b 0x18 (toLE 8 (trSeen b ||| 2 ^ (h - c))))
    else none
  | _ => some (if h < c then setHigh b else b)

/-- The keys known after deriving along the path (child first) from the known ones. -/
def walkKeys (alg : Nat) (id init : Bytes) (known : List (Nat × Bytes)) : List Nat → List (Nat × Bytes)
  | [] => []
  | c :: r =>
    match known.find? (·.1 == c) with
    | some e => e :: known.filter (·.1 != c)
    | none =>
      let below := walkKeys alg id init known r
      let parent := match below with
        | e :: _ => if r.isEmpty then init else e.2
        | [] => init
      (c, stepKey alg parent id c) :: below

/-- The record with its cache rebuilt for counter c, where c is above CACHE_CTR (04 R104). -/
def recache (b : Bytes) (c : Nat) (known : List (Nat × Bytes)) : Bytes :=
  if c ≤ trCacheCtr b then b
  else
    let alg := trAlg b
    let limit := if alg = 2 ∨ alg = 3 then 2 else 4
    let path := (ctrPath 33 c).take 4
    let held := ((List.range path.length).filter fun k => known.any (·.1 == path.getD k 0)).take limit
    let keys := held.flatMap fun k => ((known.find? (·.1 == path.getD k 0)).map (·.2)).getD []
    let mask := (held.map (2 ^ ·)).sum
    let b := putAt b 2 (toLE 2 (trPolicy b + at' alg 2 + at' mask 8))
    let b := putAt b 0x14 (toLE 4 c)
    fit 128 (b.take (0x20 + algLen alg) ++ keys)

end Sys2Proof.Machine
end

