-- ==== Sys2Proof/Machine/PinDukpt.lean ====
section
/-! DEFINITION. The PIN family and the DUKPT family (04 R96 to R105) as verbs: for each its form and its run. -/

namespace Sys2Proof.Machine

/-! ### Requests (04 Tables 4.4 and 4.8; 03 Table 3.6) -/

def mEnc : Nat := 2 ^ 9
def mDec : Nat := 2 ^ 10
def mGen : Nat := 2 ^ 11
def mVer : Nat := 2 ^ 12
def mDerive : Nat := 2 ^ 13
def mWrap : Nat := 2 ^ 14
def mExport : Nat := 2 ^ 15

def aesAlgs : List Nat := [1, 2, 3]
def tdesAlgs : List Nat := [4, 5]
def cipherAlgs : List Nat := [1, 2, 3, 4, 5]

def baseReq (fam : Nat) (tdes : Bool) : KeyReq := { cls := [0], fam := fam, mode := mDerive, algs := if tdes then [4] else aesAlgs }

/-! ### Key serial numbers (04 R101, Table 4.5) -/

/-- The initial key ID as the terminal record holds it: 8 bytes; a TDES serial with its low 21 bits zero. -/
def ksnId (tdes : Bool) (inl : Bytes) : Bytes :=
  if tdes then (toBE 10 (beNat (inl.take 10) / 2 ^ 21 * 2 ^ 21)).take 8 else inl.take 8

def ksnCtr (tdes : Bool) (inl : Bytes) : Nat :=
  if tdes then beNat (inl.take 10) % 2 ^ 21 else beNat (slice inl 8 4)

def ksnLen (tdes : Bool) : Nat := if tdes then 10 else 12

/-- Not zero, at most 16 (AES) or 10 (TDES) one bits, reserved bytes zero. -/
def ksnOk (tdes : Bool) (inl : Bytes) : Bool :=
  let c := ksnCtr tdes inl
  c != 0 && decide (popCount 32 c ≤ if tdes then 10 else 16) && allZero (inl.drop (ksnLen tdes))

/-- An initial key ID alone, in the same place: no counter bits. -/
def idOk (tdes : Bool) (inl : Bytes) : Bool :=
  if tdes then ksnCtr true inl == 0 && allZero (inl.drop 10) else allZero (inl.drop 8)

/-! ### Terminal records -/

def terminalMatches (p i : Nat) (id b : Bytes) : Bool :=
  byteAt b 0 == 5 && (byteAt b 1).toNat == p && trLinkSlot b == i && slice b 8 8 == id

/-- The terminal record found under the base derivation key's slot and the initial key ID. -/
def findTerminal (o : Opnd) (i : Nat) (id : Bytes) : V (Option Nat) :=
  indexFind o.p 1 (toLE 2 i ++ id) (terminalMatches o.p i id)

/-- What a key of the derivation tree is declared as: class KEY, with DERIVE for the family (04 R104). -/
def derivDecl (fam alg : Nat) : KeyDecl := { alg := alg, cls := 0, usage := 2 ^ (fam - 1) + mDerive }

/-- A terminal record made: the initial key derived once from the base derivation key (04 R102), by way of the last work slot. -/
def makeTerminal (o : Opnd) (tdes : Bool) (policy : Nat) (id : Bytes) (j : Nat) : V Nat := do
  let (i, x) ← fetch o o.keyA (baseReq o.fam tdes)
  engine o
  let (_, y) ← throughSlot o j (i, x) (derivDecl o.fam x.alg.toNat) (initialKey x.alg.toNat x.key id)
  modV fun s => s.modDesc o.d fun r => { r with durable := true }
  newIndexed o.p 1 (toLE 2 i ++ id) (terminalBytes o.p policy x.alg.toNat i x.gen.toNat id y.key)

/-- The record of the operation's terminal; with AUTO_REGISTER it is made when missing. -/
def terminalOf (o : Opnd) (tdes auto : Bool) : V Nat := do
  let (i, _) ← keySlot o o.keyA
  match ← findTerminal o i (ksnId tdes o.inl) with
  | some t => pure t
  | none => if auto then makeTerminal o tdes 0 (ksnId tdes o.inl) 3 else failV stMissing

/-- The counter checked and the record updated, one atomic step (04 R103); within a recipe run a counter already
accepted for the same terminal passes without a second update (05 R147). -/
def acceptNow (o : Opnd) (tdes : Bool) (t : Nat) : V Unit := do
  let b ← getRec (t / 32) (t % 32)
  let c := ksnCtr tdes o.inl
  let mark := (trLinkSlot b, ksnId tdes o.inl, c)
  let s ← getV
  if (s.desc o.d).any (fun r => r.accepted.contains mark) then pure ()
  else
    match acceptCtr b c with
    | none => failV stAuth
    | some b' =>
      putRecV (t / 32) (t % 32) b'
      modV fun s => s.modDesc o.d fun r => { r with accepted := mark :: r.accepted }

/-- The same for a descriptor, whose counter is accepted once, whatever waits come behind it. -/
def acceptCounter (o : Opnd) (tdes : Bool) (t : Nat) : V Unit := do
  let _ ← once o.d (fun | .counted j => if j = t then some j else none | _ => none) .counted (do acceptNow o tdes t; pure t)
  pure ()

/-- The link of a pulled key checked as a fetch checks a chain (03 R77): the link parent's generation, then its chain. -/
def pullLink (o : Opnd) (i gen : Nat) : V Unit := do
  meet i
  let s ← getV
  meetUp 4 (s.slot i)
  let s ← getV
  let x := s.slot i
  match s.walk 4 x with
  | some c =>
    need (x.gen.toNat == gen) stStale
    modV fun s => s.chainAdd o.d (i :: c)
  | none => failV stStale

/-- A key pulled from the terminal record at place t, with the link the record holds, goes into work slot j (03 R77). -/
def pullKey (o : Opnd) (j t : Nat) (b key : Bytes) : V (Nat × Slot) := do
  let _ ← once o.d (fun | .pulled u => if u = t then some u else none | _ => none) .pulled
    (do pullLink o (trLinkSlot b) (trLinkGen b); pure t)
  putWork o j fun s g =>
    let up := s.slot (trLinkSlot b)
    let d := derivDecl o.fam (trAlg b)
    .ok { key := fit (algLen d.alg) key, gen := g, parentSlot := BitVec.ofNat 16 (trLinkSlot b),
          parentGen := BitVec.ofNat 16 (trLinkGen b), part := BitVec.ofNat 5 o.p, cls := 0, alg := BitVec.ofNat 5 d.alg,
          depth := BitVec.ofNat 3 (min 4 (up.depth.toNat + 1)), usage := BitVec.ofNat 16 d.usage,
          vEnd := BitVec.allOnes 24 }

/-- The keys that a derivation walks through, one after the other, in work slot 1 (04 R104). -/
def walkSlots (o : Opnd) (src : Nat × Slot) : List Bytes → V (Nat × Slot)
  | [] => pure src
  | k :: r => do
    let y ← throughSlot o 1 src (derivDecl o.fam src.2.alg.toNat) k
    walkSlots o y r

/-- The working key of the counter the descriptor presents (04 R104), with the record's cache rebuilt. The initial key or the
deepest cached key is pulled into work slot 0, the walk's keys stand in work slot 1, and the working key lands in work slot
2, of class DATA and with the family and the mode bits of its role. -/
def workingKey (o : Opnd) (tdes : Bool) (t usage variant outAlg mode : Nat) : V Slot := do
  let b ← getRec (t / 32) (t % 32)
  let alg := trAlg b
  let id := ksnId tdes o.inl
  let c := ksnCtr tdes o.inl
  let path := ctrPath 33 c
  let fresh := path.takeWhile fun a => !(trCached b).any fun e => e.1 == a
  let start := (((path.drop fresh.length).head?.bind fun a => (trCached b).find? (·.1 == a)).map (·.2)).getD (slice b 0x20 (algLen alg))
  let (u, _) ← pullKey o 0 t b start
  let base ← fetch o (.trans (some u)) { cls := [0], fam := o.fam, mode := mDerive, algs := [alg] }
  engine o
  let known := walkKeys alg id (slice b 0x20 (algLen alg)) (trCached b) path
  let keyOf := fun a => ((known.find? (·.1 == a)).map (·.2)).getD []
  let top ← walkSlots o base (fresh.reverse.map keyOf)
  putRecV (t / 32) (t % 32) (recache b c known)
  let (_, x) ← throughSlot o 2 top { alg := outAlg, cls := 1, usage := 2 ^ (o.fam - 1) + mode }
    (workKey alg (keyOf c) id c usage variant outAlg)
  pure x

/-! ### PIN family (04 Table 4.2) -/

def pinIn (o : Opnd) : Nat := bits o.param 0 8
def pinOut (o : Opnd) : Nat := bits o.param 8 8
def pinSrc (o : Opnd) : Nat := bits o.param 16 2
def pinWork (o : Opnd) : Nat := bits o.param 18 2
def fmtOk (f : Nat) : Bool := f == 0 || f == 1 || f == 3 || f == 4

/-- PARAM, formats, sources and lengths (04 R87 step 1, R96, R97, R98, R101); n blocks come in. -/
def pinCheck (translate : Bool) (n : Nat) (o : Opnd) : Option Word16 :=
  let src := pinSrc o
  let inF := pinIn o
  let outF := pinOut o
  firstFail [
    (decide (o.param < 2 ^ 20) && fmtOk inF && src != 3, stBad),
    (if translate then fmtOk outF && !(outF == 1 && inF != 1) else outF == 0, stBad),
    (if src = 0 then inF == 4 && pinWork o != 3 else pinWork o == 0, stBad),
    (src != 1 || inF != 4, stBad),
    (o.inLen == n * pinBlockSize inF + 16 && o.auxLen == 0, stBad),
    (if src = 2 then allZero o.inl else ksnOk (src == 1) o.inl, stBad)]

def pinOpts (o : Opnd) : Nat := if pinSrc o ≤ 1 then 1 else 0

/-- The request for the source key A. -/
def pinSrcReq (o : Opnd) : KeyReq :=
  if pinSrc o = 2 then { cls := [1], fam := 1, mode := mDec, algs := if pinIn o = 4 then aesAlgs else tdesAlgs }
  else baseReq 1 (pinSrc o == 1)

def pinDestReq (o : Opnd) : KeyReq := { cls := [1], fam := 1, mode := mEnc, algs := if pinOut o = 4 then aesAlgs else tdesAlgs }

def pinRefReq (change : Bool) : KeyReq := { cls := [1], fam := 1, mode := if change then mGen + mVer else mVer, algs := aesAlgs }

def acctField (o : Opnd) : Bytes := o.inp.drop (o.inLen - 16)

/-- A DUKPT operation's transient slots are reserved before its first fetch: three, and one more for the initial key of a record
that AUTO_REGISTER makes (03 R68; 04 R104). -/
def reserveDukpt (o : Opnd) : V Unit := do
  let _ ← reserve o (3 + b2n (bit o.opt 0))
  pure ()

/-- For a DUKPT source: the terminal record found. -/
def pinSource (o : Opnd) : V (Option Nat) := do
  if pinSrc o = 2 then pure none
  else
    reserveDukpt o
    let t ← terminalOf o (pinSrc o == 1) (bit o.opt 0)
    pure (some t)

def pinAccept (o : Opnd) (t : Option Nat) : V Unit :=
  match t with
  | some t => acceptCounter o (pinSrc o == 1) t
  | none => pure ()

/-- The PIN key of the source and its ALG: derived, or fetched (04 Table 4.4). -/
def pinKey (o : Opnd) (t : Option Nat) : V (Nat × Bytes) := do
  match t with
  | some t =>
    let tdes := pinSrc o == 1
    let x ← workingKey o tdes t 0x1000 0 (if tdes then 4 else pinWork o + 1) mDec
    pure (x.alg.toNat, x.key)
  | none =>
    let (_, x) ← fetch o o.keyA (pinSrcReq o)
    pure (x.alg.toNat, x.key)

/-- Incoming block n opened and checked (04 R98); a failed check is AUTH_FAILED. -/
def pinOpenV (o : Opnd) (k : Nat × Bytes) (n : Nat) : V (List Nat) := do
  engine o
  let sz := pinBlockSize (pinIn o)
  match openPin (pinIn o) k.1 k.2 (slice o.inp (n * sz) sz) (acctField o) with
  | some pin => pure pin
  | none => failV stAuth

def runPinTranslate (o : Opnd) : V Answer := do
  probe o o.keyA (pinSrcReq o)
  probe o o.keyB (pinDestReq o)
  let t ← pinSource o
  standing o.d do
    pinAccept o t
    standing o.d do
      let k ← pinKey o t
      let pin ← pinOpenV o k 0
      let (_, y) ← fetch o o.keyB (pinDestReq o)
      let rnd ← if fmtRandom (pinOut o) then random o 8 else pure []
      engine o
      pure { out := sealField (pinOut o) y.alg.toNat y.key (buildField (pinOut o) pin rnd) (acctField o) }

/-- The PIN reference of key slot i and the account field (04 R100), when it was made under the slot's key. -/
def findRef (o : Opnd) (i : Nat) : V (Option Nat) :=
  indexFind o.p 2 (toLE 2 i ++ acctField o) fun b =>
    byteAt b 0 == 7 && (byteAt b 1).toNat == o.p && leAt b 4 2 == i && slice b 0x20 16 == acctField o

def refBytes (p i gen : Nat) (acct v : Bytes) : Bytes :=
  fit 128 ([0x07, BitVec.ofNat 8 p, 0, 0] ++ toLE 2 i ++ toLE 2 gen ++ zeros 24 ++ fit 16 acct ++ v)

/-- VERIFY and CHANGE need a reference made under the key the slot holds now. -/
def needRef (o : Opnd) : V Nat := do
  let (i, _) ← keySlot o o.keyB
  match ← findRef o i with
  | none => failV stMissing
  | some r =>
    let b ← getRec (r / 32) (r % 32)
    let s ← getV
    need (leAt b 6 2 == (s.slot i).gen.toNat) stMissing
    pure r

/-- The stored value compared with the value of an opened PIN (04 R90). -/
def refCompare (o : Opnd) (y : Slot) (r : Nat) (pin : List Nat) : V Unit := do
  let b ← getRec (r / 32) (r % 32)
  need (slice b 0x30 16 == refValue y.alg.toNat y.key pin (acctField o)) stAuth

def runPinVerify (o : Opnd) : V Answer := do
  probe o o.keyA (pinSrcReq o)
  probe o o.keyB (pinRefReq false)
  let t ← pinSource o
  standing o.d do
    let r ← needRef o
    pinAccept o t
    standing o.d do
      let k ← pinKey o t
      let pin ← pinOpenV o k 0
      let (_, y) ← fetch o o.keyB (pinRefReq false)
      refCompare o y r pin
      pure {}

def runPinChange (o : Opnd) : V Answer := do
  probe o o.keyA (pinSrcReq o)
  probe o o.keyB (pinRefReq true)
  let t ← pinSource o
  standing o.d do
    let r ← needRef o
    pinAccept o t
    standing o.d do
      let k ← pinKey o t
      let old ← pinOpenV o k 0
      let (i, y) ← fetch o o.keyB (pinRefReq true)
      refCompare o y r old
      let new ← pinOpenV o k 1
      putRecV (r / 32) (r % 32) (refBytes o.p i y.gen.toNat (acctField o) (refValue y.alg.toNat y.key new (acctField o)))
      pure { durable := true }

def runPinSet (o : Opnd) : V Answer := do
  probe o o.keyA (pinSrcReq o)
  probe o o.keyB (pinRefReq true)
  let t ← pinSource o
  standing o.d do
    pinAccept o t
    standing o.d do
      let k ← pinKey o t
      let pin ← pinOpenV o k 0
      let (i, y) ← fetch o o.keyB (pinRefReq true)
      let b := refBytes o.p i y.gen.toNat (acctField o) (refValue y.alg.toNat y.key pin (acctField o))
      match ← findRef o i with
      | some r => putRecV (r / 32) (r % 32) b
      | none =>
        let _ ← newIndexed o.p 2 (toLE 2 i ++ acctField o) b
        pure ()
      pure { durable := true }

/-- Terminal and PIN reference lookups of a PIN operation. -/
def pinTerminalKey (s : State) (o : Opnd) : List (Nat × Bytes) :=
  if pinSrc o = 2 then [] else [(1, toLE 2 (s.absSlot o.p o.keyA) ++ ksnId (pinSrc o == 1) o.inl)]

def pinRefKeys (s : State) (o : Opnd) : List (Nat × Bytes) :=
  pinTerminalKey s o ++ [(2, toLE 2 (s.absSlot o.p o.keyB) ++ acctField o)]

def formPinTranslate : Form :=
  { opts := pinOpts, useA := fun _ => true, useB := true, out := fun o => some (pinBlockSize (pinOut o)),
    check := pinCheck true 1, random := fun o => fmtRandom (pinOut o), lookups := pinTerminalKey, run := runPinTranslate }
def formPinVerify : Form :=
  { opts := pinOpts, useA := fun _ => true, useB := true, check := pinCheck false 1, lookups := pinRefKeys,
    run := runPinVerify }
def formPinChange : Form :=
  { opts := pinOpts, useA := fun _ => true, useB := true, check := pinCheck false 2, lookups := pinRefKeys,
    run := runPinChange }
def formPinSet : Form :=
  { opts := pinOpts, useA := fun _ => true, useB := true, check := pinCheck false 1, lookups := pinRefKeys,
    run := runPinSet }

/-! ### DUKPT family (04 Table 4.7) -/

def dkKind (o : Opnd) : Nat := bits o.param 0 2
def dkTdes (o : Opnd) : Bool := dkKind o == 1
def dkPolicy (o : Opnd) : Nat := bits o.param 2 2
def dkPad (o : Opnd) : Nat := bits o.param 4 4
def dkTlen (o : Opnd) : Nat := bits o.param 8 5
def dkWork (o : Opnd) : Nat := bits o.param 18 2
def dkBoth (o : Opnd) : Nat := bits o.param 20 1
def dkReq (o : Opnd) : KeyReq := baseReq 2 (dkTdes o)

/-- PARAM bits that only some operations define: POLICY, PAD and TLEN, WORK_ALG and BOTH. -/
def dkParamOk (o : Opnd) (policy mac work : Bool) : Bool :=
  decide (dkKind o ≤ 1) && bits o.param 13 5 == 0 && bits o.param 21 11 == 0
    && (if policy then dkPolicy o != 3 else dkPolicy o == 0)
    && (if mac then
          (if dkTdes o then (dkPad o == 1 || dkPad o == 2) && decide (4 ≤ dkTlen o ∧ dkTlen o ≤ 8)
           else dkPad o == 0 && decide (4 ≤ dkTlen o ∧ dkTlen o ≤ 16))
        else dkPad o == 0 && dkTlen o == 0)
    && (if work && !dkTdes o then dkWork o != 3 else dkWork o == 0 && dkBoth o == 0)

def noInput (o : Opnd) : Bool := o.inLen == 0 && o.auxLen == 0

def dkIdCheck (policy : Bool) (o : Opnd) : Option Word16 :=
  firstFail [(dkParamOk o policy false false && noInput o && idOk (dkTdes o) o.inl, stBad)]

def runDukptRegister (o : Opnd) : V Answer := do
  probe o o.keyA (dkReq o)
  let _ ← reserve o 1
  let (i, _) ← keySlot o o.keyA
  match ← findTerminal o i (ksnId (dkTdes o) o.inl) with
  | some _ => pure { inl := [0x01] ++ zeros 7 }
  | none =>
    let _ ← makeTerminal o (dkTdes o) (dkPolicy o) (ksnId (dkTdes o) o.inl) 0
    pure { inl := zeros 8, durable := true }

def runDukptStatus (o : Opnd) : V Answer := do
  probe o o.keyA (dkReq o)
  let t ← terminalOf o (dkTdes o) false
  let b ← getRec (t / 32) (t % 32)
  pure { inl := toBE 4 (trHighest b) ++ [BitVec.ofNat 8 (trPolicy b), BitVec.ofNat 8 (popCount 4 (trMask b)), 0, 0] }

def runDukptRetire (o : Opnd) : V Answer := do
  probe o o.keyA (dkReq o)
  let (i, _) ← keySlot o o.keyA
  let t ← terminalOf o (dkTdes o) false
  dropIndexed o.p 1 (toLE 2 i ++ ksnId (dkTdes o) o.inl) t
  pure { durable := true }

/-- MAC and data operations: the terminal's record, the counter accepted, the working key by 04 R105, and the work under it. -/
def dkWorking (o : Opnd) (usage variant mode : Nat) (work : Nat × Bytes → V Answer) : V Answer := do
  probe o o.keyA (dkReq o)
  reserveDukpt o
  let t ← terminalOf o (dkTdes o) (bit o.opt 0)
  standing o.d do
    acceptCounter o (dkTdes o) t
    standing o.d do
      let x ← workingKey o (dkTdes o) t usage variant (if dkTdes o then 4 else dkWork o + 1) mode
      work (x.alg.toNat, x.key)

/-- MAC of a message: CMAC-AES, or ISO 9797-1 algorithm 3. -/
def dkMac (o : Opnd) (k : Nat × Bytes) (m : Bytes) : Bytes :=
  Config.take (dkTlen o) (if dkTdes o then Config.retailMac (dkPad o) k.2 m else Config.cmac k.1 k.2 m)

def msgLimit : Nat := 16 * 2 ^ 20

/-- The counter that a verb presents to a terminal record, as a run remembers it (05 R147): base key slot, initial key ID, counter. -/
def State.ksnMark (s : State) (o : Opnd) : Option (Nat × Bytes × Nat) :=
  let mark := fun tdes => some (s.absSlot o.p o.keyA, ksnId tdes o.inl, ksnCtr tdes o.inl)
  if o.fam = 1 ∧ pinSrc o ≤ 1 then mark (pinSrc o == 1)
  else if o.fam = 2 ∧ 4 ≤ o.op ∧ o.op ≤ 7 then mark (dkTdes o)
  else none

/-- An empty message with padding method 1 (04 R107). -/
def emptyPad1 (o : Opnd) (n : Nat) : Bool := dkTdes o && dkPad o == 1 && n == 0

def runDukptMacGenerate (o : Opnd) : V Answer :=
  dkWorking o (if dkBoth o = 1 then 0x2002 else 0x2001) 2 mGen fun k => do
    engine o
    pure { out := dkMac o k o.inp }

def runDukptMacVerify (o : Opnd) : V Answer :=
  dkWorking o (if dkBoth o = 1 then 0x2002 else 0x2000) 1 mVer fun k => do
    engine o
    need (dkMac o k (o.inp.take o.auxLen) == o.inp.drop o.auxLen) stAuth
    pure {}

def dkBlock (o : Opnd) : Nat := if dkTdes o then 8 else 16
def dkText (o : Opnd) : Bytes := o.inp.drop (dkBlock o)

def runDukptDataDecrypt (o : Opnd) : V Answer :=
  dkWorking o (if dkBoth o = 1 then 0x3002 else 0x3000) 3 mDec fun k => do
    let t := cbcDec k.1 k.2 (o.inp.take (dkBlock o)) (dkText o)
    engine o t
    pure { out := t }

def runDukptDataEncrypt (o : Opnd) : V Answer :=
  dkWorking o (if dkBoth o = 1 then 0x3002 else 0x3001) 4 mEnc fun k => do
    let t := cbcEnc k.1 k.2 (o.inp.take (dkBlock o)) (dkText o)
    engine o t
    pure { out := t }

def dkDataCheck (o : Opnd) : Option Word16 :=
  firstFail [
    (dkParamOk o false false true && ksnOk (dkTdes o) o.inl && o.auxLen == 0
      && decide (dkBlock o ≤ o.inLen) && (o.inLen - dkBlock o) % dkBlock o == 0, stBad),
    (decide (o.inLen ≤ 2 ^ 20 + dkBlock o), stLimit)]

/-- INITIAL_DERIVE: PARAM [15:0] is the destination, [17:16] KIND. It is a step from the base derivation key, which every member
can replay (14 R341), and reads no terminal record (DEDUCED, notes/assumptions/77.md). -/
def idTdes (o : Opnd) : Bool := bits o.param 16 2 == 1

def runInitialDerive (o : Opnd) : V Answer := do
  let q := baseReq 2 (idTdes o)
  probe o o.keyA q
  let _ ← reserve o 1
  let (i, x) ← fetch o o.keyA q
  engine o
  -- family bits DUKPT, KEY_BLOCK and RKL; mode bits DERIVE and EXPORTABLE (04 R105)
  storeKey o (bits o.param 0 16) (i, x)
    { alg := x.alg.toNat, cls := 0, usage := 0x52 + mDerive + mExport } (initialKey x.alg.toNat x.key (ksnId (idTdes o) o.inl))

/-- The terminal lookup of a DUKPT operation. -/
def dkLookup (s : State) (o : Opnd) : List (Nat × Bytes) :=
  [(1, toLE 2 (s.absSlot o.p o.keyA) ++ ksnId (dkTdes o) o.inl)]

def formDukptRegister : Form := { useA := fun _ => true, check := dkIdCheck true, lookups := dkLookup, run := runDukptRegister }
def formDukptStatus : Form := { useA := fun _ => true, check := dkIdCheck false, lookups := dkLookup, run := runDukptStatus }
def formDukptRetire : Form := { useA := fun _ => true, check := dkIdCheck false, lookups := dkLookup, run := runDukptRetire }
def formDukptMacGenerate : Form :=
  { opts := fun _ => 1, useA := fun _ => true, out := fun o => some (dkTlen o),
    check := fun o => firstFail [
      (dkParamOk o false true true && ksnOk (dkTdes o) o.inl && o.auxLen == 0 && !emptyPad1 o o.inLen, stBad),
      (decide (o.inLen ≤ msgLimit), stLimit)],
    lookups := dkLookup, run := runDukptMacGenerate }
def formDukptMacVerify : Form :=
  { opts := fun _ => 1, useA := fun _ => true,
    check := fun o => firstFail [
      (dkParamOk o false true true && ksnOk (dkTdes o) o.inl && o.inLen == o.auxLen + dkTlen o && !emptyPad1 o o.auxLen, stBad),
      (decide (o.auxLen ≤ msgLimit), stLimit)],
    lookups := dkLookup, run := runDukptMacVerify }
def formDukptDataDecrypt : Form :=
  { opts := fun _ => 1, useA := fun _ => true, out := fun o => some (o.inLen - dkBlock o), check := dkDataCheck, lookups := dkLookup, run := runDukptDataDecrypt }
def formDukptDataEncrypt : Form :=
  { opts := fun _ => 1, useA := fun _ => true, out := fun o => some (o.inLen - dkBlock o), check := dkDataCheck, lookups := dkLookup, run := runDukptDataEncrypt }
def formInitialDerive : Form :=
  { useA := fun _ => true,
    check := fun o => firstFail [(decide (bits o.param 16 2 ≤ 1) && bits o.param 18 14 == 0 && noInput o && idOk (idTdes o) o.inl, stBad)],
    run := runInitialDerive }

end Sys2Proof.Machine
end

