-- ==== Sys2Proof/Machine/Sealed.lean ====
section
/-! DEFINITION. Sealed private keys (09 R237 to R239): written, opened and deleted, and how a SIGN-class slot
gives its private key. -/

namespace Sys2Proof.Machine

/-- Plaintext length of a sealed private key (09 Table 9.5). -/
def sealedLen (alg size : Nat) : Nat := if alg = 0x0B then 48 else 4 + 112 * size

def sealNonce (num : Nat) : Bytes := toBE 8 num ++ zeros 4
def sealAad (alg num : Nat) : Bytes := BitVec.ofNat 8 alg :: toBE 8 num

/-- The records of a blob: head and continuations in NEXT order, by page indexes (09 R238). -/
def sealedChain (x : VPage) : Nat → Nat → List Nat
  | 0, _ => []
  | f + 1, i => i :: sealedChain x f (byteAt (x.rc i) 0x0C).toNat

/-- LENGTH and the ciphertext and tag of a head record, or none where a record is of another type or partition. -/
def sealedBlob (x : VPage) (p i : Nat) : Option Bytes :=
  let len := leAt (x.rc i) 8 2
  let ch := sealedChain x ((len + 95) / 96) i
  if (x.recType i = 0x0C) ∧ (byteAt (x.rc i) 1).toNat = p ∧
      ((ch.drop 1).all fun j => x.recType j == 0x0D && (byteAt (x.rc j) 1).toNat == p)
  then some ((ch.flatMap fun j => slice (x.rc j) 0x20 96).take len) else none

/-- A failure to open is KEY_SLOT_CORRUPT and counted as a corrupt slot (09 R238). -/
def sealedCorrupt {α : Type} (p : Nat) : V α := do
  modV fun s => s.countCorrupt p
  failV stCorrupt

/-- The sealed private key of slot image x of partition p, opened; size is the RSA modulus in 32-byte units. -/
def openSealed (p : Nat) (x : Slot) (size : Nat) : V Bytes := do
  let num := x.nonce.toNat
  let alg := x.alg.toNat
  if num = 0 then sealedCorrupt p
  else
    needObj 0 (bits num 5 29)
    let s ← getV
    let pg := s.page (bits num 5 29)
    match sealedBlob pg p (bits num 0 5) with
    | none => sealedCorrupt p
    | some b =>
      let ct := b.take (b.length - 16)
      let pt := gcmCrypt 3 x.key (sealNonce num) ct
      if leAt (pg.rc (bits num 0 5)) 4 4 = bits num 34 19
          ∧ gcmTag 3 x.key (sealNonce num) (sealAad alg num) ct 16 = b.drop (b.length - 16)
          ∧ pt.length = sealedLen alg size ∧ (alg = 0x0B ∨ leAt pt 0 2 = 256 * size)
      then pure pt else sealedCorrupt p

/-- The private key a SIGN-class slot gives a PAU (09 R237). -/
def privateKey (p : Nat) (x : Slot) (size : Nat) : V Bytes :=
  if x.alg = 0x0B ∨ x.alg = 0x0C then openSealed p x size else pure x.key

/-- A page of partition p with n free records: its numbered chain's head, else a new page. -/
def pageWithRoom (p n : Nat) : V Nat := do
  needObj 0 (1 + p)
  let s ← getV
  let h := (s.part p).freeNum
  if h = 0 then takePage p 0
  else
    needObj 0 h
    let s ← getV
    if n ≤ ((List.range 31).filter fun i => (s.page h).recType i == 0).length then pure h else takePage p 0

/-- The records of a blob written: head at the first index, each pointing to the next. -/
def putSealed (pg p alg : Nat) (b : Bytes) : List Nat → Nat → V Unit
  | [], _ => pure ()
  | i :: r, k => do
    let s ← getV
    let reuse := (leAt ((s.page pg).rc i) 4 4 + 1) % 2 ^ 19
    putRecV pg i ([if k = 0 then 0x0C else 0x0D, BitVec.ofNat 8 p, 0, 0] ++ toLE 4 reuse
      ++ toLE 2 (if k = 0 then b.length else 0) ++ zeros 2 ++ [BitVec.ofNat 8 (r.headD 0)] ++ zeros 19 ++ slice b (96 * k) 96)
    putSealed pg p alg b r (k + 1)

/-- A private key sealed into new records: the record number of its head. -/
def newSealed (p alg : Nat) (recordKey pt : Bytes) : V Nat := do
  let n := (pt.length + 16 + 95) / 96
  let s ← getV
  need ((s.part p).recordsUsed + n ≤ (s.part p).recordQuota) stAccess
  let pg ← pageWithRoom p n
  let s ← getV
  let free := (List.range 31).filter fun i => (s.page pg).recType i == 0
  let is := free.take n
  let i := is.headD 0
  let num := recordNumber s pg i ((leAt ((s.page pg).rc i) 4 4 + 1) % 2 ^ 19)
  let ct := gcmCrypt 3 recordKey (sealNonce num) pt
  putSealed pg p alg (ct ++ gcmTag 3 recordKey (sealNonce num) (sealAad alg num) ct 16) is 0
  modPart p fun x =>
    let x := { x with recordsUsed := x.recordsUsed + n }
    if x.freeNum = pg then (if free.length ≤ n then { x with freeNum := (s.page pg).nextFree } else x)
    else if free.length ≤ n then x else { x with freeNum := pg }
  modV fun s' => if (s.part p).freeNum ≠ pg ∧ n < free.length then
      s'.setPage pg { s'.page pg with nextFree := (s.part p).freeNum, dirty := true } else s'
  pure num

/-- The sealed records of a slot are deleted with it (09 R239). -/
def dropSealed (p : Nat) (x : Slot) : V Unit :=
  if (x.alg = 0x0B ∨ x.alg = 0x0C) ∧ x.nonce ≠ 0 then do
    let num := x.nonce.toNat
    let pg := bits num 5 29
    needObj 0 pg
    let s ← getV
    let y := s.page pg
    if y.recType (bits num 0 5) = 0x0C ∧ (byteAt (y.rc (bits num 0 5)) 1).toNat = p then
      (sealedChain y ((leAt (y.rc (bits num 0 5)) 8 2 + 95) / 96) (bits num 0 5)).forM fun i => freeRec p 0 pg i
    else pure ()
  else pure ()

end Sys2Proof.Machine
end

