-- ==== Sys2Proof/Machine/MacGeneric.lean ====
section
/-! DEFINITION. The MAC, EMV, generic and support families (04 R106 to R109, R119 to R121) as verbs. -/

namespace Sys2Proof.Machine

/-! ### MAC (04 Table 4.9) -/

def macAlgo (o : Opnd) : Nat := bits o.param 0 4
def macPad (o : Opnd) : Nat := bits o.param 4 4
def macTlen (o : Opnd) : Nat := bits o.param 8 5

def macParamOk (o : Opnd) : Bool :=
  bits o.param 13 19 == 0 && decide (macAlgo o ≤ 3)
    && (if macAlgo o = 3 then macPad o == 1 || macPad o == 2 else macPad o == 0)
    && (if macAlgo o = 0 then decide (4 ≤ macTlen o ∧ macTlen o ≤ 16)
        else if macAlgo o = 2 then decide (12 ≤ macTlen o ∧ macTlen o ≤ 16)
        else decide (4 ≤ macTlen o ∧ macTlen o ≤ 8))

def macReq (o : Opnd) (mode : Nat) : KeyReq :=
  { cls := [1], fam := 3, mode := mode,
    algs := if macAlgo o = 0 ∨ macAlgo o = 2 then aesAlgs else if macAlgo o = 1 then tdesAlgs else [4] }

/-- An empty message with padding method 1 leaves nothing to authenticate (04 R107). -/
def macEmptyBad (o : Opnd) (n : Nat) : Bool := macAlgo o == 3 && macPad o == 1 && n == 0

/-- The FCE that runs a GCM request, as ENGINE of 07 Table 7.7: one of those that serve the core, which the spec leaves open
(notes/assumptions/14.md). -/
def State.fceOf (s : State) (cl n : Nat) : Nat :=
  let l := s.enginesFor cl 0
  let k := l.getD (Config.freeNat 1 n % l.length) (4 * cl)
  2 * (k / 4) + k % 4

/-- A MAC's leftmost TLEN bytes (04 R106). -/
def macValue (o : Opnd) (x : Slot) (m : Bytes) : Bytes :=
  Config.take (macTlen o)
    (if macAlgo o = 3 then Config.retailMac (macPad o) x.key m else Config.cmac x.alg.toNat x.key m)

def runMacGenerate (o : Opnd) : V Answer := do
  probe o o.keyA (macReq o mGen)
  if macAlgo o = 2 then
    let (x, n) ← fetchGcm o o.keyA (macReq o mGen)
    engine o
    let s ← getV
    let nonce := nonceBytes s o.p (s.fceOf o.cl n) n
    pure { out := nonce ++ gcmTag x.alg.toNat x.key nonce o.inp [] (macTlen o), inl := nonce.drop 4 }
  else
    let (_, x) ← fetch o o.keyA (macReq o mGen)
    engine o
    pure { out := macValue o x o.inp }

def runMacVerify (o : Opnd) : V Answer := do
  probe o o.keyA (macReq o mVer)
  let (_, x) ← fetch o o.keyA (macReq o mVer)
  engine o
  let m := o.inp.take o.auxLen
  let v := if macAlgo o = 2 then gcmTag x.alg.toNat x.key (o.inl.take 12) m [] (macTlen o) else macValue o x m
  need (v == o.inp.drop o.auxLen) stAuth
  pure {}

def formMacGenerate : Form :=
  { useA := fun _ => true, out := fun o => some (macTlen o + if macAlgo o = 2 then 12 else 0),
    check := fun o => firstFail [
      (macParamOk o && allZero o.inl && o.auxLen == 0 && !macEmptyBad o o.inLen, stBad), (decide (o.inLen ≤ msgLimit), stLimit)],
    run := runMacGenerate }
def formMacVerify : Form :=
  { useA := fun _ => true,
    check := fun o => firstFail [
      (macParamOk o && (if macAlgo o = 2 then allZero (o.inl.drop 12) else allZero o.inl)
        && o.inLen == o.auxLen + macTlen o && !macEmptyBad o o.auxLen, stBad),
      (decide (o.auxLen ≤ msgLimit), stLimit)],
    run := runMacVerify }

/-! ### EMV (04 R109) -/

def emvAtc (o : Opnd) : Nat := bits o.param 0 16
def emvAes (o : Opnd) : Bool := bits o.param 16 2 == 1
def emvMethod (o : Opnd) : Nat := bits o.param 20 2

def emvReq (o : Opnd) : KeyReq := { cls := [0], fam := 4, mode := mDerive, algs := if emvAes o then aesAlgs else [4] }

def emvCheck (o : Opnd) : Option Word16 :=
  let resp := o.inLen - o.auxLen
  firstFail [
    (decide (bits o.param 16 2 ≤ 1) && bits o.param 18 2 == 0 && emvMethod o != 3 && bits o.param 22 10 == 0
      && decide (o.auxLen ≤ o.inLen)
      && (if emvMethod o = 0 then resp == 0 else if emvMethod o = 1 then resp == 2 else decide (4 ≤ resp ∧ resp ≤ 12)), stBad),
    (decide (o.auxLen ≤ 1024), stLimit)]

def runArqcVerify (o : Opnd) : V Answer := do
  probe o o.keyA (emvReq o)
  let _ ← reserve o 2
  let (i, x) ← fetch o o.keyA (emvReq o)
  engine o
  let alg := x.alg.toNat
  let icc ← throughSlot o 0 (i, x) (derivDecl 4 alg) (Config.take (algLen alg) (Config.emvIcc alg x.key (o.inl.take 8)))
  let (_, ses) ← throughSlot o 1 icc
    { alg := alg, cls := 1, usage := 2 ^ 3 + mVer + if emvMethod o = 0 then 0 else mGen }
    (Config.take (algLen alg) (Config.emvSession alg icc.2.key (emvAtc o)))
  let sk := ses.key
  let data := o.inp.take o.auxLen
  let ac := Config.take 8 (if emvAes o then Config.cmac alg sk data else Config.retailMac 2 sk data)
  need (ac == o.inl.drop 8) stAuth
  let resp := o.inp.drop o.auxLen
  let arpc := Config.take (if emvMethod o = 1 then 8 else 4) (Config.emvArpc (emvMethod o) alg sk (o.inl.drop 8) resp)
  pure { inl := if emvMethod o = 0 then [] else fit 8 arpc }

def formArqcVerify : Form := { useA := fun _ => true, check := emvCheck, run := runArqcVerify }

/-! ### Generic (04 R119) -/

def genMode (o : Opnd) : Nat := bits o.param 0 2
def genReq (mode : Nat) : KeyReq := { cls := [1], fam := 8, mode := mode, algs := cipherAlgs }

def genCheck (o : Opnd) : Option Word16 :=
  firstFail [
    (decide (o.param ≤ 2) && o.auxLen == 0 && (genMode o != 0 || allZero o.inl), stBad), (decide (o.inLen ≤ 2 ^ 20), stLimit)]

/-- What depends on the key's algorithm, checked between probe and fetch (04 R87): whole blocks in modes 0 and 1,
and for TDES no inline bytes beyond the first 8. -/
def genAlgCheck (o : Opnd) : V Unit := do
  let (i, _) ← keySlot o o.keyA
  let s ← getV
  let n := algBlock (s.slot i).alg.toNat
  need ((genMode o = 2 || o.inLen % n == 0) && (n == 16 || allZero (o.inl.drop 8))) stBad

def runGenericEncrypt (o : Opnd) : V Answer := do
  probe o o.keyA (genReq mEnc)
  genAlgCheck o
  let (_, x) ← fetch o o.keyA (genReq mEnc)
  let alg := x.alg.toNat
  let iv := o.inl.take (algBlock alg)
  let t := if genMode o = 0 then ecbEnc alg x.key o.inp else if genMode o = 1 then cbcEnc alg x.key iv o.inp
    else ctrMode alg x.key iv o.inp
  engine o t
  pure { out := t }

def runGenericDecrypt (o : Opnd) : V Answer := do
  probe o o.keyA (genReq mDec)
  genAlgCheck o
  let (_, x) ← fetch o o.keyA (genReq mDec)
  let alg := x.alg.toNat
  let iv := o.inl.take (algBlock alg)
  let t := if genMode o = 0 then ecbDec alg x.key o.inp else if genMode o = 1 then cbcDec alg x.key iv o.inp
    else ctrMode alg x.key iv o.inp
  engine o t
  pure { out := t }

def gcmTlen (o : Opnd) : Nat := bits o.param 0 5
def gcmReq (mode : Nat) : KeyReq := { cls := [1], fam := 8, mode := mode, algs := aesAlgs }
def gcmParamOk (o : Opnd) : Bool := decide (12 ≤ o.param ∧ o.param ≤ 16)

def runGcmEncrypt (o : Opnd) : V Answer := do
  probe o o.keyA (gcmReq mEnc)
  let (x, n) ← fetchGcm o o.keyA (gcmReq mEnc)
  let s ← getV
  let nonce := nonceBytes s o.p (s.fceOf o.cl n) n
  let ct := gcmCrypt x.alg.toNat x.key nonce (o.inp.drop o.auxLen)
  engine o (nonce ++ ct)
  pure { out := nonce ++ ct ++ gcmTag x.alg.toNat x.key nonce (o.inp.take o.auxLen) ct (gcmTlen o), inl := nonce.drop 4 }

/-- Plaintext is streamed to the output before the tag is known; on a failure it has been written (07 R204). -/
def runGcmDecrypt (o : Opnd) : V Answer := do
  probe o o.keyA (gcmReq mDec)
  let (_, x) ← fetch o o.keyA (gcmReq mDec)
  let n := o.inLen - o.auxLen - gcmTlen o
  let ct := slice o.inp o.auxLen n
  let pt := gcmCrypt x.alg.toNat x.key (o.inl.take 12) ct
  engine o pt
  if gcmTag x.alg.toNat x.key (o.inl.take 12) (o.inp.take o.auxLen) ct (gcmTlen o) = o.inp.drop (o.auxLen + n) then
    pure { out := pt }
  else stopV (.fail stAuth pt)

def formGenericEncrypt : Form := { useA := fun _ => true, out := fun o => some o.inLen, check := genCheck, run := runGenericEncrypt }
def formGenericDecrypt : Form := { useA := fun _ => true, out := fun o => some o.inLen, check := genCheck, run := runGenericDecrypt }
def formGcmEncrypt : Form :=
  { useA := fun _ => true, out := fun o => some (12 + (o.inLen - o.auxLen) + gcmTlen o),
    check := fun o => firstFail [(gcmParamOk o && allZero o.inl && decide (o.auxLen ≤ o.inLen), stBad)], run := runGcmEncrypt }
def formGcmDecrypt : Form :=
  { useA := fun _ => true, out := fun o => some (o.inLen - o.auxLen - gcmTlen o),
    check := fun o => firstFail [(gcmParamOk o && allZero (o.inl.drop 12) && decide (o.auxLen + gcmTlen o ≤ o.inLen), stBad)],
    run := runGcmDecrypt }

/-! ### Support: digests (04 R120) -/

def dgAlgo (o : Opnd) : Nat := bits o.param 0 4
def dgKeyed (o : Opnd) : Bool := bit o.param 4
def dgVerify (o : Opnd) : Bool := bit o.param 5
/-- Output length of a digest algorithm code. -/
def digestLen (a : Nat) : Nat := if a = 1 ∨ a = 4 then 32 else if a = 2 then 48 else 64
def dgLen (o : Opnd) : Nat := if dgAlgo o ≤ 5 then digestLen (dgAlgo o) else bits o.param 16 13
def dgMsg (o : Opnd) : Nat := if dgVerify o then o.auxLen else o.inLen

def dgCheck (o : Opnd) : Option Word16 :=
  let exp := o.inLen - o.auxLen
  firstFail [
    (decide (1 ≤ dgAlgo o ∧ dgAlgo o ≤ 7) && bits o.param 6 10 == 0 && bits o.param 29 3 == 0
      && (if dgAlgo o ≤ 5 then bits o.param 16 13 == 0 else decide (1 ≤ dgLen o ∧ dgLen o ≤ 4096))
      && (dgKeyed o || !dgVerify o) && allZero o.inl
      && (if dgVerify o then decide (o.auxLen ≤ o.inLen ∧ 1 ≤ exp ∧ exp ≤ 64 ∧ exp ≤ dgLen o) else o.auxLen == 0), stBad),
    (decide (dgMsg o ≤ 64 * 2 ^ 20), stLimit)]

def dgReq (o : Opnd) : KeyReq := { cls := [1], fam := 9, mode := if dgVerify o then mVer else mGen, algs := [6] }

/-- The digest, HMAC or KMAC value of a message. -/
def digestValue (algo n : Nat) (key : Option Bytes) (m : Bytes) : Bytes :=
  Config.take n (match key with
    | none => Config.digest algo m
    | some k => if algo ≤ 5 then Config.hmac algo k m else Config.kmac algo k m n)

def runSupportDigest (o : Opnd) : V Answer := do
  let m := o.inp.take (dgMsg o)
  -- what lies beyond the declared length is discarded (05 R150)
  let fed := match o.decl with
    | some n => m.take n
    | none => m
  let key ←
    if dgKeyed o then do
      probe o o.keyA (dgReq o)
      let (_, x) ← fetch o o.keyA (dgReq o)
      pure (some x.key)
    else pure none
  engine o
  modV fun s => if fed.length < m.length then s.flag o.d cfTrunc else s
  let v := digestValue (dgAlgo o) (dgLen o) key fed
  if dgVerify o then
    need (v.take (o.inLen - o.auxLen) == o.inp.drop o.auxLen) stAuth
    pure {}
  else pure { out := v }

def runSupportCompare (o : Opnd) : V Answer := do
  engine o
  need (o.inp.take o.auxLen == o.inp.drop o.auxLen) stAuth
  pure {}

def runSupportRandom (o : Opnd) : V Answer := do
  let b ← random o o.auxLen
  pure { out := b }

def formSupportDigest : Form :=
  { useA := dgKeyed, out := fun o => if dgVerify o then none else some (dgLen o), check := dgCheck, run := runSupportDigest }
def formSupportCompare : Form :=
  { check := fun o => firstFail [
      (o.param == 0 && allZero o.inl && decide (1 ≤ o.auxLen) && o.inLen == 2 * o.auxLen, stBad),
      (decide (o.auxLen ≤ 4096), stLimit)],
    run := runSupportCompare }
def formSupportRandom : Form :=
  { out := fun o => some o.auxLen, random := fun _ => true,
    check := fun o => firstFail [
      (o.param == 0 && allZero o.inl && o.inLen == 0 && decide (1 ≤ o.auxLen), stBad), (decide (o.auxLen ≤ 65536), stLimit)],
    run := runSupportRandom }

/-! ### Support: signatures -/

def sgScheme (o : Opnd) : Nat := bits o.param 0 4
def sgUnits (o : Opnd) : Nat := bits o.param 8 5
def sgParamOk (o : Opnd) : Bool :=
  decide (1 ≤ sgScheme o ∧ sgScheme o ≤ 5) && bits o.param 4 4 == 0 && bits o.param 13 19 == 0
    && (if 4 ≤ sgScheme o then decide (8 ≤ sgUnits o ∧ sgUnits o ≤ 16) else sgUnits o == 0) && allZero o.inl
def sigLen (scheme units : Nat) : Nat :=
  if scheme = 1 then 3309 else if scheme = 2 then 64 else if scheme = 3 then 96 else 32 * units
def pubLen (scheme units : Nat) : Nat :=
  if scheme = 1 then 1952 else if scheme = 2 then 65 else if scheme = 3 then 97 else 32 * units
def signAlg (scheme : Nat) : Nat := if scheme = 1 then 8 else if scheme = 2 then 0x0A else if scheme = 3 then 0x0B else 0x0C
def sgReq (o : Opnd) : KeyReq := { cls := [2], fam := 9, mode := mGen, algs := [signAlg (sgScheme o)] }

/-- Random bytes a signature takes (09 Table 9.4; PSS takes a salt of the digest's length). -/
def signRandom (scheme : Nat) : Nat := if scheme = 1 ∨ scheme = 4 then 32 else if scheme = 2 then 40 else if scheme = 3 then 56 else 0

/-- A signature of a message under a private key. -/
def signature (scheme units : Nat) (priv ctx msg rnd : Bytes) : Bytes :=
  Config.take (sigLen scheme units)
    (if scheme = 1 then Config.mldsaSign priv ctx msg rnd
     else if scheme ≤ 3 then
       Config.ecdsaSign (scheme == 3) priv (Config.take (if scheme = 2 then 32 else 48) (Config.digest (scheme - 1) msg)) rnd
     else Config.rsaSign scheme priv msg rnd)

def verifySig (scheme : Nat) (pub ctx msg sig : Bytes) : Bool :=
  if scheme = 1 then Config.mldsaVerify pub ctx msg sig
  else if scheme ≤ 3 then
    Config.ecdsaVerify (scheme == 3) pub (Config.take (if scheme = 2 then 32 else 48) (Config.digest (scheme - 1) msg)) sig
  else Config.rsaVerify scheme pub msg sig

/-- A private-key signature by a slot of class SIGN: random drawn, ML-DSA bounded to 500 attempts (09 R240). -/
def signWith (o : Opnd) (x : Slot) (scheme units : Nat) (ctx msg : Bytes) : V Bytes := do
  let priv ← privateKey o.p x units
  let rnd ← if signRandom scheme = 0 then pure [] else random o (signRandom scheme)
  engine o
  need (scheme != 1 || decide (Config.mldsaAttempts priv (ctx ++ msg) rnd ≤ 500)) stEngine
  pure (signature scheme units priv ctx msg rnd)

def runSupportSign (o : Opnd) : V Answer := do
  probe o o.keyA (sgReq o)
  let (_, x) ← fetch o o.keyA (sgReq o)
  let sig ← signWith o x (sgScheme o) (sgUnits o) (o.inp.take o.auxLen) (o.inp.drop o.auxLen)
  pure { out := sig }

def runSupportVerify (o : Opnd) : V Answer := do
  let np := pubLen (sgScheme o) (sgUnits o)
  let ns := sigLen (sgScheme o) (sgUnits o)
  let rest := o.inp.drop (np + ns)
  engine o
  need (verifySig (sgScheme o) (o.inp.take np) (rest.take o.auxLen) (rest.drop o.auxLen) (slice o.inp np ns)) stAuth
  pure {}

def formSupportSign : Form :=
  { useA := fun _ => true, out := fun o => some (sigLen (sgScheme o) (sgUnits o)), random := fun _ => true,
    check := fun o => firstFail [
      (sgParamOk o && decide (o.auxLen ≤ o.inLen) && (if sgScheme o = 1 then decide (o.auxLen ≤ 255) else o.auxLen == 0), stBad),
      (decide (o.inLen - o.auxLen ≤ msgLimit), stLimit)],
    pau := fun _ => 1, run := runSupportSign }
def formSupportVerify : Form :=
  { check := fun o => firstFail [
      (sgParamOk o && decide (pubLen (sgScheme o) (sgUnits o) + sigLen (sgScheme o) (sgUnits o) + o.auxLen ≤ o.inLen)
        && (if sgScheme o = 1 then decide (o.auxLen ≤ 255) else o.auxLen == 0), stBad)],
    pau := fun _ => 1, run := runSupportVerify }

/-! ### Support: key encapsulation -/

def kemReq : KeyReq := { cls := [2], fam := 9, mode := mDec, algs := [9] }

/-- The slot a key without a source key in the partition is written to: DEPTH 1 under the anchor (04 R120). -/
def storeUnlinked (o : Opnd) (dest : Nat) (d : KeyDecl) (key : Bytes) : V Answer := do
  need (classPermitted d.alg d.cls) stUsage
  match o.keyOut with
  | some t =>
    let s ← getV
    let x := s.clearLinked d o.p key (s.nextGen t) 0
    modV fun s => s.setSlot t { x with persist := false }
    pure {}
  | none =>
    noSweep o.p
    let i ← destCheck o.p dest
    let s ← getV
    writePersist i (s.clearLinked d o.p key (s.slot i).gen 0)
    let s ← getV
    pure { inl := handleInl s o.p i, durable := true }

def kemDeclOk (inl : Bytes) : Bool := keyDeclOk inl && ((keyDecl inl).2.alg == 3 || (keyDecl inl).2.alg == 6)

def runKemEncap (o : Opnd) : V Answer := do
  need (Config.mlkemKeyOk o.inp) stBad
  let _ ← if o.keyOut.isNone then destCheck o.p (keyDecl o.inl).1 else pure 0
  let rnd ← random o 32
  engine o
  let a ← storeUnlinked o (keyDecl o.inl).1 (keyDecl o.inl).2 (Config.take 32 (Config.mlkemEncapSs o.inp rnd))
  pure { a with out := Config.take 1088 (Config.mlkemEncapCt o.inp rnd) }

def runKemDecap (o : Opnd) : V Answer := do
  probe o o.keyA kemReq
  let (i, x) ← fetch o o.keyA kemReq
  engine o
  storeKey o (keyDecl o.inl).1 (i, x) (keyDecl o.inl).2 (Config.take 32 (Config.mlkemDecap x.key o.inp))

def formKemEncap : Form :=
  { out := fun _ => some 1088, random := fun _ => true,
    check := fun o => firstFail [(o.param == 0 && o.inLen == 1184 && o.auxLen == 0 && kemDeclOk o.inl, stBad)], pau := fun _ => 1, run := runKemEncap }
def formKemDecap : Form :=
  { useA := fun _ => true,
    check := fun o => firstFail [(o.param == 0 && o.inLen == 1088 && o.auxLen == 0 && kemDeclOk o.inl, stBad)], pau := fun _ => 1, run := runKemDecap }

/-! ### Support: records, counters, time (04 R121; 15 R367) -/

def recNum (o : Opnd) : Nat := leAt o.inl 0 8

def runVaultGet (o : Opnd) : V Answer := do
  let (_, _, b) ← namedRec o.p (recNum o) 0x09
  pure { out := slice b 0x20 96 }

def runVaultPut (o : Opnd) : V Answer := do
  if bit o.opt 0 then
    let (pg, i, _) ← namedRec o.p (recNum o) 0x09
    freeRec o.p 0 pg i
    pure { inl := o.inl.take 8, durable := true }
  else if recNum o = 0 then
    let n ← newNumbered o.p 0x09 (zeros 24 ++ o.inp)
    pure { inl := toLE 8 n, durable := true }
  else
    let (pg, i, b) ← namedRec o.p (recNum o) 0x09
    putRecV pg i (b.take 0x20 ++ o.inp)
    pure { inl := o.inl.take 8, durable := true }

def runCounterInc (o : Opnd) : V Answer := do
  if recNum o = 0 then
    let n ← newNumbered o.p 0x0A []
    pure { inl := toLE 8 n, durable := true }
  else
    let (pg, i, b) ← namedRec o.p (recNum o) 0x0A
    let v := leAt b 8 8 + o.param
    need (v < 2 ^ 64) stLimit
    putRecV pg i (putAt b 8 (toLE 8 v))
    pure { inl := toLE 8 v, durable := true }

def runTimeRead (_ : Opnd) : V Answer := do
  let s ← getV
  pure { inl := toLE 8 s.time.counter.toNat }

def formVaultGet : Form :=
  { out := fun _ => some 96,
    check := fun o => firstFail [(o.param == 0 && noInput o && allZero (o.inl.drop 8), stBad)], nums := fun o => [recNum o],
    run := runVaultGet }
def formVaultPut : Form :=
  { opts := fun _ => 1,
    check := fun o => firstFail [
      (o.param == 0 && o.auxLen == 0 && o.inLen == (if bit o.opt 0 then 0 else 96) && allZero (o.inl.drop 8), stBad)],
    nums := fun o => if recNum o = 0 then [] else [recNum o], run := runVaultPut }
def formCounterInc : Form :=
  { check := fun o => firstFail [(decide (1 ≤ o.param ∧ o.param ≤ 255) && noInput o && allZero (o.inl.drop 8), stBad)],
    nums := fun o => if recNum o = 0 then [] else [recNum o], run := runCounterInc }
def formTimeRead : Form :=
  { check := fun o => firstFail [(o.param == 0 && noInput o && allZero o.inl, stBad)], run := runTimeRead }

end Sys2Proof.Machine
end

