-- ==== Sys2Proof/Machine/KeyBlocks.lean ====
section
/-! DEFINITION. Key blocks, key components and remote key loading (04 R110 to R118) as verbs. -/

namespace Sys2Proof.Machine

/-! ### ANSI X9.143 key blocks (04 R110, R111, Table 4.12) -/

/-- A row of 04 Table 4.12: usage, class, family bits, algorithms (letter, key bytes, ALG), modes (letter, mode bits). -/
structure BlockRow where
  usage : String
  cls : Nat
  fams : Nat
  algs : List (Char × Nat × Nat)
  modes : List (Char × Nat)

def aes3 : List (Char × Nat × Nat) := [('A', 16, 1), ('A', 24, 2), ('A', 32, 3)]
def tdes1 : List (Char × Nat × Nat) := [('T', 16, 4)]
def tdes2 : List (Char × Nat × Nat) := [('T', 16, 4), ('T', 24, 5)]
def macModes : List (Char × Nat) := [('C', mGen + mVer), ('G', mGen), ('V', mVer)]
def cryptModes : List (Char × Nat) := [('E', mEnc), ('D', mDec), ('B', mEnc + mDec)]

/-- K0 lists E, D and B for one set of mode bits; an export takes B (04 R111), so it stands first. -/
def blockTable : List BlockRow := [
  { usage := "B0", cls := 0, fams := 3, algs := aes3 ++ tdes1, modes := [('X', mDerive)] },
  { usage := "B1", cls := 0, fams := 2, algs := aes3 ++ tdes1, modes := [('X', mDerive)] },
  { usage := "E0", cls := 0, fams := 8, algs := aes3 ++ tdes1, modes := [('X', mDerive)] },
  { usage := "K0", cls := 0, fams := 0x50, algs := aes3 ++ tdes2, modes := [('B', mWrap), ('E', mWrap), ('D', mWrap)] },
  { usage := "K1", cls := 0, fams := 0x10, algs := aes3 ++ tdes2, modes := [('B', mWrap + mDerive)] },
  { usage := "P0", cls := 1, fams := 1, algs := aes3 ++ tdes2, modes := cryptModes },
  { usage := "M3", cls := 1, fams := 4, algs := tdes1, modes := macModes },
  { usage := "M6", cls := 1, fams := 4, algs := aes3 ++ tdes2, modes := macModes },
  { usage := "M7", cls := 1, fams := 0x100, algs := [('H', 32, 6)], modes := macModes },
  { usage := "D0", cls := 1, fams := 0x80, algs := aes3 ++ tdes2, modes := cryptModes },
  { usage := "61", cls := 1, fams := 1, algs := aes3, modes := [('C', mGen + mVer), ('V', mVer)] }]

def chr (c : Char) : Byte := BitVec.ofNat 8 c.toNat

def hexDigit (n : Nat) : Byte := BitVec.ofNat 8 (if n < 10 then 48 + n else 55 + n)
def hexOf (b : Bytes) : Bytes := b.flatMap fun x => [hexDigit (x.toNat / 16), hexDigit (x.toNat % 16)]

def hexVal (c : Byte) : Option Nat :=
  let n := c.toNat
  if 48 ≤ n ∧ n ≤ 57 then some (n - 48) else if 65 ≤ n ∧ n ≤ 70 then some (n - 55) else none

/-- Bytes from upper-case hexadecimal digits. -/
def unhex : Bytes → Option Bytes
  | [] => some []
  | h :: l :: r =>
    match hexVal h, hexVal l, unhex r with
    | some a, some b, some t => some (BitVec.ofNat 8 (16 * a + b) :: t)
    | _, _, _ => none
  | _ => none

def decVal (b : Bytes) : Option Nat :=
  b.foldl (fun a c => a.bind fun n => if 48 ≤ c.toNat ∧ c.toNat ≤ 57 then some (10 * n + (c.toNat - 48)) else none) (some 0)

def decOf (n width : Nat) : Bytes := (List.range width).map fun i => BitVec.ofNat 8 (48 + n / 10 ^ (width - 1 - i) % 10)

/-- Length of the optional blocks, when each has a proper length. -/
def optionalLen : Nat → Bytes → Option Nat
  | 0, _ => some 0
  | n + 1, b =>
    match unhex (slice b 2 2) with
    | some [l] => if 4 ≤ l.toNat ∧ l.toNat ≤ b.length then (optionalLen n (b.drop l.toNat)).map (l.toNat + ·) else none
    | _ => none

/-- A block read from its bytes: header, the plaintext's row data still to be matched, ciphertext and MAC. -/
structure Block where
  version : Byte
  header : Bytes
  row : BlockRow
  letter : Byte
  mode : Nat
  exportable : Bool
  ct : Bytes
  mac : Bytes

def macLen (version : Byte) : Nat := if version = chr 'D' then 16 else 8

/-- Header syntax (04 R110 step 1): none is KEY_USAGE_DENIED. -/
def parseBlock (b : Bytes) : Option Block :=
  let v := byteAt b 0
  if v ≠ chr 'D' ∧ v ≠ chr 'B' then none
  else if decVal (slice b 1 4) ≠ some b.length ∨ b.length < 16 then none
  else
    match decVal (slice b 12 2), blockTable.find? fun r => ascii r.usage == slice b 5 2 with
    | some n, some row =>
      match optionalLen n (b.drop 16), row.modes.find? fun m => chr m.1 == byteAt b 8 with
      | some k, some m =>
        let e := byteAt b 11
        let body := b.drop (16 + k)
        match unhex (body.take (body.length - 2 * macLen v)), unhex (body.drop (body.length - 2 * macLen v)) with
        | some ct, some mac =>
          if row.algs.any (fun a => chr a.1 == byteAt b 7) ∧ (e = chr 'E' ∨ e = chr 'S' ∨ e = chr 'N')
              ∧ ct.length % macLen v = 0 ∧ 2 * macLen v < body.length then
            some { version := v, header := b.take (16 + k), row := row, letter := byteAt b 7, mode := m.2,
                   exportable := e ≠ chr 'N', ct := ct, mac := mac }
          else none
        | _, _ => none
      | _, _ => none
    | _, _ => none

/-- The block's encryption (0) and authentication (1) key (03 R79). -/
def blockKey (alg : Nat) (key : Bytes) (which : Nat) : Bytes := Config.take (algLen alg) (Config.blockKey alg key which 0)

/-- A block's MAC under its authentication key, over header, optional blocks and the payload's blocks (04 R110; the example of
07 R196: the MAC is also the IV that the payload is enciphered with). -/
def blockMac (alg : Nat) (ak header plain : Bytes) : Bytes := Config.take (algBlock alg) (Config.cmac alg ak (header ++ plain))

/-- The pair that wraps or unwraps a payload of class cls: derived from the protection key into work slots j and j + 1, with that
class, and fetched by the engine that class allows (03 R79; its mode bits: notes/assumptions/78.md). -/
def blockPair (o : Opnd) (j cls : Nat) (src : Nat × Slot) : V (Bytes × Bytes) := do
  let alg := src.2.alg.toNat
  let d : KeyDecl := { alg := alg, cls := cls, usage := 2 ^ (o.fam - 1) + mWrap }
  let (_, e) ← throughSlot o j src d (blockKey alg src.2.key 0)
  let (_, a) ← throughSlot o (j + 1) src d (blockKey alg src.2.key 1)
  pure (e.key, a.key)

/-- The engines that work on a block of a payload of class cls: the KCE derives the pair, and the FCE does a DATA payload. -/
def blockEngines (cls : Nat) : List Nat := if cls = 1 then [2, 0] else [2]

/-- The version goes with the protection key's algorithm: D under AES, B under TDES. -/
def versionFits (v : Byte) (alg : Nat) : Bool := if v = chr 'D' then decide (alg ≤ 3) else decide (alg = 4 ∨ alg = 5)

/-- The key a block carries, authenticated and unwrapped under a protection key, with its attributes (04 R110). A length field
that is no whole number of bytes counts its whole bytes, and bytes it claims beyond the payload are zero (DESIGN CHOICE,
notes/assumptions/79.md). -/
def importBlock (o : Opnd) (j : Nat) (src : Nat × Slot) (bl : Block) : V (KeyDecl × Bytes) := do
  let alg := src.2.alg.toNat
  need (versionFits bl.version alg) stUsage
  let (ek, ak) ← blockPair o j bl.row.cls src
  let plain := cbcDec alg ek bl.mac bl.ct
  need (blockMac alg ak bl.header plain == bl.mac) stAuth
  let n := beNat (plain.take 2) / 8
  match bl.row.algs.find? fun a => chr a.1 == bl.letter && a.2.1 == n with
  | none => failV stUsage
  | some a =>
    let fams := if bl.exportable then bl.row.fams ||| 0x50 else bl.row.fams &&& (0x1FF - 0x50)
    pure ({ alg := a.2.2, cls := bl.row.cls, usage := fams + bl.mode + (if bl.exportable then mExport else 0) }, slice plain 2 n)

def protReq : KeyReq := { cls := [0], fam := 5, mode := mWrap + mDerive, algs := cipherAlgs }

def runKeyBlockImport (o : Opnd) : V Answer := do
  probe o o.keyA protReq
  let _ ← reserve o 2
  match parseBlock o.inp with
  | none => failV stUsage
  | some bl =>
    let (i, x) ← fetch o o.keyA protReq
    engineOf o (blockEngines bl.row.cls) []
    let (d, k) ← importBlock o 0 (i, x) bl
    storeKey o (o.param % 2 ^ 16) (i, x) d k

/-- The row and mode letter of a slot (04 R111). -/
def rowOfSlot (x : Slot) : Option (BlockRow × Char × Char) :=
  let u := x.usage.toNat
  blockTable.findSome? fun r =>
    if r.cls = x.cls.toNat ∧ r.fams &&& (0x1FF - 0x50) = u &&& (0x1FF - 0x50) then
      match r.algs.find? fun a => a.2.2 == x.alg.toNat, r.modes.find? fun m => m.2 == bits u 9 6 * 2 ^ 9 with
      | some a, some m => some (r, a.1, m.1)
      | _, _ => none
    else none

/-- The length of the block that carries a key of n bytes. -/
def blockLen (alg n : Nat) : Nat :=
  let b := algBlock alg
  16 + 2 * ((2 + n + b - 1) / b * b) + 2 * b

/-- A key block built (04 R111) under its encryption and authentication keys: no optional blocks, key version "00", random
padding. -/
def buildBlock (alg : Nat) (ek ak : Bytes) (row : BlockRow × Char × Char) (x : Slot) (keep : Bool) (pad : Bytes) : Bytes :=
  let n := algLen x.alg.toNat
  let b := algBlock alg
  let total := (2 + n + b - 1) / b * b
  let header := [chr (if alg ≤ 3 then 'D' else 'B')] ++ decOf (blockLen alg n) 4 ++ ascii row.1.usage ++ [chr row.2.1, chr row.2.2]
    ++ ascii "00" ++ [chr (if keep then 'E' else 'N')] ++ ascii "0000"
  let plain := toBE 2 (8 * n) ++ fit n x.key ++ pad.take (total - 2 - n)
  let mac := blockMac alg ak header plain
  header ++ hexOf (cbcEnc alg ek mac plain) ++ hexOf mac

def payloadReq (fam : Nat) : KeyReq := { cls := [0, 1], fam := fam, mode := mExport, algs := [1, 2, 3, 4, 5, 6] }

/-- The payload in a block under a protection key src, with the pair in work slots j and j + 1; its padding is drawn from the
expander, one call a block (11 Table 11.5). -/
def wrapPayload (o : Opnd) (j : Nat) (src : Nat × Slot) (y : Slot) (keep : Bool) : V Bytes := do
  match rowOfSlot y with
  | none => failV stUsage
  | some row =>
    let pad ← randomCalls o 16 1
    engineOf o (blockEngines y.cls.toNat) []
    let (ek, ak) ← blockPair o j y.cls.toNat src
    pure (buildBlock src.2.alg.toNat ek ak row y keep pad)

def runKeyBlockExport (o : Opnd) : V Answer := do
  probe o o.keyA protReq
  probe o o.keyB (payloadReq 5)
  let _ ← reserve o 2
  let (i, x) ← fetch o o.keyA protReq
  let (_, y) ← fetch o o.keyB (payloadReq 5)
  let b ← wrapPayload o 0 (i, x) y (bit o.opt 0)
  pure { out := b }

/-- A persistent slot is invalidated with its record and its sealed key, and the sweep of its descendants starts;
what waits for it waits for the sweep and then for the commit (03 R80, R81; 09 R239). -/
def invalidateV (o : Opnd) (p i : Nat) : V Unit := do
  noSweep p
  needObj 0 (slotPage i)
  dirtyRoom (slotPage i)
  let s ← getV
  let x := s.slot i
  dropSealed p x
  modV fun s => s.invalidate i
  modV fun s => s.putRec (slotPage i) (i % 31) (slotRecord i (s.slot i) 0)
  modV fun s => { s with kr := { s.kr with sweeps := s.kr.sweeps ++ [{ part := p, roots := [(i, x.gen)], desc := some o.d }] } }

def runKeyBlockDelete (o : Opnd) : V Answer := do
  let i ← probeHead o o.keyA
  invalidateV o o.p i
  stopV (.hold (.mgmtWait (.sweep o.p) {}))

def formKeyBlockImport : Form :=
  { useA := fun _ => true,
    check := fun o => firstFail [
      (decide (o.param < 2 ^ 16) && o.auxLen == 0 && allZero o.inl, stBad), (decide (o.inLen ≤ 1024), stLimit)],
    run := runKeyBlockImport }
def formKeyBlockExport : Form :=
  { opts := fun _ => 1, useA := fun _ => true, useB := true, out := fun _ => some 144, random := fun _ => true,
    check := fun o => firstFail [(o.param == 0 && noInput o && allZero o.inl, stBad)], run := runKeyBlockExport }
def formKeyBlockDelete : Form :=
  { useA := fun _ => true, check := fun o => firstFail [(o.param == 0 && noInput o && allZero o.inl, stBad)], run := runKeyBlockDelete }

/-! ### Key components (04 R113, R114) -/

def shake (n : Nat) (b : Bytes) : Bytes := Config.take n (Config.shake256 b)

def compReq : KeyReq := { cls := [2], fam := 6, mode := mDec, algs := [9] }

/-- The session record of a ceremony (06 Table 6.7). -/
def sessionBytes (p counted : Nat) (cer hdr : Bytes) (opened : Nat) (x : Bytes) : Bytes :=
  fit 128 ([0x08, BitVec.ofNat 8 p, 0, 0, BitVec.ofNat 8 counted, 0, 0, 0] ++ fit 8 cer ++ fit 8 hdr ++ toLE 8 opened ++ fit 32 x)

def findSession (p : Nat) (cer : Bytes) : V (Option Nat) :=
  indexFind p 3 cer fun b => byteAt b 0 == 8 && (byteAt b 1).toNat == p && slice b 8 8 == cer

/-- The targets that the chain of buckets from a place on names. -/
def chainTargets : Nat → Nat → V (List Nat)
  | 0, _ => pure []
  | f + 1, pl => do
    let b ← getRec (pl / 32) (pl % 32)
    let rest ← if leAt b 8 8 = 0 then pure [] else chainTargets f (leAt b 8 8)
    pure ((bucketEntries b).map (·.2) ++ rest)

/-- A record that is a component session opened 24 hours ago goes. -/
def expireOne (o : Opnd) (t : Nat) : V Unit := do
  let b ← getRec (t / 32) (t % 32)
  let s ← getV
  if byteAt b 0 == 8 && decide (leAt b 0x18 8 + 86400000000000 ≤ s.time.counter.toNat) then do
    modV fun s => s.modDesc o.d fun r => { r with durable := true }
    dropIndexed o.p 3 (slice b 8 8) t
  else pure ()

/-- Sessions open for 24 hours go at the next LOAD of the partition, before its own work (04 R114): the partition's index is gone
through bucket by bucket, and what is deleted stays deleted (notes/assumptions/16.md). -/
def expireSessions (o : Opnd) (work : V Answer) : List Nat → V Answer
  | [] => work
  | k :: r => do
    let _ ← once o.d (fun | .swept j => if j = k then some j else none | _ => none) .swept (do
      let s ← getV
      let (pg, i) := (s.part o.p).bucketAt k
      let ts ← chainTargets ((s.part o.p).recordsUsed + 1) (placeOf pg i)
      ts.forM (expireOne o)
      pure k)
    standing o.d (expireSessions o work r)

/-- The buckets of the partition's index. -/
def indexBuckets (p : Nat) : V (List Nat) := do
  let s ← getV
  if s.ixMoving p then stopV (.wait (.waitSweep (waitIndex p))) else pure ()
  needObj 0 (1 + p)
  let s ← getV
  pure (if (s.part p).ixBase = 0 then [] else List.range (2 ^ (s.part p).ixLog2))

/-- Fields of the package that Table 4.14 bounds. -/
def packageOk (b : Bytes) : Bool :=
  let a := (byteAt b 2).toNat
  let m := (byteAt b 6).toNat
  let n := (byteAt b 7).toNat
  decide (1 ≤ a ∧ a ≤ 5) && decide ((byteAt b 3).toNat ≤ 1) && decide (2 ≤ m ∧ m ≤ 8) && decide (1 ≤ n ∧ n ≤ 8)

/-- A package against its ceremony's session (04 R113, R114). Custodians make components distinct: two of them may give
components of one number (DESIGN CHOICE, notes/assumptions/80.md). -/
def loadComponent (o : Opnd) : V Answer := do
  let b := o.inp
  let cer := slice b 8 8
  let found ← findSession o.p cer
  let s ← getV
  -- 1 and 2: the custodian and the signature
  let pk := b.drop 4493
  let dig := shake 32 pk
  let reg := (s.part o.p).custodians
  need (dig == slice b 0x10 32 && reg.contains dig) stAuth
  engine o
  need (Config.mldsaVerify pk [] (b.take 0x4A0) (slice b 0x4A0 3309)) stAuth
  -- 3 to 5: the component
  let (i, x) ← fetch o o.keyA compReq
  let key := shake 32 (Config.take 32 (Config.mlkemDecap x.key (slice b 0x30 1088)) ++ b.take 0x30)
  let ct := slice b 0x470 32
  need (gcmTag 3 key (zeros 12) [] ct 16 == slice b 0x490 16) stAuth
  let comp := gcmCrypt 3 key (zeros 12) ct
  let alg := (byteAt b 2).toNat
  need (allZero (comp.drop (algLen alg))) stAuth
  let k := reg.findIdx (· == dig)
  let m := (byteAt b 6).toNat
  match found with
  | none =>
    let _ ← newIndexed o.p 3 cer (sessionBytes o.p (2 ^ k) cer (b.take 8) s.time.counter.toNat comp)
    pure { inl := [0, 0, 0, 0, 1, BitVec.ofNat 8 m, 0, 0], durable := true }
  | some t =>
    let r ← getRec (t / 32) (t % 32)
    need (slice r 0x10 7 == b.take 7) stBad
    let counted := (byteAt r 4).toNat
    need (!bit counted k) stUsage
    let now := counted + 2 ^ k
    let sum := xorBytes (slice r 0x20 32) comp
    let n := popCount 8 now
    if n < m then
      putRecV (t / 32) (t % 32) (sessionBytes o.p now cer (slice r 0x10 8) (leAt r 0x18 8) sum)
      pure { inl := [0, 0, 0, 0, BitVec.ofNat 8 n, BitVec.ofNat 8 m, 0, 0], durable := true }
    else
      let a ← storeKey o (leAt b 0 2) (i, x) { alg := alg, cls := (byteAt b 3).toNat, usage := leAt b 4 2 } sum
      dropIndexed o.p 3 cer t
      pure { inl := fit 4 a.inl ++ [BitVec.ofNat 8 n, BitVec.ofNat 8 m, 0, 0], durable := true }

def runComponentLoad (o : Opnd) : V Answer := do
  need (packageOk o.inp) stBad
  probe o o.keyA compReq
  expireSessions o (loadComponent o) (← indexBuckets o.p)

def runComponentAbort (o : Opnd) : V Answer := do
  match ← findSession o.p (o.inl.take 8) with
  | none => failV stMissing
  | some t =>
    dropIndexed o.p 3 (o.inl.take 8) t
    pure { durable := true }

def formComponentLoad : Form :=
  { useA := fun _ => true,
    check := fun o => firstFail [(o.param == 0 && allZero o.inl && o.inLen == 6445 && o.auxLen == 0, stBad)], lookups := fun _ o => [(3, slice o.inp 8 8)],
    pau := fun _ => 2, run := runComponentLoad }
def formComponentAbort : Form :=
  { check := fun o => firstFail [(o.param == 0 && noInput o && allZero (o.inl.drop 8), stBad)], lookups := fun _ o => [(3, o.inl.take 8)],
    run := runComponentAbort }

/-! ### Remote key loading (04 R115 to R118) -/

def sendSignReq (alg : Nat) : KeyReq := { cls := [2], fam := 7, mode := mGen, algs := [alg] }

/-- The trust anchor named in the inline operands holds the digest of the authority's key (04 R115). -/
def anchorCheck (o : Opnd) (authority : Bytes) : V Unit := do
  let (_, _, b) ← namedRec o.p (leAt o.inl 0 8) 0x0B
  need (slice b 0x20 32 == shake 32 authority) stAuth

/-- RSA modulus size of a sealed key, from its blob's length. -/
def sealedUnits (s : State) (p : Nat) (x : Slot) : Nat :=
  let num := x.nonce.toNat
  match sealedBlob (s.page (bits num 5 29)) p (bits num 0 5) with
  | some b => (b.length - 20) / 112
  | none => 0

/-- The transit key: class KEY, with WRAP and DERIVE, for as long as the descriptor runs (04 R115). -/
def transitDecl (alg : Nat) : KeyDecl := { alg := alg, cls := 0, usage := 2 ^ 6 + mWrap + mDerive }

/-- The engines of a send: the PAU, and those that build the block of the key sent. -/
def sendEngines (o : Opnd) : V Unit := do
  let (i, _) ← keySlot o o.keyA
  let s ← getV
  engineOf o (4 :: blockEngines (s.slot i).cls.toNat) []

def runPqSend (o : Opnd) : V Answer := do
  probe o o.keyA (payloadReq 7)
  probe o o.keyB (sendSignReq 8)
  let _ ← reserve o 3
  let ek := o.inp.take 1184
  let id := slice o.inp 1184 16
  let auth := o.inp.drop 4509
  anchorCheck o auth
  sendEngines o
  need (Config.mldsaVerify auth [] (o.inp.take 1200) (slice o.inp 1200 3309)) stAuth
  need (Config.mlkemKeyOk ek) stAuth
  let (_, x) ← fetch o o.keyA (payloadReq 7)
  let (_, y) ← fetch o o.keyB (sendSignReq 8)
  let rnd ← random o 32
  let ct := Config.take 1088 (Config.mlkemEncapCt ek rnd)
  let transit ← rootSlot o 0 (transitDecl 3) (shake 32 (Config.take 32 (Config.mlkemEncapSs ek rnd) ++ id))
  let b ← wrapPayload o 1 transit x false
  let sig ← signWith o y 1 0 [] (ct ++ b ++ id)
  pure { out := ct ++ b ++ sig }

def legacyTdes (o : Opnd) : Bool := bit o.param 16
def transitAlg (o : Opnd) : Nat := if legacyTdes o then 5 else 3
def rsTerm (o : Opnd) : Nat := 32 * bits o.param 0 5
def rsAuth (o : Opnd) : Nat := 32 * bits o.param 8 5

def runRsaSend (o : Opnd) : V Answer := do
  probe o o.keyA (payloadReq 7)
  probe o o.keyB (sendSignReq 0x0C)
  let _ ← reserve o 3
  let n := rsTerm o
  let modulus := o.inp.take n
  let auth := o.inp.drop (n + 16 + rsAuth o)
  anchorCheck o auth
  sendEngines o
  need (Config.rsaVerify 5 auth (o.inp.take (n + 16)) (slice o.inp (n + 16) (rsAuth o))) stAuth
  let (_, x) ← fetch o o.keyA (payloadReq 7)
  let (_, y) ← fetch o o.keyB (sendSignReq 0x0C)
  needObj 0 (bits y.nonce.toNat 5 29)
  let s ← getV
  let transit ← random o (algLen (transitAlg o))
  let seed ← random o 32
  let ct := Config.take n (Config.oaepWrap modulus transit seed)
  let tk ← rootSlot o 0 (transitDecl (transitAlg o)) transit
  let b ← wrapPayload o 1 tk x false
  let sig ← signWith o y 5 (sealedUnits s o.p y) [] (ct ++ b)
  pure { out := ct ++ b ++ sig }

def ecP384 (o : Opnd) : Bool := bit o.param 0
def ecPub (o : Opnd) : Nat := if ecP384 o then 97 else 65
def ecSig (o : Opnd) : Nat := if ecP384 o then 96 else 64

def runEccSend (o : Opnd) : V Answer := do
  let p3 := ecP384 o
  let balg := if p3 then 0x0B else 0x0A
  probe o o.keyA (payloadReq 7)
  probe o o.keyB (sendSignReq balg)
  let _ ← reserve o 3
  let n := ecPub o
  let pub := o.inp.take n
  let id := slice o.inp n 16
  let auth := o.inp.drop (n + 16 + ecSig o)
  anchorCheck o auth
  sendEngines o
  let h := if p3 then 2 else 1
  need (Config.ecdsaVerify p3 auth (Config.take (digestLen h) (Config.digest h (o.inp.take (n + 16)))) (slice o.inp (n + 16) (ecSig o))) stAuth
  need (Config.ecPointOk p3 pub) stAuth
  let (_, x) ← fetch o o.keyA (payloadReq 7)
  let (_, y) ← fetch o o.keyB (sendSignReq balg)
  let rnd ← random o (if p3 then 56 else 40)
  let e := Config.take (if p3 then 48 else 32) (Config.ecPrivate p3 rnd)
  let z := Config.take (if p3 then 48 else 32) (Config.ecdh p3 e pub)
  let tk ← rootSlot o 0 (transitDecl (transitAlg o)) (Config.take (algLen (transitAlg o)) (Config.oneStep h z id))
  let epk := Config.take n (Config.ecPublic p3 e)
  let b ← wrapPayload o 1 tk x false
  let sig ← signWith o y (if p3 then 3 else 2) 0 [] (epk ++ b)
  pure { out := epk ++ b ++ sig }

def recvReq : KeyReq := { cls := [2], fam := 7, mode := mDec, algs := [9, 0x0C] }

def runRklReceive (o : Opnd) : V Answer := do
  probe o o.keyA recvReq
  let _ ← reserve o 3
  let (j, _) ← keySlot o o.keyA
  let s ← getV
  let alg := (s.slot j).alg.toNat
  need (if alg = 9 then o.auxLen == 1088 else o.auxLen % 32 == 0 && decide (256 ≤ o.auxLen ∧ o.auxLen ≤ 512)) stBad
  let ct := o.inp.take o.auxLen
  match parseBlock (o.inp.drop o.auxLen) with
  | none => failV stUsage
  | some bl =>
    let (i, x) ← fetch o o.keyA recvReq
    let palg := if bl.version = chr 'D' then 3 else 5
    let key ←
      if alg = 9 then pure (shake 32 (Config.take 32 (Config.mlkemDecap x.key ct) ++ o.inl))
      else do
        let priv ← privateKey o.p x (o.auxLen / 32)
        need (Config.oaepOk priv ct && Config.oaepLen priv ct == algLen palg) stAuth
        pure (Config.take (algLen palg) (Config.oaepUnwrap priv ct))
    engineOf o (4 :: blockEngines bl.row.cls) []
    let tk ← throughSlot o 0 (i, x) (transitDecl (if alg = 9 then 3 else palg)) key
    let (d, k) ← importBlock o 1 tk bl
    storeKey o (o.param % 2 ^ 16) (i, x) d k

def formPqSend : Form :=
  { useA := fun _ => true, useB := true, out := fun _ => some 4541, random := fun _ => true,
    check := fun o => firstFail [(o.param == 0 && o.inLen == 6461 && o.auxLen == 0 && allZero (o.inl.drop 8), stBad)], nums := fun o => [leAt o.inl 0 8],
    pau := fun _ => 3, run := runPqSend }
def formRsaSend : Form :=
  { useA := fun _ => true, useB := true, out := fun o => some (rsTerm o + blockLen (transitAlg o) 32 + 512), random := fun _ => true,
    check := fun o => firstFail [
      (decide (8 ≤ bits o.param 0 5 ∧ bits o.param 0 5 ≤ 16 ∧ 8 ≤ bits o.param 8 5 ∧ bits o.param 8 5 ≤ 16)
        && bits o.param 5 3 == 0 && bits o.param 13 3 == 0 && bits o.param 17 15 == 0 && o.auxLen == 0
        && o.inLen == rsTerm o + 16 + 2 * rsAuth o && allZero (o.inl.drop 8), stBad)],
    nums := fun o => [leAt o.inl 0 8],
    pau := fun _ => 3, run := runRsaSend }
def formEccSend : Form :=
  { useA := fun _ => true, useB := true, out := fun o => some (ecPub o + blockLen (transitAlg o) 32 + ecSig o), random := fun _ => true,
    check := fun o => firstFail [
      (bits o.param 1 15 == 0 && bits o.param 17 15 == 0 && o.auxLen == 0
        && o.inLen == 2 * ecPub o + 16 + ecSig o && allZero (o.inl.drop 8), stBad)],
    nums := fun o => [leAt o.inl 0 8],
    pau := fun _ => 3, run := runEccSend }
def formRklReceive : Form :=
  { useA := fun _ => true,
    check := fun o => firstFail [
      (decide (o.param < 2 ^ 16) && decide (o.auxLen ≤ o.inLen), stBad), (decide (o.inLen ≤ 2048), stLimit)],
    pau := fun _ => 1, run := runRklReceive }

end Sys2Proof.Machine
end

