-- ==== Sys2Proof/Machine/Links.lean ====
section
/-! DEFINITION. The mesh as one device sees it: membership and quorum (14 R329, R330, R338, R344), port wiring (R331), routes
(R354), the class and credits of what is sent (R333 to R336), and sending a message. -/

namespace Sys2Proof.Machine

/-! ### Membership -/

def State.ownId (s : State) : Nat := s.life.straps.toNat

/-- The device attests and takes part: two members or more, and its straps agree with its own roster entry (14 R329, R330). -/
def State.meshed (s : State) : Bool :=
  match s.mesh.roster with
  | none => false
  | some r => decide (2 ≤ r.members.length) && r.members.any fun m => m.serial == Config.serial && m.meshId == s.ownId

def State.members (s : State) : List RosterEntry := (s.mesh.roster.map (·.members)).getD []

/-- MEMBER_MAP; the own bit always stands (02 Table 2.11). -/
def State.memberMap (s : State) : Byte := s.mesh.memberMap ||| BitVec.ofNat 8 (2 ^ s.ownId)

def State.inMap (s : State) (id : Nat) : Bool := s.memberMap.getLsbD id

/-- More than half of the roster's members (14 R344). -/
def State.quorum (s : State) : Bool :=
  decide (s.members.length < 2 * (s.members.filter fun m => s.inMap m.meshId).length)

/-- The member with the lowest MESH_ID in the map. -/
def State.coordinator (s : State) : Nat := ((List.range 8).find? s.inMap).getD s.ownId

/-- The lowest MESH_ID in the map but for member i. -/
def State.coordinatorBut (s : State) (i : Nat) : Nat :=
  ((List.range 8).find? fun k => k != i && s.inMap k).getD s.ownId

/-! ### Port wiring (14 R331, Table 14.2) -/

/-- Position of the own device in the roster. -/
def Roster.position (r : Roster) : Nat := r.members.findIdx fun m => m.serial == Config.serial

/-- The position and port that port p of position i connects to; none for an unconnected port. -/
def Roster.partner (r : Roster) (i p : Nat) : Option (Nat × Nat) :=
  let n := r.members.length
  if r.topology = 0 then
    let q := p / (n - 1) * (n - 1) + (n - 2 - p % (n - 1))
    if q ≤ 3 then some ((i + p % (n - 1) + 1) % n, q) else none
  else if r.topology = 1 then
    if 2 ≤ p ∧ !r.secondRing then none
    else if p % 2 = 0 then some ((i + 1) % n, p + 1)
    else some ((i + n - 1) % n, p - 1)
  else if p < 3 then some (i ^^^ 2 ^ p, p)
  else none

/-- The topology uses port p of this device. -/
def State.portUsed (s : State) (p : Nat) : Bool :=
  match s.mesh.roster with
  | none => false
  | some r => decide (2 ≤ r.members.length) && (r.partner r.position p).isSome

/-! ### Ports and routes -/

def State.port (s : State) (p : Nat) : Port := mget s.mesh.ports p {}

def State.setPort (s : State) (p : Nat) (x : Port) : State := { s with mesh := { s.mesh with ports := mset s.mesh.ports p x } }

/-- Attested ports whose peer is member i. -/
def State.linksTo (s : State) (i : Nat) : List Nat :=
  (List.range 4).filter fun p => (s.port p).attested && (s.port p).peerId == i

/-- Roster position of member i. -/
def Roster.posOf (r : Roster) (i : Nat) : Nat := r.members.findIdx fun m => m.meshId == i

/-- One of parallel links, by TAG. -/
def byTag (l : List Nat) (tag : Nat) : Option Nat := l[tag % l.length]?

/-- The port a message for member dst leaves on, and whether it is diverted there (R354). -/
def State.route (s : State) (dst tag : Nat) : Option (Nat × Bool) :=
  match s.mesh.roster with
  | none => none
  | some r =>
    let up := fun p => (s.port p).attested
    if r.topology = 0 then
      match byTag (s.linksTo dst) tag with
      | some p => some (p, false)
      | none =>
        ((r.members.map (·.meshId)).findSome? fun i => if i = dst ∨ i = s.ownId then none else byTag (s.linksTo i) tag).map fun p => (p, true)
    else if r.topology = 1 then
      let n := r.members.length
      let d := (r.posOf dst + n - r.position) % n
      let base := if r.secondRing && tag % 2 == 1 then 2 else 0
      let p := if 2 * d ≤ n then base else base + 1
      let q := if 2 * d ≤ n then base + 1 else base
      if up p then some (p, false) else if up q then some (q, true) else none
    else
      let ds := (List.range 3).filter fun k => bit (s.ownId ^^^ dst) k
      (ds.find? up).map fun p => (p, ds.head? != some p)

/-- Of a message of member src: its way was diverted at an earlier link, so it goes on on lane 1 (R354). Fully connected, it is relayed at
all only then; on a ring it goes round the long way; in a 3-cube a higher bit has been resolved before a lower one. -/
def Roster.diverted (r : Roster) (src cur dst via : Nat) : Bool :=
  let n := r.members.length
  if r.topology = 0 then true
  else if r.topology = 1 then
    (decide (2 * ((r.posOf dst + n - r.posOf src) % n) ≤ n)) != (via % 2 == 1)
  else
    (List.range 3).any fun k => bit (cur ^^^ dst) k && (List.range 3).any fun j => decide (k < j) && bit (src ^^^ cur) j

/-- The port a message that came in on port via leaves on, and whether it is or was diverted. A ring's relay keeps the direction it came
in, so that one that goes the other way round arrives; that is what R354's other direction asks (DEDUCED, notes/assumptions/95.md). -/
def State.onward (s : State) (src dst tag via : Nat) : Option (Nat × Bool) :=
  match s.mesh.roster with
  | none => none
  | some r =>
    let was := r.diverted src s.ownId dst via
    if r.topology = 1 then
      let p := via ^^^ 1
      if (s.port p).attested then some (p, was) else if (s.port via).attested then some (via, true) else none
    else (s.route dst tag).map fun c => (c.1, c.2 || was)

/-- The port a message leaves on: one of this device by its route, one that is relayed onward from the port it came in on. -/
def State.exit (s : State) (m : Sent) : Option (Nat × Bool) :=
  if m.src = s.ownId then s.route m.dst m.tag else s.onward m.src m.dst m.tag m.port

/-- The virtual lane on the next link: 1 once it is diverted, or once it has crossed from the ring's last position to its
first (R354). -/
def State.laneFor (s : State) (src p : Nat) (diverted : Bool) : Nat :=
  match s.mesh.roster with
  | none => 0
  | some r =>
    if diverted then 1
    else if r.topology = 1 ∧ p % 2 = 0 ∧ (r.position < r.posOf src ∨ r.position + 1 = r.members.length) then 1
    else 0

/-! ### Classes, credits, replay (R334, R335; Tables 14.4, 14.6) -/

/-- The class of a message type. -/
def msgClass (type : Nat) : Nat := if type / 16 ≤ 3 then type / 16 else 4

/-- The message types of Table 14.6. -/
def msgTypes : List Nat := [0x10, 0x20, 0x21, 0x22, 0x23, 0x30, 0x31, 0x32, 0x33, 0x40, 0x41, 0x42, 0x43, 0x50, 0x51, 0x52]

def creditMax (c : Nat) : Nat := if c ≤ 2 then 32 else 8

/-- Credits of class c on virtual lane v. -/
def Port.credit (x : Port) (c v : Nat) : Nat := mget x.credits (2 * c + v) (creditMax c)

/-- Where a direction's key is replaced (R333). -/
def rekeyEvery : Nat := 2 ^ 31

def rekeyed (k : Bytes) : Bytes := Config.take 32 (Config.shake256 (k ++ ascii "withy-rk"))

/-- A flit counter goes on by one; at a multiple of 2^31 the direction's key is replaced. -/
def nextCtr (ctr : Word64) (key : Option Bytes) : Word64 × Option Bytes :=
  (ctr + 1, if (ctr.toNat + 1) % rekeyEvery = 0 then key.map rekeyed else key)

/-- A flit of class c and lane v is sent against a credit and kept in the replay buffer of 1,024, or waits. -/
def Port.putFlit (x : Port) (c v : Nat) : Port :=
  if 0 < x.credit c v ∧ x.replay.length < 1024 then
    let (n, k) := nextCtr x.txCtr x.txKey
    { x with txSeq := x.txSeq + 1, replay := x.replay ++ [x.txSeq + 1], credits := mset x.credits (2 * c + v) (x.credit c v - 1),
             txCtr := n, txKey := k }
  else { x with waiting := x.waiting ++ [(c, v)] }

/-- Flits that waited, in order; one that still cannot go holds up its own class and lane alone. -/
def Port.drain (x : Port) : Port := x.waiting.foldl (fun (y : Port) f => y.putFlit f.1 f.2) { x with waiting := [] }

/-- On a NAK every flit of the replay buffer goes out again, each under a counter value of its own; the resend is counted (R333, R334). -/
def Port.resend (x : Port) (nak : Bool) : Port :=
  let c := (if nak then x.replay else []).foldl (fun (c : Word64 × Option Bytes) _ => nextCtr c.1 c.2) (x.txCtr, x.txKey)
  { x with txCtr := c.1, txKey := c.2, retries := if nak && !x.replay.isEmpty then satInc x.retries else x.retries }

/-- Flits of a message of n bytes after its header. -/
def flitCount (n : Nat) : Nat := (16 + n + 47) / 48

/-! ### Sending -/

/-- A KEY message's body under a pair key: AES-256-GCM under the sender's MESH_ID and the pair's counter (R338). That the nonce is the
MESH_ID in 4 bytes and the counter in 8, both least significant first, that no further data is authenticated, and that the 16-byte tag
follows the text are DESIGN CHOICES (notes/assumptions/93.md). -/
def pairSealed (key : Bytes) (src ctr : Nat) (b : Bytes) : Bytes :=
  let nonce := toLE 4 src ++ toLE 8 ctr
  let ct := xorBytes b (Config.take b.length (Config.gcmStream 3 key nonce))
  ct ++ Config.take 16 (Config.gcmTag 3 key nonce [] ct)

/-- What leaves for another member: a KEY message of this device goes under its pair key, and not at all without one (03 R60). -/
def State.sealFor (s : State) (m : Sent) : Option Sent :=
  if msgClass m.type = 3 ∧ m.src = s.ownId then
    if mhas s.mesh.pairKeys m.dst then
      some { m with body := pairSealed (mget s.mesh.pairKeys m.dst []) m.src (mget s.mesh.pairCtr m.dst 0) m.body }
    else none
  else some m

/-- A message of any sender goes out; its port is the one it came in on, 4 for the device's own. Where no route is left it is lost. -/
def State.emit (s : State) (m : Sent) : State :=
  if m.dst = s.ownId then { s with mesh := { s.mesh with sent := s.mesh.sent ++ [{ m with port := 4 }] } }
  else
    match s.exit m, s.sealFor m with
    | none, _ => s
    | _, none => s
    | some (p, diverted), some m =>
      let c := msgClass m.type
      let v := s.laneFor m.src p diverted
      let s := s.setPort p ((List.range (flitCount m.body.length)).foldl (fun (x : Port) _ => x.putFlit c v) (s.port p))
      { s with mesh := { s.mesh with
        sent := s.mesh.sent ++ [{ m with port := p }]
        pairCtr := if c = 3 ∧ m.src = s.ownId then mupd s.mesh.pairCtr m.dst 0 (· + 1) else s.mesh.pairCtr } }

def State.send (s : State) (dst type tag attempt aux : Nat) (body : Bytes) (part : Nat := 0) : State :=
  s.emit { port := 4, src := s.ownId, dst := dst, type := type, tag := tag, attempt := attempt, part := part, aux := aux, body := body }

end Sys2Proof.Machine
end

