-- ==== Sys2Proof/Machine/Pages.lean ====
section
/-! DEFINITION. Engine pages, digest pages and PAU contexts as locks (07 R188, 08 R209, 09 R228): who a core
acts for, the arbiter inputs and ranks (10 R246 to R248), grants of waiting OPENs, closing, and the release of
locks by resets and core faults (08 R224; 09 R244; 10 R253, R258). A holder is stored as who + 1; 0 is nobody. -/

namespace Sys2Proof.Machine

/-! ### Keys -/

def pageKey (cl eng p n : Nat) : Nat := ((cl * 3 + eng) * 32 + p) * 8 + n
def dpageKey (cl p n : Nat) : Nat := (cl * 32 + p) * 8 + n

/-- Engine numbers of a cluster: FCE0 0, FCE1 1, KCE 2; the DGE is 3 (10 R260). -/
def engNo : Eng → Nat
  | .fce0 => 0
  | .fce1 => 1
  | .kce => 2

def State.cpage (s : State) (k : Nat) : CPage := mget s.eng.pages k {}
def State.setCpage (s : State) (k : Nat) (x : CPage) : State := { s with eng := { s.eng with pages := mset s.eng.pages k x } }
def State.dpage (s : State) (k : Nat) : DPage := mget s.eng.dpages k {}
def State.setDpage (s : State) (k : Nat) (x : DPage) : State := { s with eng := { s.eng with dpages := mset s.eng.dpages k x } }
def State.ctx (s : State) (k : Nat) : Ctx := mget s.eng.ctxs k {}
def State.setCtx (s : State) (k : Nat) (x : Ctx) : State := { s with eng := { s.eng with ctxs := mset s.eng.ctxs k x } }

/-! ### Who runs what -/

def State.coreQueue (s : State) (k : Nat) : List Nat := mget s.disp.coreQ k []

/-- The descriptor a core runs: the first it has taken up that waits for nothing. -/
def State.running (s : State) (k : Nat) : Option DRec :=
  (s.coreQueue k).findSome? fun d => (s.desc d).filter fun r => r.stage = .started

/-- The ring number of work that came over the mesh (14 R350): no ring of its own here. -/
def meshRing : Nat := 8

/-- The ring number of work that applies a replicated transaction (14 R343). -/
def txnRing : Nat := 16

/-- The descriptor who runs, as pages keep it. -/
def State.descOf (s : State) (who : Nat) : Nat := ((s.running who).map (·.id + 1)).getD 0

/-- The partition tag and the mesh mark of who's requests; the Warden tags its own with partition 0
(notes/assumptions/18.md). None where a core runs nothing. -/
def State.tagOf (s : State) (who : Nat) : Option (Nat × Bool) :=
  if who = 64 then some (0, false) else (s.running who).map fun r => (r.fn, decide (meshRing ≤ r.ring))

/-- Who's requests carry the mesh mark (10 R246). -/
def State.fwdMark (s : State) (who : Nat) : Bool := (s.tagOf who).any (·.2)

/-! ### Arbiters (10 R246, R248; 09 R242) -/

/-- The input of a requester at cluster c's arbiter. -/
def clusterInput (c who : Nat) (fwd : Bool) : Nat :=
  if who = 64 then 15
  else
    let q := who / 8
    if q = c then (if fwd then 11 else who % 8)
    else (if fwd then 12 else 8) + (((List.range 4).map (c / 4 * 4 + ·)).filter (· != c)).findIdx (· == q)

/-- The input of a requester at a PAU's arbiter. -/
def pauInput (who : Nat) (fwd : Bool) : Nat :=
  if who = 64 then 15 else if fwd then 8 + who / 8 % 4 else 2 * (who / 8 % 4) + who % 8 / 4

def arbInput (a who : Nat) (fwd : Bool) : Nat := if a < 8 then clusterInput a who fwd else pauInput who fwd

/-- The rank of input i in a map. -/
def rankIn (lo : Word32) (hi : BitVec 28) (i : Nat) : Nat :=
  if 15 ≤ i then 15 else if i < 8 then bits lo.toNat (4 * i) 4 else bits hi.toNat (4 * (i - 8)) 4

def Arb.rank (x : Arb) (i : Nat) : Nat := rankIn x.liveLo x.liveHi i

/-- A request enters its input (10 R247). -/
def State.enterReq (s : State) (a e who : Nat) (fwd : Bool) (q : Req) : State :=
  let x := s.arb a
  let i := arbInput a who fwd
  s.setArb a (x.setInputQ i e (x.inputQ i e ++ [q]))

def State.withdrawReq (s : State) (a e : Nat) (bad : Req → Bool) : State := s.setArb a ((s.arb a).withdraw e bad)

/-- A request that has ended leaves the engine without a void grant. -/
def Arb.endReq (x : Arb) (e : Nat) (mine : Req → Bool) : Arb :=
  let x := (List.range 16).foldl (fun x i => x.setInputQ i e ((x.inputQ i e).filter fun q => !mine q)) x
  let y := x.engine e
  match y.owner with
  | some (_, q) => if mine q then x.setEngine e { y with owner := none, fresh := false } else x
  | none => x

def State.endReq (s : State) (a e : Nat) (mine : Req → Bool) : State := s.setArb a ((s.arb a).endReq e mine)

/-! ### Requests to a digest engine (08 R211; 10 R247) -/

/-- Who has a request at cluster c's digest engine: one that waits, or one with blocks left to run. -/
def State.dgeAsks (s : State) (c who : Nat) : Bool :=
  let x := s.arb c
  (List.range 16).any (fun i => (x.inputQ i 3).any fun q => q.who == who)
    || (x.engine 3).owner.any fun o => o.2.who == who && decide (o.2.done < o.2.count)

/-- Page k's request for n blocks: a core presents one at a time, and its pages' others wait. -/
def State.enterDge (s : State) (k n : Nat) : State :=
  let x := s.dpage k
  let who := x.holder - 1
  if s.dgeAsks (k / 256) who then s.setDpage k { x with waits := n }
  else
    let s := s.setDpage k { x with entered := true, waits := 0 }
    s.enterReq (k / 256) 3 who (s.fwdMark who) { who := who, part := k / 8 % 32, page := k % 8, count := n }

/-- The core's lowest-numbered page that waits for its turn makes its request (DESIGN CHOICE, notes/assumptions/31.md). -/
def State.nextDge (s : State) (c who : Nat) : State :=
  match s.eng.dpages.find? fun x => x.1 / 256 == c && x.2.holder == who + 1 && x.2.waits != 0 with
  | some x => if s.dgeAsks c who then s else s.enterDge x.1 x.2.waits
  | none => s

/-! ### OPENs of cipher and digest engines -/

/-- Engine e of cluster c grants pages: its domain is up, its first seeds are taken (08 R222) and it is in service (07 R195). -/
def State.grants (s : State) (c e : Nat) : Bool :=
  (s.domain (11 + c)).up && mget s.eng.seeded c false && !((s.arb c).engine e).oos

/-- Closed pages of partition p on engine e of cluster c, by number. -/
def State.closedPages (s : State) (c e p : Nat) : List Nat :=
  (List.range 8).filter fun n =>
    if e = 3 then (s.dpage (dpageKey c p n)).holder == 0 else (s.cpage (pageKey c e p n)).holder == 0

def notReady : Word32 := 0xFFFF0000

def openKey (who c e : Nat) : Nat := (who * 8 + c) * 4 + e

/-- The pages ns are granted to who; the Bool says that one of them had been abandoned. -/
def State.givePages (s : State) (who c e p : Nat) : List Nat → State × Bool
  | [] => (s, false)
  | n :: r =>
    let (s, ab) :=
      if e = 3 then
        let k := dpageKey c p n
        let x := s.dpage k
        (s.setDpage k { x with holder := who + 1, desc := s.descOf who, state := if x.state = .abandoned then .abandoned else .opened }, x.state == .abandoned)
      else
        let k := pageKey c e p n
        let x := s.cpage k
        (s.setCpage k { x with holder := who + 1, desc := s.descOf who, state := if x.state = .abandoned then .abandoned else .opened }, x.state == .abandoned)
    let (s, more) := s.givePages who c e p r
    (s, ab || more)

/-- An OPEN is granted: the lowest-numbered closed pages of the partition (DESIGN CHOICE, notes/assumptions/86.md). -/
def State.grantOpen (s : State) (o : OpenReq) : State :=
  let ns := (s.closedPages o.cl o.eng o.part).take o.count
  let s := { s with eng := { s.eng with opens := s.eng.opens.erase o } }
  let (s, ab) := s.givePages o.who o.cl o.eng o.part ns
  let s := { s with eng := { s.eng with
    openRes := mset s.eng.openRes (openKey o.who o.cl o.eng) (BitVec.ofNat 32 (ns.headD 0 + if ab then 0x100 else 0)) } }
  if o.eng = 3 then
    { s with eng := { s.eng with pageSet := mset s.eng.pageSet (o.who * 8 + o.cl) (BitVec.ofNat 32 (ns.map (2 ^ ·)).sum) } }
  else s

/-- The waiting OPEN of partition p on an engine whose input has the highest rank; the oldest of its input. -/
def State.topOpen (s : State) (c e p : Nat) : Option OpenReq :=
  let ws := s.eng.opens.filter fun o => o.cl == c && o.eng == e && o.part == p
  let rank := fun o : OpenReq => (s.arb c).rank (clusterInput c o.who ((s.tagOf o.who).any (·.2)))
  ws.foldl (fun b o => match b with
    | none => some o
    | some x => if rank x < rank o then some o else b) none

/-- Waiting OPENs are granted while the highest-ranked finds its pages (07 R188; 08 R209). -/
def State.serveOpens (s : State) (c e p : Nat) : Nat → State
  | 0 => s
  | f + 1 =>
    match s.topOpen c e p with
    | none => s
    | some o => if s.grants c e && decide (o.count ≤ (s.closedPages c e p).length) then (s.grantOpen o).serveOpens c e p f else s

def State.serveEngine (s : State) (c e p : Nat) : State := s.serveOpens c e p s.eng.opens.length

/-- Every waiting OPEN is decided again: engines have their first seeds (08 R222), or a map is live (10 R249). -/
def State.serveAllOpens (s : State) : State := s.eng.opens.foldl (fun (s : State) o => s.serveEngine o.cl o.eng o.part) s

/-! ### Closing -/

/-- A cipher page is zeroed and released; left by a reset, its next holder reads ABANDONED. -/
def State.dropPage (s : State) (c e p n : Nat) (abandoned : Bool) : State :=
  let k := pageKey c e p n
  let s := s.withdrawReq c e fun q => q.part == p && q.page == n
  let s := { s with kr := { s.kr with fetches := s.kr.fetches.filter fun f =>
      match f.tgt with
      | .cipher a _ => !(a.cl.val == c && engNo a.eng == e && f.part == p && a.page.val == n)
      | _ => true } }
  let s := if abandoned then s.setCpage k { state := .abandoned } else { s with eng := { s.eng with pages := mdel s.eng.pages k } }
  s.serveEngine c e p

/-- A digest page that has failed: its state and buffer are zeroed, and nothing is delivered (08 R223). -/
def DPage.faulted (x : DPage) : DPage :=
  { x with state := .fault, pend := .none, stream := [], buf := [], result := [], blockBusy := false, whereSt := 3, waits := 0 }

/-- A digest context leaves the places where its state lies. -/
def State.dropContext (s : State) (c p n : Nat) : State :=
  let k := dpageKey c p n
  { s with eng := { s.eng with
      inner := mset s.eng.inner c ((mget s.eng.inner c []).erase k),
      working := if mget s.eng.working c none = some k then mset s.eng.working c none else s.eng.working } }

/-- Page m of page k's partition and engine. -/
def sibling (k m : Nat) : Nat := k / 8 * 8 + m

/-- Page k waits to pass chained bytes to page m (08 R215). -/
def DPage.chainsTo (x : DPage) (k m : Nat) : Bool :=
  (match x.pend with
   | .chain _ => true
   | _ => false) && sibling k x.peer.toNat == m && k != m

/-- Page k goes to FAULT. -/
def State.dpageZero (s : State) (k : Nat) : State := (s.setDpage k (s.dpage k).faulted).dropContext (k / 256) (k / 8 % 32) (k % 8)

/-- A FAULT caused by misuse is counted apart from engine faults (08 R223). -/
def State.dpageMisused (s : State) (k : Nat) : State :=
  let i := 4 * (k / 256) + 3
  let s := s.dpageZero k
  { s with eng := { s.eng with misuse := mset s.eng.misuse i (satInc (mget s.eng.misuse i 0)) } }

/-- Page k takes no message input any more: pages that wait to pass it chained bytes go to FAULT, and so on back (08 R215). -/
def State.breakChains (s : State) : Nat → Nat → State
  | 0, _ => s
  | f + 1, k =>
    (List.range 8).foldl (fun (s : State) i =>
      let j := sibling k i
      if (s.dpage j).chainsTo j k then (s.dpageMisused j).breakChains f j else s) s

/-- FAULT of page k, and of the pages that wait to chain into it. -/
def State.dpageFault (s : State) (k : Nat) : State := (s.dpageZero k).breakChains 8 k

def State.dpageMisuse (s : State) (k : Nat) : State := (s.dpageMisused k).breakChains 8 k

/-- At the abandonment of page n, pages with a context chained to it by DEST 4 or DEST 3 go to FAULT (08 R224). -/
def State.faultChained (s : State) (c p n : Nat) : State :=
  (List.range 8).foldl (fun (s : State) m =>
    let x := s.dpage (dpageKey c p m)
    if m ≠ n ∧ (x.state = .busy ∨ x.state = .feeding) ∧ x.peer.toNat = n ∧ (x.dest = 4 ∨ x.dest = 3) then s.dpageMisuse (dpageKey c p m)
    else s) s

def State.dropDpage (s : State) (c p n : Nat) (abandoned : Bool) : State :=
  let k := dpageKey c p n
  let x := s.dpage k
  let s := s.withdrawReq c 3 fun q => q.part == p && q.page == n
  let s := { s with kr := { s.kr with fetches := s.kr.fetches.filter fun f =>
      match f.tgt with
      | .digest a => !(a.cl.val == c && f.part == p && a.page.val == n)
      | _ => true } }
  let s := (s.dropContext c p n).breakChains 8 k
  let s := if abandoned then s.faultChained c p n else s
  let s : State := { s with eng := { s.eng with saved := mdel s.eng.saved k } }
  let s := if abandoned then s.setDpage k { state := .abandoned, saveSeq := x.saveSeq + 1 }
           else { s with eng := { s.eng with dpages := mdel s.eng.dpages k } }
  let s := s.nextDge c (x.holder - 1)
  s.serveEngine c 3 p

/-! ### PAU contexts -/

/-- A PAU grants contexts: powered, and in service (09 R241). -/
def State.pauServes (s : State) (u : Nat) : Bool :=
  (s.domain (19 + u)).up && !((s.arb (8 + u)).engine 0).oos

def State.freeCtxs (s : State) (u : Nat) : List Nat :=
  if s.pauServes u then (List.range 4).filter fun k => (s.ctx (4 * u + k)).holder == 0 else []

/-- The half whose PAU port who reaches; the Warden's requests go to half 0 (notes/assumptions/18.md). -/
def halfOf (who : Nat) : Nat := if who = 64 then 0 else who / 32

/-- The oldest waiting OPENs of a half are granted while a context is free, on the PAU with more free ones (09 R228). -/
def State.servePau (s : State) (h : Nat) : Nat → State
  | 0 => s
  | f + 1 =>
    match mget s.eng.pauWait h [] with
    | [] => s
    | who :: rest =>
      let a := s.freeCtxs (2 * h)
      let b := s.freeCtxs (2 * h + 1)
      let (u, free) := if a.length < b.length then (2 * h + 1, b) else (2 * h, a)
      match free with
      | [] => s
      | k :: _ =>
        let x := s.ctx (4 * u + k)
        let s := s.setCtx (4 * u + k) { x with holder := who + 1, desc := s.descOf who,
                                               part := ((s.tagOf who).map (·.1)).getD 0,
                                               state := if x.state = .abandoned then .abandoned else .opened }
        let s := { s with eng := { s.eng with
          pauWait := mset s.eng.pauWait h rest,
          pauRes := mset s.eng.pauRes who (BitVec.ofNat 32 (u % 2 + 2 * k + if x.state = XState.abandoned then 0x100 else 0)) } }
        s.servePau h f

def State.dropCtx (s : State) (k : Nat) (abandoned : Bool) : State :=
  let u := k / 4
  let x := s.ctx k
  let c := (x.holder - 1) / 8
  let s := s.withdrawReq (8 + u) 0 fun q => q.page == k % 4
  let s := { s with kr := { s.kr with fetches := s.kr.fetches.filter fun f =>
      match f.tgt with
      | .pau w => w.val + 1 != x.holder
      | _ => true } }
  let fault := fun (s : State) (n : Nat) =>
    if (s.dpage (dpageKey c x.part n)).holder = x.holder then
      s.dpageMisuse (dpageKey c x.part n)
    else s
  let s := if abandoned then
      let s := if x.xofEn then fault s x.xofPage.toNat else s
      let s := if x.sink = 2 then fault s x.sinkPage.toNat else s
      s.setCtx k { state := .abandoned }
    else { s with eng := { s.eng with ctxs := mdel s.eng.ctxs k } }
  s.servePau (u / 2) (mget s.eng.pauWait (u / 2) []).length

/-! ### Releases -/

/-- Every lock that passes a test on holder, partition and descriptor is released, and such OPENs are withdrawn
(10 R258). -/
def State.releaseLocks (s : State) (mine : Nat → Nat → Nat → Bool) (abandoned : Bool) : State :=
  let held := fun (h d p : Nat) => h != 0 && mine (h - 1) p d
  let gone := fun (w p : Nat) => mine w p (s.descOf w)
  let s : State := { s with eng := { s.eng with
    opens := s.eng.opens.filter (fun o => !gone o.who o.part),
    pauWait := s.eng.pauWait.map fun (c : Nat × List Nat) => (c.1, c.2.filter fun w => !gone w (((s.tagOf w).map (·.1)).getD 0)) } }
  let s : State := s.eng.ctxs.foldl (fun (s : State) c => if held c.2.holder c.2.desc c.2.part then s.dropCtx c.1 abandoned else s) s
  let s : State := s.eng.dpages.foldl (fun (s : State) c =>
    if held c.2.holder c.2.desc (c.1 / 8 % 32) then s.dropDpage (c.1 / 256) (c.1 / 8 % 32) (c.1 % 8) abandoned else s) s
  s.eng.pages.foldl (fun (s : State) c =>
    if held c.2.holder c.2.desc (c.1 / 8 % 32) then s.dropPage (c.1 / 768) (c.1 / 256 % 3) (c.1 / 8 % 32) (c.1 % 8) abandoned else s) s

/-- A partition's locks go with its reset, those that the Warden holds under its tag too (02 R55 step 4; 07 R207). -/
def State.abandonPart (s : State) (p : Nat) : State := s.releaseLocks (fun _ q _ => q == p) true

/-- A core's locks go with its fault. -/
def State.abandonCore (s : State) (k : Nat) : State := s.releaseLocks (fun w _ _ => w == k) true

/-- A descriptor's pages and context are closed at its completion (07 R188; 09 R228), or left ABANDONED where it is
abandoned (02 R34). -/
def State.closeHeld (s : State) (d : Nat) (abandoned : Bool) : State :=
  s.releaseLocks (fun w _ e => w != 64 && e == d + 1) abandoned

end Sys2Proof.Machine
end

