-- ==== Sys2Proof/Machine/Complete.lean ====
section
/-! DEFINITION. How a descriptor leaves the device: its output, the zero writes of 02 R45, its completion record
(02 R41, R42, R51), the ring fault that a refused record makes (02 R34), and the places it gives up. Work of a mesh
peer leaves as a RESULT message instead (14 R351). -/

namespace Sys2Proof.Machine

/-! ### Host writes of a descriptor -/

/-- Bytes written over a list of extents, each checked by GATE_HOST; a refused write is dropped (13 R323). -/
def State.writeExtents (s : State) (r : DRec) : List (Nat × Nat) → Bytes → State
  | [], _ => s
  | (a, n) :: es, b =>
    let (s, ok) := s.checkHost r.master r.fn r.oldWin a n true
    (if ok then s.postWrite r.fn a (b.take n) else s).writeExtents r es (b.drop n)

/-- Where the output of n bytes goes (02 R38). -/
def State.outExtents (s : State) (r : DRec) (n : Nat) : List (Nat × Nat) :=
  if n = 0 then []
  else if r.outSgl then
    match sglRead s (s.windows r.fn r.oldWin) r.outAddr with
    | .ok l => extentCut l n
    | .error _ => []
  else [(r.outAddr, n)]

/-- Bytes off to off + n of a list of extents. -/
def extentSub : List (Nat × Nat) → Nat → Nat → List (Nat × Nat)
  | [], _, n => extentCut [] n
  | (a, len) :: r, off, n => if len ≤ off then extentSub r (off - len) n else extentCut ((a + off, len - off) :: r) n

/-- A recipe step's bytes go to offset off of the output area (05 R134). -/
def State.putOutAt (s : State) (r : DRec) (off : Nat) (b : Bytes) : State :=
  let es := extentSub (s.outExtents r r.outCap) off b.length
  (s.writeExtents r es b).modDesc r.id fun q => { q with written := q.written ++ es }

/-- Output put out for a descriptor, and remembered for the zero writes (02 R45, R58). -/
def State.putOut (s : State) (r : DRec) (b : Bytes) : State :=
  let es := s.outExtents r b.length
  (s.writeExtents r es b).modDesc r.id fun q => { q with written := q.written ++ es }

/-- The zero writes of 02 R45 over every byte written so far. -/
def State.zeroOut (s : State) (d : Nat) : State :=
  match s.desc d with
  | none => s
  | some r => (s.writeExtents r r.written (zeros (extentTotal r.written))).modDesc d fun q => { q with written := [] }

/-! ### Places given up -/

/-- A core takes up the next descriptor of its queue when none runs on it (03 R68). -/
def State.takeUp (s : State) (k : Nat) : State :=
  if (s.running k).isSome then s
  else
    match (s.coreQueue k).findSome? fun d => (s.desc d).filter fun r => r.stage = .queued with
    | none => s
    | some r => s.modDesc r.id fun q => { q with stage := .started, begun := true }

/-- Forwarded requests of a descriptor are withdrawn (02 R55 step 2). -/
def State.dropFwd (s : State) (d : Nat) : State := { s with mesh := { s.mesh with fwds := s.mesh.fwds.filter fun f => f.desc != d } }

/-- A descriptor is gone: its pages, context, slots and places are free. -/
def State.removeDesc (s : State) (d : Nat) (abandoned : Bool) : State :=
  match s.desc d with
  | none => s
  | some r =>
    let s := ((s.closeHeld d abandoned).releaseTrans d).dropFwd d
    let s := { s with disp := { s.disp with
      descs := s.disp.descs.filter (·.id != d), inbox := s.disp.inbox.erase d, mgmtQ := s.disp.mgmtQ.erase d,
      coreQ := s.disp.coreQ.map fun (c : Nat × List Nat) => (c.1, c.2.erase d),
      recipePlace := s.disp.recipePlace.filter (· != d), mgmtPlace := s.disp.mgmtPlace.filter (· != d) } }
    let s := { s with kr := { s.kr with poolWait := s.kr.poolWait.erase d } }
    s.takeUp r.core

/-! ### Ring fault (02 R34) -/

/-- Descriptors of ring q of function n that were read and have not completed. -/
def State.ringDescs (s : State) (n q : Nat) : List Nat := (s.disp.descs.filter fun r => r.fn == n && r.ring == q).map (·.id)

/-- Abandoned without a completion: zero writes where they still pass, everything released. -/
def State.abandonDesc (s : State) (d : Nat) : State := (s.zeroOut d).removeDesc d true

def State.ringFault (s : State) (n q : Nat) : State :=
  let s := s.setRing n q { s.ring n q with fault := true }
  let s := s.setFunc n { s.func n with ringFault := true, ringMask := (s.func n).ringMask ||| BitVec.ofNat 8 (2 ^ q) }
  let s := s.raiseEvt n evRingFault
  let s := (s.ringDescs n q).foldl State.abandonDesc s
  s.setRing n q { s.ring n q with outstanding := 0 }

/-! ### Replicated transactions at a member (14 R343) -/

/-- A TXN body: RSEQ (0 before the coordinator has numbered it), its kind + 16 times its origin, and the operation
(notes/assumptions/21.md):
0 a verb's partition, image and input, 1 a management image and body, 2 home map entries, 3 the same as 1 with the key it
transfers behind it between two mesh key units alone, 4 the mesh root key. -/
def txnBody (rseq kind : Nat) (b : Bytes) : Bytes := toLE 8 rseq ++ [BitVec.ofNat 8 kind] ++ b

def txnRseq (b : Bytes) : Nat := leAt b 0 8
def txnKind (b : Bytes) : Nat := leAt b 8 1 % 16
def txnOrigin (b : Bytes) : Nat := leAt b 8 1 / 16
def txnPay (b : Bytes) : Bytes := b.drop 9

def State.ackTxn (s : State) (n : Nat) : State := s.send s.coordinator 0x31 0 0 n (toLE 2 stDone.toNat)

/-- Home map entries of 3 bytes: slot, then 8 + member, or 0 for a slot no longer bound. -/
def State.applyHomes (s : State) (b : Bytes) : State :=
  (blocks 3 b).foldl (fun (s : State) e =>
    let v := leAt e 2 1
    { s with mesh := { s.mesh with slotHome := mset s.mesh.slotHome (leAt e 0 2) (if v < 8 then none else some (v % 8)) } }) s

/-- The descriptor that applies transaction n here: its stage, and what it carries. -/
def State.txnDesc (s : State) (n fn : Nat) (bytes image : Bytes) (stage : Stage) : State × Nat :=
  let d := s.disp.nextId
  let r : DRec := { id := d, fn := fn, ring := txnRing, idx := BitVec.ofNat 32 (n % 65536), bytes := bytes, image := image,
                    stage := stage, phase := if stage = .mgmt then 1 else 0 }
  ({ s with disp := { s.disp with nextId := d + 1, descs := s.disp.descs ++ [r] } }, d)

/-- A transaction of kind 0, 1 or 3 starts to be applied. -/
def State.beginTxn (s : State) (t : Txn) : State :=
  let b := txnPay t.body
  if txnKind t.body = 0 then
    let (s, d) := s.txnDesc t.rseq (leAt b 0 1 % 32) (slice b 1 64) [] .inbox
    let h : Held := { src := 8, tag := BitVec.ofNat 16 t.rseq, attempt := t.attempt, part := leAt b 0 1 % 32, body := b.drop 65,
                      got := (b.drop 65).length }
    { s with disp := { s.disp with inbox := s.disp.inbox ++ [d] }, mesh := { s.mesh with held := s.mesh.held ++ [h] } }
  else
    let (s, d) := s.txnDesc t.rseq 0 (b.take 64) (b.drop 64) .mgmt
    { s with disp := { s.disp with mgmtQ := s.disp.mgmtQ ++ [d] } }

/-- RSEQ n is applied: it is acknowledged, and a member that was catching up may have done so (R346). -/
def State.noteApplied (s : State) (n : Nat) : State :=
  let s : State := { s with mesh := { s.mesh with rseq := n } }.ackTxn n
  if s.mesh.resyncTo.any (· ≤ n) then { s with mesh := { s.mesh with resyncing := false, resyncTo := none } } else s

/-- Transactions are applied strictly in RSEQ order, one at a time. -/
def State.txnPump : Nat → State → State
  | 0, s => s
  | f + 1, s =>
    if s.disp.descs.any (fun r => r.ring == txnRing) then s
    else
      match s.mesh.journal.find? fun t => t.rseq == s.mesh.rseq + 1 with
      | none => s
      | some t =>
        if txnKind t.body = 2 then ((s.applyHomes (txnPay t.body)).noteApplied t.rseq).txnPump f
        else s.beginTxn t

/-- The transaction in progress has ended here with st: one that fails takes the member out of the mesh (R343). -/
def State.txnApplied (s : State) (st : Word16) : State :=
  if succeeded st then
    let s := s.noteApplied (s.mesh.rseq + 1)
    s.txnPump (s.mesh.journal.length + 1)
  else { s with mesh := { s.mesh with memberMap := 0 } }

/-! ### Completion records (02 Table 2.19) -/

/-- PHASE of record k of a ring of 2^g entries (02 R42). -/
def phaseOf (k g : Nat) : Bool := k / 2 ^ g % 2 == 0

def recordBytes (r : DRec) (st : Word16) (flags : BitVec 15) (phase : Bool) (len head time : Nat) (inl : Bytes) : Bytes :=
  toLE 4 r.hostTag ++ toLE 2 st.toNat ++ toLE 2 (flags.toNat + at' (b2n phase) 15) ++ toLE 4 len ++ toLE 4 head ++ toLE 8 time
    ++ fit 8 inl

/-- The record goes to its ring's completion slot, as one write checked against the windows in force (02 R51;
13 R326); a refusal faults the ring. -/
def State.writeRecord (s : State) (r : DRec) (st : Word16) (len : Nat) (inl : Bytes) : State :=
  let x := s.ring r.fn r.ring
  let k := x.cqTail.toNat
  let a := x.cqBase.toNat + 32 * (k % ringSize x)
  let (s, ok) := s.checkHost ringEngineId r.fn false a 32 true
  if ok then
    let s := s.postWrite r.fn a (recordBytes r st r.flags (phaseOf k x.log2.toNat) len x.sqHead.toNat s.time.counter.toNat inl)
    let x := s.ring r.fn r.ring
    let s := s.setRing r.fn r.ring { x with cqTail := x.cqTail + 1, outstanding := x.outstanding - 1 }
    s.noteRecord r.fn r.ring r.irqNow
  else s.ringFault r.fn r.ring

/-- A peer's request ends here: RESULT holds completion bytes 0x04-0x0B and 0x18-0x1F, then the output (14 Table 14.6), of work
that failed what it had streamed by then, which the origin follows with its zero writes (R353), and of a recipe step, in the place of PHASE, whether a counter was accepted
(notes/assumptions/22.md); for entropy that is not available, REFUSE is the answer (R353). Work of a transaction sends neither. -/
def State.sendResult (s : State) (r : DRec) (st : Word16) (out inl : Bytes) : State :=
  let src := r.ring - meshRing
  match s.mesh.held.find? fun h => h.src == src && h.tag.toNat == r.idx.toNat with
  | none => s
  | some h =>
    let s := { s with mesh := { s.mesh with held := s.mesh.held.erase h } }
    if r.ring = txnRing then s
    else if st = stEntFailed ∨ st = stEntNotReady then s.send src 0x22 h.tag.toNat h.attempt.toNat 1 [] r.fn
    else
      s.send src 0x21 h.tag.toNat h.attempt.toNat 0
        (toLE 2 st.toNat ++ toLE 2 (r.flags.toNat + at' (b2n (!r.image.isEmpty && !r.accepted.isEmpty)) 15) ++ toLE 4 out.length ++ fit 8 inl ++ out) r.fn

/-- Descriptor d completes: output for DONE and DONE_FLAGGED, zero writes otherwise, then its record. A recipe has
written its output before: len says how much. -/
def State.completeOne (s : State) (d : Nat) (st : Word16) (out inl : Bytes) (len : Option Nat := none) : State :=
  match s.desc d with
  | none => s
  | some r =>
    let s := if s.time.lock then s else s.flag d cfUnaligned
    let st := flaggedStatus st r.flags
    let ok := succeeded st
    let out := if ok then out else []
    let inl := if ok then inl else []
    let s :=
      if meshRing ≤ r.ring then (s.desc d).elim s fun r => s.sendResult r st (if ok then out else r.streamed) inl
      else
        let s := if ok then s.putOut r out else s.zeroOut d
        (s.desc d).elim s fun r => s.writeRecord r st (if ok then len.getD out.length else 0) inl
    let s := s.removeDesc d false
    if r.ring = txnRing then s.txnApplied st else s

/-- No descriptor is bound to an image of the list. -/
def State.recipesFree (s : State) (ids : List Nat) : Bool :=
  s.disp.descs.all fun r => r.recipe.all fun i => !ids.contains i

/-- Management operations that waited for the last descriptor bound to a recipe end (05 R141). -/
def State.settle (s : State) : State :=
  s.disp.descs.foldl (fun s r =>
    match r.stage with
    | .mgmtWait (.recipes ids) res =>
      if !s.recipesFree ids then s
      else if r.durable && !s.vault.pgFault then s.modDesc r.id fun q => { q with stage := .waitDurable res }
      else s.completeOne r.id (if r.durable then stPageTimeout else res.status) res.out res.inl res.len
    | _ => s) s

def State.complete (s : State) (d : Nat) (st : Word16) (out inl : Bytes) (len : Option Nat := none) : State :=
  (s.completeOne d st out inl len).settle

/-- A completion that had to wait is written (04 R94). -/
def State.deliver (s : State) (d : Nat) (r : Result) : State := s.complete d r.status r.out r.inl r.len

/-- Descriptor d completes with a status that releases nothing. -/
def State.finish (s : State) (d : Nat) (st : Word16) : State := s.complete d st [] []

/-- Output has been streamed for a descriptor: to host memory, or, of a peer's request, to the peer (02 R45; 14 R351). -/
def State.stream (s : State) (r : DRec) (b : Bytes) : State :=
  if meshRing ≤ r.ring then s.modDesc r.id fun q => { q with streamed := q.streamed ++ b } else s.putOut r b

end Sys2Proof.Machine
end

