-- ==== Sys2Proof/Machine/Time.lean ====
section
/-! DEFINITION. The time counter, PPS capture, LOCK, the discipline and the frequency report (15 R361 to R368), with
the commands of the time family. -/

namespace Sys2Proof.Machine

def State.setTime (s : State) (t : Time) : State := { s with time := t }

/-! ### The counter (15 R361) -/

/-- One CLK_SLOW cycle: 10 ns plus TRIM × 2^-32 ns, unless the counter is held. -/
def Time.tick (t : Time) : Time :=
  if t.holding then t
  else
    let v : Nat := t.counter.toNat * 2 ^ 32 + t.frac.toNat + ((10 * 2 ^ 32 : Int) + t.trim.toInt).toNat
    { t with counter := BitVec.ofNat 64 (v / 2 ^ 32), frac := BitVec.ofNat 32 v }

/-- A commit that was on its way is live now. -/
def Arb.arrived (x : Arb) : Arb :=
  match x.coming with
  | some (lo, hi) => { x with liveLo := lo, liveHi := hi, coming := none, seen := [] }
  | none => x

/-- The domain of arbiter a is up: cluster a's CLE, or PAU a - 8. -/
def State.arbUp (s : State) (a : Nat) : Bool := (s.domain (11 + a)).up

/-- The rotation period P: ROT_P + 1, where a ROT_P below 63 acts as 63 (10 R254). -/
def Arb.period (x : Arb) : Nat := max 63 x.rotP.toNat + 1

/-- An arbiter after the 8 CLK_FAB cycles of one CLK_SLOW cycle: ROT_COUNT goes on, to P where the sequencer runs; a map on its way is
live, and blocks granted have started (10 R249, R250, Table 10.7). -/
def Arb.tick (x : Arb) : Arb :=
  { x.arrived with
    rotCount := BitVec.ofNat 16 (min (if x.rotEn then x.period - 1 else 65535) (x.rotCount.toNat + 8)),
    eng := x.eng.map fun (c : Nat × EngArb) => (c.1, { c.2 with fresh := false }) }

/-- The arbiters that are powered go on by one CLK_SLOW cycle. -/
def State.rotTick (s : State) : Map Arb :=
  (List.range 12).foldl (fun (m : Map Arb) a => if s.arbUp a then mset m a (mget m a (arbReset a)).tick else m) s.eng.arbs

/-- The idle step's effect (notes/assumptions/4.md). -/
def State.idle (s : State) : State :=
  let t : State := { s with time := s.time.tick, eng := { s.eng with arbs := s.rotTick } }
  if s.eng.arbs.any fun c => c.2.coming.isSome then t.serveAllOpens else t

/-- A value written to TRIM is clamped to ±0x0100_0000. -/
def clampTrim (v : Int) : Word32 := BitVec.ofInt 32 (max (-0x1000000) (min 0x1000000 v))

/-! ### Loads (15 R366) -/

/-- Descriptors of TIME_SET that wait for a counted edge. -/
def State.edgeWaiters (s : State) : List (Nat × Result) :=
  s.disp.descs.filterMap fun r =>
    match r.stage with
    | .mgmtWait .edge x => some (r.id, x)
    | _ => none

/-- The counter takes a value; a pending load is done with, and the verbs that waited for it complete. -/
def State.loadTime (s : State) (v : Word64) : State :=
  let s := s.setTime { s.time with counter := v, frac := 0, valid := true, setPending := false, holding := false }
  s.edgeWaiters.foldl (fun s w => s.deliver w.1 w.2) s

/-! ### LOCK (15 R364) -/

/-- Every change of LOCK sets EV_PPS on the physical function. -/
def State.setLock (s : State) (v : Bool) : State :=
  if s.time.lock = v then s else (s.setTime { s.time with lock := v, lockEver := s.time.lockEver || v }).raiseEvt 0 evPps

/-- LOCK falls: the last f alone stays in TRIM (15 R365), and a load armed for an edge happens at once (15 R366). -/
def State.lockFall (s : State) : State :=
  if !s.time.lock then s
  else
    let s := s.setLock false
    let s := s.setTime { s.time with good := 0, badWindows := 0, trim := clampTrim s.time.lastF.toInt }
    if s.time.setPending then s.loadTime s.time.setVal else s

/-! ### The discipline (15 R365) -/

/-- n / d rounded to the nearest integer. -/
def roundDiv (n d : Int) : Int := (2 * n + d) / (2 * d)

def freqTerm (freq : Nat) : Int := roundDiv (-(freq - 3200000000 : Int) * 134217728) 10000000
def phaseTerm (off : Int) : Int := roundDiv (-off * 21474836) 1000000

def Time.discipline (t : Time) : Time :=
  let f := freqTerm t.freq.toNat
  let trim := if t.lock then clampTrim (f + phaseTerm t.ppsOffset.toInt) else clampTrim f
  { t with lastF := BitVec.ofInt 32 f, trim := trim, holdover := !t.lock && t.lockEver }

/-! ### Edges and windows (15 R363) -/

def second : Nat := 1000000000

/-- The boundary nearest to a counter value. -/
def nearest (c : Nat) : Nat := (c + second / 2) / second * second

/-- DELTA of a gate (15 Table 15.2). -/
def gateDelta (cycles : Nat) : Int := max (-(2 ^ 31 - 1)) (min (2 ^ 31 - 1) (cycles - 3200000000 : Int))

/-- A frequency count is posted. -/
def Time.post (t : Time) (cycles : Word64) (aon : Word32) : Time :=
  Time.discipline { t with freq := cycles, freqSeq := t.freqSeq + 1, counted := true, gateTime := t.counter, aonCount := aon,
                           deltas := (gateDelta cycles.toNat :: t.deltas).take 16 }

/-- The counter steps forward to a boundary, or holds where it is ahead of it. -/
def Time.align (t : Time) (b : Nat) (off : Int) : Time :=
  if off < 0 then { t with counter := BitVec.ofNat 64 b, frac := 0 } else { t with holding := true }

/-- A counted edge at boundary b with offset off. -/
def State.countEdge (s : State) (b : Nat) (off : Int) (cycles : Word64) (aon : Word32) : State :=
  let t := s.time
  let follows := t.lastBoundary == some (b - second)
  let good := if off.natAbs ≤ 500 then (if follows then t.good + 1 else 1) else 0
  let s := s.setTime { t with ppsOffset := BitVec.ofInt 32 off, capt := t.counter, missing := false, outOfWindow := false,
                              lastBoundary := some b, good := good }
  let s := if 10000 < off.natAbs then s.lockFall else if 4 ≤ good then s.setLock true else s
  let s := if follows then s.setTime (s.time.post cycles aon) else s
  if t.setPending then
    let v := t.setVal
    let s := if s.time.setPending then s.loadTime v else s
    s.setTime { s.time with lastBoundary := some v.toNat }
  else if !s.time.lock && decide (500 < off.natAbs) then s.setTime (s.time.align b off)
  else s

def execPpsEdge (cycles : Word64) (aon : Word32) (s : State) : Out :=
  answer s <|
    if !s.time.ppsEn then s
    else
      let c := s.time.counter.toNat
      let b := nearest c
      let off : Int := (c : Int) - b
      if 1000000 < off.natAbs then
        let s := s.setTime { s.time with outOfWindow := true }
        if s.time.lock then s
        else s.setTime { s.time with counter := BitVec.ofNat 64 ((c / second + 1) * second), frac := 0 }
      else if s.time.lastBoundary = some b then s.setTime { s.time with outOfWindow := true }
      else s.countEdge b off cycles aon

/-- A window closes: MISSING where it held no counted edge; three bad ones in a row end LOCK. -/
def execPpsWindowClose (s : State) : Out :=
  answer s <|
    if !s.time.ppsEn then s
    else
      let b := nearest s.time.counter.toNat
      let held := s.time.lastBoundary == some b
      let bad := !held || s.time.outOfWindow
      let n := if bad then s.time.badWindows + 1 else 0
      let s := s.setTime { s.time with
        missing := s.time.missing || !held, good := if held then s.time.good else 0,
        deltas := if held then s.time.deltas else [], badWindows := n }
      if 3 ≤ n then s.lockFall else s

def execCounterHoldEnd (s : State) : Out := answer s (s.setTime { s.time with holding := false })

/-- SET_NOW and SET_AT_EDGE of 15 Table 15.9. -/
def execSetNow (s : State) : Out := answer s (s.loadTime s.time.setVal)
def execSetAtEdge (s : State) : Out := answer s (s.setTime { s.time with setPending := true })

/-- A read of TIME_LO latches TIME_HI (02 R29, Table 2.12); a virtual function, and the physical function in Blank,
has no such register and reads zero (02 R30). -/
def execTimeLoRead (fn : Fn) (s : State) : Out :=
  answer s <|
    if fn.val ≠ 0 ∨ s.life.st = .blank then { s with host := { s.host with readData := 0 } }
    else
      let s := s.setTime { s.time with hiLatch := BitVec.ofNat 32 (s.time.counter.toNat / 2 ^ 32) }
      { s with host := { s.host with readData := BitVec.ofNat 32 s.time.counter.toNat } }

/-! ### The frequency report (15 R367, Table 15.2) -/

def toLEInt (n : Nat) (v : Int) : Bytes := toLE n (v % 2 ^ (8 * n)).toNat

def spanOf (l : List Int) : Int :=
  match l with
  | [] => 0
  | d :: r => r.foldl max d - r.foldl min d

def State.freqReport (s : State) : Bytes :=
  let t := s.time
  fit 64 (toLE 2 1
    ++ toLE 2 (b2n t.counted + 2 * b2n t.lock + 4 * b2n t.missing + 8 * b2n t.outOfWindow + 16 * b2n t.holdover + 32 * b2n t.ppsEn)
    ++ toLE 4 t.freqSeq.toNat ++ toLE 8 t.freq.toNat ++ toLE 8 t.gateTime.toNat
    ++ toLEInt 4 (gateDelta t.freq.toNat) ++ toLEInt 4 t.deltas.sum ++ toLE 1 t.deltas.length ++ zeros 3
    ++ toLE 4 t.ppsOffset.toNat ++ toLE 4 t.trim.toNat ++ toLE 4 t.aonCount.toNat ++ toLEInt 4 (spanOf t.deltas))

def runFreqReport (_ : Opnd) : V Answer := do
  let s ← getV
  pure { out := s.freqReport }

end Sys2Proof.Machine
end

