-- ==== Sys2Proof/Machine/Table.lean ====
section
/-! DEFINITION. The verbs by selector (04 Tables 4.4 to 4.19), and NOP (02 R35). -/

namespace Sys2Proof.Machine

/-- NOP reads nothing; every field it does not use is zero (02 R35, R58). -/
def formNop : Form :=
  { check := fun o => firstFail [(o.param == 0 && noInput o && allZero o.inl, stBad)], run := fun _ => pure {} }

def formFreqReport : Form :=
  { out := fun _ => some 64, check := fun o => firstFail [(o.param == 0 && noInput o && allZero o.inl, stBad)], run := runFreqReport }

/-- The verb of a family and operation; none for an undefined selector. -/
def verbForm (fam op : Nat) : Option Form :=
  match fam, op with
  | 0, 0 => some formNop
  | 1, 1 => some formPinTranslate
  | 1, 2 => some formPinVerify
  | 1, 3 => some formPinChange
  | 1, 4 => some formPinSet
  | 2, 1 => some formDukptRegister
  | 2, 2 => some formDukptStatus
  | 2, 3 => some formDukptRetire
  | 2, 4 => some formDukptMacGenerate
  | 2, 5 => some formDukptMacVerify
  | 2, 6 => some formDukptDataDecrypt
  | 2, 7 => some formDukptDataEncrypt
  | 2, 8 => some formInitialDerive
  | 3, 1 => some formMacGenerate
  | 3, 2 => some formMacVerify
  | 4, 1 => some formArqcVerify
  | 5, 1 => some formKeyBlockImport
  | 5, 2 => some formKeyBlockExport
  | 5, 3 => some formKeyBlockDelete
  | 6, 1 => some formComponentLoad
  | 6, 2 => some formComponentAbort
  | 7, 1 => some formPqSend
  | 7, 2 => some formRsaSend
  | 7, 3 => some formEccSend
  | 7, 4 => some formRklReceive
  | 8, 1 => some formGenericEncrypt
  | 8, 2 => some formGenericDecrypt
  | 8, 3 => some formGcmEncrypt
  | 8, 4 => some formGcmDecrypt
  | 9, 1 => some formSupportDigest
  | 9, 2 => some formSupportCompare
  | 9, 3 => some formSupportRandom
  | 9, 4 => some formSupportSign
  | 9, 5 => some formSupportVerify
  | 9, 6 => some formKemEncap
  | 9, 7 => some formKemDecap
  | 9, 8 => some formVaultGet
  | 9, 9 => some formVaultPut
  | 9, 10 => some formCounterInc
  | 9, 11 => some formTimeRead
  | 9, 12 => some formFreqReport
  | _, _ => none

/-- Management operations run from 1 to 25 (04 Table 4.20). -/
def mgmtDefined (op : Nat) : Bool := decide (1 ≤ op ∧ op ≤ 25)

/-- The selector names an operation, or a recipe with zero low bits (02 R36 step 1). -/
def DRec.defined (r : DRec) : Bool :=
  if r.isRecipe then r.selector % 2 ^ 15 == 0
  else if r.isMgmt then mgmtDefined r.operation
  else (verbForm r.family r.operation).isSome

end Sys2Proof.Machine
end

