-- ==== Sys2Proof/Machine/MeshOps.lean ====
section
/-! DEFINITION. What the mesh means for a descriptor at its origin: membership and quorum (14 R329, R330, R338, R344),
homes (R340, R348, R349), forwarding (R350) and the start of a replicated transaction (R343). -/

namespace Sys2Proof.Machine

def kHome (mrk : Bytes) : Bytes := Config.take 32 (Config.shake256 (mrk ++ ascii "withy-home"))

/-- The home of an indexed record (14 R348). -/
def State.indexHome (s : State) (p : Nat) (dom : Nat) (key : Bytes) : Nat :=
  let h := leNat (Config.take 8 (Config.shake256
    (kHome (s.mesh.mrk.getD []) ++ [BitVec.ofNat 8 p, BitVec.ofNat 8 dom] ++ key)))
  ((s.members.map (·.meshId)).getD (h % s.members.length) s.ownId)

/-- The home of the slot a reference names, where it is home-bound (14 R340). -/
def State.slotHomes (s : State) (p : Nat) (k : KeySel) : List Nat :=
  match k with
  | .handle _ => (mget s.mesh.slotHome (s.absSlot p k) none).toList
  | _ => []

/-- For random when the own entropy has failed: the ready member with the fewest queued descriptors, the lower
MESH_ID first (11 R275; 14 R349). -/
def State.randomHome (s : State) : List Nat :=
  let ready := (List.range 8).filter fun i => i != s.ownId && s.inMap i && (mget s.mesh.beats i {}).entReady
  (ready.foldl (fun b i => match b with
    | none => some i
    | some j => if (mget s.mesh.beats i {}).queued < (mget s.mesh.beats j {}).queued then some i else b) (none : Option Nat)).toList

/-- Every home an operation needs (14 R349). -/
def State.homes (s : State) (f : Form) (o : Opnd) : List Nat :=
  s.slotHomes o.p o.keyA ++ s.slotHomes o.p o.keyB ++ (f.nums o).map (fun n => bits n 53 3)
    ++ (f.lookups s o).map (fun l => s.indexHome o.p l.1 l.2)
    ++ (if s.ent.fail && f.random o then s.randomHome else [])

/-- The slot that a reference names is shared: a persistent one that no member alone holds (14 Table 14.7). -/
def State.sharedKey (s : State) (p : Nat) (k : KeySel) : Bool :=
  match k with
  | .handle _ => (mget s.mesh.slotHome (s.absSlot p k) none).isNone
  | _ => false

def State.usesShared (s : State) (o : Opnd) : Bool := s.sharedKey o.p o.keyA || s.sharedKey o.p o.keyB

/-- Where the operation runs: here, at a peer, or nowhere (14 R347, R349). Work that came from a peer runs here. -/
def homeCheck (f : Form) (o : Opnd) : V Unit := do
  let s ← getV
  if (s.desc o.d).any (fun r => decide (meshRing ≤ r.ring)) || !s.meshed then pure ()
  else
    need (s.quorum || (s.mesh.roster.any (·.serve)) || !s.usesShared o) stMesh
    match s.homes f o with
    | [] => pure ()
    | h :: r =>
      if !r.all (· == h) then failV stMesh else if h = s.ownId then pure () else stopV (.forward h)

/-! ### Forwarding (14 R350) -/

/-- A tag of 0-1,023 that no live request to the destination uses. -/
def State.freeTag (s : State) (dst : Nat) : Option Nat :=
  (List.range 1024).find? fun t => !s.mesh.fwds.any fun f => f.dst == dst && f.tag == t

def attemptKey (dst tag : Nat) : Nat := dst * 1024 + tag

/-- AUX of a FWD: the whole microseconds since the origin read the descriptor (17 R406), which the model does not measure
(notes/assumptions/69.md). -/
def fwdAge (d a : Nat) : Nat := Config.freeNat 11 (d * 65536 + a) % 2 ^ 32

/-- A FWD goes out under the tag's next attempt number. -/
def State.sendFwd (s : State) (f : Fwd) : State :=
  let a := mget s.mesh.attempts (attemptKey f.dst f.tag) 0 + 1
  let f := { f with attempt := a, port := ((s.route f.dst f.tag).map (·.1)).getD 4 }
  let s : State := { s with mesh := { s.mesh with
    fwds := (s.mesh.fwds.filter fun g => g.dst != f.dst || g.tag != f.tag) ++ [f]
    attempts := mset s.mesh.attempts (attemptKey f.dst f.tag) a } }
  s.send f.dst 0x10 f.tag a.toNat (fwdAge f.desc a.toNat) f.body f.part

/-- The FWD of a descriptor image (and a recipe step's 80 bytes) with the first 4,096 input bytes; a peer that is not
reachable, or a full tag space, is MESH_UNREACHABLE (04 R95). -/
def State.forward (s : State) (d dst : Nat) (image more input : Bytes) (before : Option Run := none) : Option State :=
  if !s.inMap dst then none
  else
    match s.freeTag dst with
    | none => none
    | some t =>
      let part := ((s.desc d).map (·.fn)).getD 0
      let f : Fwd := { dst := dst, tag := t, attempt := 0, desc := d, part := part, body := image ++ more ++ input.take 4096,
                       port := 0, sent := min 4096 input.length, step := before.map fun x => (x, input) }
      some ((s.sendFwd f).modDesc d fun r => { r with stage := .forwarded dst t })

/-! ### Replicated transactions (14 R343) -/

/-- The origin sends its TXN to the coordinator, and the descriptor waits for TXN_DONE. TAG and ATTEMPT name the descriptor
(notes/assumptions/21.md). -/
def State.startTxn (s : State) (d kind : Nat) (b : Bytes) (res : Result) : State :=
  let s : State := { s with mesh := { s.mesh with asked := mset s.mesh.asked d (txnBody 0 kind b) } }
  let s := s.send s.coordinator 0x30 (d % 65536) (d / 65536 % 65536) 0 (txnBody 0 kind b)
  s.modDesc d fun r => { r with stage := .mgmtWait (.txn d) res }

/-- A slot that is bound to the member that wrote it (14 R340). -/
def State.homeBound (s : State) (x : Slot) (fam op : Nat) : Bool :=
  let u := x.usage.toNat
  x.cls == 2 || (x.cls == 1 && decide (1 ≤ x.alg.toNat ∧ x.alg.toNat ≤ 3) && ((bit u 9 && bit u 7) || (bit u 11 && bit u 2)))
    || (x.depth != 1 && (mget s.mesh.slotHome x.parentSlot.toNat none).isSome) || (fam == 9 && op == 6)

end Sys2Proof.Machine
end

