-- ==== Sys2Proof/Machine/Paging.lean ====
section
/-! DEFINITION. The vault's traffic with host storage (06): sealed object copies, the paging rings, installing and
refusing what the host supplies, commits, the ready signal and the rebuild of the key register (03 R85). -/

namespace Sys2Proof.Machine

def State.setVault (s : State) (v : Vault) : State := { s with vault := v }

/-! ### Sealed copies (06 R155, R165, R173) -/

def State.pageCipher (s : State) (k : Nat) : Bytes := s.vaultKey k

/-- OCCUPIED of a page (06 Table 6.2). -/
def VPage.occupied (x : VPage) : Nat := ((List.range 31).map fun i => if x.recType i = 0 then 0 else 2 ^ i).sum

def pageHead (n : Nat) (x : VPage) : Bytes :=
  toLE 4 0x56415047 ++ toLE 2 1 ++ [BitVec.ofNat 8 x.kind, BitVec.ofNat 8 x.part] ++ toLE 4 n ++ zeros 4

def pageNonce (n entry : Nat) : Bytes := toBE 4 n ++ toBE 8 entry

def State.sealPage (s : State) (n : Nat) (x : VPage) (entry : Nat) : Bytes :=
  let body := toLE 4 x.occupied ++ toLE 4 x.nextFree ++ zeros 40 ++ (List.range 31).flatMap x.rc
  let ct := gcmCrypt 3 (s.pageCipher 0) (pageNonce n entry) body
  pageHead n x ++ ct ++ toLE 8 entry ++ pageNonce n entry
    ++ gcmTag 3 (s.pageCipher 0) (pageNonce n entry) (pageHead n x) ct 16 ++ zeros 28

/-- A supplied page copy, where its tag verifies and it names the page and entry asked for (06 R155). -/
def State.openPage (s : State) (n entry : Nat) (b : Bytes) : Option VPage :=
  let head := slice b 0 16
  let ct := slice b 16 0xFB0
  if gcmTag 3 (s.pageCipher 0) (pageNonce n entry) head ct 16 = slice b 0xFD4 16 ∧ leAt b 8 4 = n ∧ leAt b 0xFC0 8 = entry then
    let t := gcmCrypt 3 (s.pageCipher 0) (pageNonce n entry) ct
    some { kind := leAt b 6 1, part := leAt b 7 1, nextFree := leAt t 4 4,
           recs := (List.range 31).filterMap fun i =>
             let r := slice t (0x30 + 128 * i) 128
             if allZero r then none else some (i, r) }
  else none

def nodeNonce (lvl idx entry : Nat) : Bytes := toBE 1 lvl ++ toBE 3 idx ++ toBE 8 entry

def nodeTail (lvl idx entry : Nat) : Bytes := toLE 1 lvl ++ zeros 3 ++ toLE 4 idx ++ toLE 8 entry

def State.nodeTag (s : State) (lvl idx entry : Nat) (es : Bytes) : Bytes :=
  gcmTag 3 (s.pageCipher 1) (nodeNonce lvl idx entry) (es ++ nodeTail lvl idx entry) [] 16

def State.sealNode (s : State) (lvl idx : Nat) (x : Map Word64) (entry : Nat) : Bytes :=
  let es := (List.range 64).flatMap fun j => toLE 8 (mget x j 0).toNat
  es ++ s.nodeTag lvl idx entry es ++ nodeTail lvl idx entry

/-- A supplied node copy, where it is valid (06 R165). -/
def State.openNode (s : State) (lvl idx entry : Nat) (b : Bytes) : Option (Map Word64) :=
  let es := slice b 0 512
  if s.nodeTag lvl idx entry es = slice b 0x200 16 ∧ slice b 0x210 16 = nodeTail lvl idx entry then
    some ((List.range 64).filterMap fun j => if leAt es (8 * j) 8 = 0 then none else some (j, BitVec.ofNat 64 (leAt es (8 * j) 8)))
  else none

def State.keyCheck (s : State) : Bytes := (enc 3 (s.pageCipher 1) (zeros 16)).take 16

/-- Bytes 0x00 to 0x5F of a root slot (06 Table 6.13). -/
def RootSlot.body (r : RootSlot) : Bytes :=
  toLE 4 r.magic.toNat ++ toLE 2 r.format.toNat ++ zeros 2 ++ toLE 8 r.seq ++ toLE 8 r.reserve ++ toLE 8 r.rootEntry.toNat ++ fit 16 r.keyCheck
    ++ zeros 48

def RootSlot.sum (r : RootSlot) : Bytes := Config.take 32 (Config.shake256 r.body)

/-- The slot's 128 bytes. -/
def RootSlot.image (r : RootSlot) : Bytes := r.body ++ fit 32 r.check

/-- The slot holds an entry: its MAGIC and CHECK are correct (R173). -/
def RootSlot.whole (r : RootSlot) : Bool := r.magic == 0x56544A31 && r.check == r.sum

/-- The entry of sequence seq, with its CHECK. -/
def rootEntryOf (seq : Nat) (root : Word64) (keyCheck : Bytes) : RootSlot :=
  let r : RootSlot := { seq := seq, reserve := seq + 16, rootEntry := root, keyCheck := keyCheck }
  { r with check := r.sum }

/-! ### Ends of waiting descriptors -/

/-- The flags of a recipe's earlier steps join those of the step that waited (05 R149). -/
def State.mergeFlags (s : State) (d : Nat) : State :=
  match (s.desc d).bind fun r => r.run.bind (·.before) with
  | none => s
  | some f => s.modDesc d fun q => { q with flags := q.flags ||| f, run := q.run.map fun x => { x with before := none } }

/-- A descriptor ends with a status; its own updates are durable first (04 R94; 05 R148). -/
def State.endWith (s : State) (d : Nat) (st : Word16) : State :=
  let s := s.mergeFlags d
  match s.desc d with
  | none => s
  | some r =>
    if r.durable && !s.vault.pgFault then s.modDesc d fun q => { q with stage := .waitDurable { status := st } }
    else s.finish d st

/-- Parked descriptors, with what they wait for. -/
def State.parkedOn (s : State) : List (Nat × Nat × Nat) :=
  s.disp.descs.filterMap fun r =>
    match r.stage with
    | .parked l n => some (r.id, l, n)
    | _ => none

/-- A descriptor that waited goes on: a core's is queued again, the Warden's is taken up again. -/
def State.unwait (s : State) (d : Nat) : State :=
  match s.desc d with
  | none => s
  | some r => (s.modDesc d fun q => { q with stage := if q.isMgmt then .mgmt else .queued }).takeUp r.core

/-- Descriptors that wait for durability: they complete with what they hold. -/
def State.durables (s : State) : List (Nat × Result) :=
  s.disp.descs.filterMap fun r =>
    match r.stage with
    | .waitDurable x => some (r.id, x)
    | _ => none

/-- Descriptors that wait for a nonce reserve (06 R180). -/
def State.nonceWaiters (s : State) : List Nat :=
  (s.disp.descs.filter fun r => match r.stage with | .waitNonce _ => true | _ => false).map (·.id)

/-! ### The commit's end (06 R176, R177) -/

/-- Descriptors that wait for the running commit to make room resume. -/
def State.roomMade (s : State) : State :=
  s.parkedOn.foldl (fun s w => if w.2.1 = parkDirty then s.unwait w.1 else s) s

/-- An abandoned commit burns its sequence number; dirty marks stay. -/
def State.abandonCommit (s : State) : State :=
  match s.vault.commit with
  | none => s
  | some _ => (s.setVault { s.vault with commit := none }).roomMade

/-- Key fetches of pages and contexts that wait for a vault object, as a test picks them, end with a status, and so do the descriptors
they serve (06 R166, R171, R172). -/
def State.failFetches (s : State) (st : Word16) (bad : Nat × Nat → Bool) : State :=
  let hit := fun (f : Fetch) => f.waits.any bad
  let ds := (s.kr.fetches.filter hit).filterMap (·.desc)
  let s : State := { s with kr := { s.kr with fetches := s.kr.fetches.map fun f => if hit f then { f with waits := none, failed := some st } else f } }
  ds.foldl (fun (s : State) d => if (s.desc d).isSome then s.endWith d st else s) s

/-- A GATE_HOST refusal of a paging address (06 R171). -/
def State.pagingFault (s : State) : State :=
  let s := (s.setVault { s.vault with pgFault := true }).abandonCommit
  let s := s.parkedOn.foldl (fun (s : State) w => s.endWith w.1 stPageTimeout) s
  let s := s.failFetches stPageTimeout fun _ => true
  let s := s.nonceWaiters.foldl (fun (s : State) d => s.endWith d stPageTimeout) s
  s.durables.foldl (fun (s : State) w => s.finish w.1 stPageTimeout) s

/-- A paging access checked by GATE_HOST against partition 0's windows. -/
def State.pagingCheck (s : State) (a len : Nat) (write : Bool) : State × Bool :=
  let (s, ok) := s.checkHost pagingId 0 false a len write
  (if ok then s else s.pagingFault, ok)

/-! ### Requests (06 R169, R171) -/

def Vault.ringLen (v : Vault) : Nat := 2 ^ v.pgLog2.toNat

/-- The first paging buffer that no request owns. -/
def Vault.freeBuf (v : Vault) : Option Nat := (List.range v.pbufCount.toNat).find? fun b => !v.reqs.any fun q => q.buf == b

def objLen (lvl : Nat) : Nat := if lvl = 0 then 4096 else 544

def reqBytes (serial : Nat) (write : Bool) (lvl num : Nat) (copy phase : Bool) (buf time : Nat) : Bytes :=
  toLE 4 serial ++ toLE 2 ((if write then 2 else 1) + 16 * lvl + at' (b2n copy) 8 + at' (b2n phase) 15) ++ zeros 2
    ++ toLE 8 num ++ toLE 2 buf ++ toLE 2 (objLen lvl) ++ zeros 4 ++ toLE 8 time

/-- The request ring has a place: the consumer index is read again when it seems full. -/
def State.ringRoom (s : State) : State × Bool :=
  let v := s.vault
  if (v.prqTail - v.prqCiSeen).toNat < v.ringLen then (s, true)
  else
    let (s, ok) := s.pagingCheck v.prqCi.toNat 4 false
    if !ok then (s, false)
    else
      let ci := BitVec.ofNat 32 (leNat (s.hostGet v.prqCi.toNat 4))
      let s := s.setVault { s.vault with prqCiSeen := ci }
      (s, decide ((v.prqTail - ci).toNat < v.ringLen))

/-- One request written: for a WRITE the object goes into its buffer first. The Bool says that it went out. -/
def State.request (s : State) (write : Bool) (lvl num : Nat) (copy : Bool) (data : Bytes) : State × Bool :=
  match s.vault.freeBuf with
  | none => (s, false)
  | some buf =>
    let (s, room) := s.ringRoom
    if !room then (s, false)
    else
      let v := s.vault
      let ba := v.pbufBase.toNat + 4096 * buf
      let (s, ok) := if write then s.pagingCheck ba data.length true else (s, true)
      if !ok then (s, false)
      else
        let s := if write then s.postWrite 0 ba data else s
        let a := v.prqBase.toNat + 32 * (v.prqTail.toNat % v.ringLen)
        let (s, ok) := s.pagingCheck a 32 true
        if !ok then (s, false)
        else
          let s := s.postWrite 0 a (reqBytes v.nextSerial.toNat write lvl num copy
            (phaseOf v.prqTail.toNat v.pgLog2.toNat) buf s.time.counter.toNat)
          let q : PReq := { serial := v.nextSerial, write := write, obj := lvl, num := num, copy := copy, buf := buf }
          let s := s.setVault { s.vault with reqs := s.vault.reqs ++ [q], nextSerial := v.nextSerial + 1,
                                             prqTail := v.prqTail + 1, psInterval := 200 }
          (s.notePaging, true)

/-! ### What has to be read -/

/-- The first pinned node that is not resident (06 R163, R181). -/
def State.pinnedMissing (s : State) : Option (Nat × Nat) :=
  if s.vault.rootEntry = 0 then none
  else if !s.resident 5 0 then some (5, 0)
  else
    let kids := fun (l i : Nat) =>
      ((mget s.vault.nodes (nodeKey l i) []).filter fun c => c.2 != 0).map fun c => (l - 1, 64 * i + c.1)
    let four := kids 5 0
    match four.find? fun o => !s.resident o.1 o.2 with
    | some o => some o
    | none => (four.flatMap fun o => kids 4 o.2).find? fun o => !s.resident o.1 o.2

/-- The partition records are to be read: the key register and the vault are ready. That is so in every lifecycle, with or without
a rebuild to follow, for the windows of a partition stay as its registry records hold them (13 R328). -/
def State.partsDue (s : State) : Bool :=
  s.kr.ready && s.vault.ready && s.vault.pgEnabled && !s.vault.pgFault && !s.kr.partsLoaded

/-- Pages the rebuild has still to read (03 R85), and those of slots to be reloaded (R64). -/
def State.rebuildWants (s : State) : List (Nat × Nat) :=
  (if s.partsDue then (List.range 32).map fun p => (0, 1 + p)
  else if !s.vault.rebuilding then []
  else (s.kr.toRestore.map fun i => (0, slotPage i)).eraseDups) ++ s.kr.reloads.map fun i => (0, slotPage i)

/-- Every object that is needed and not there, as the next request for it. -/
def State.wants (s : State) : List (Nat × Nat) :=
  let v := s.vault
  if !v.ready then (if v.started && v.active.isSome then s.pinnedMissing.toList else [])
  else (v.wanted ++ s.rebuildWants).filterMap fun o => s.missing 6 o.1 o.2

/-- The next READ to issue: a want with no live READ of its own. -/
def State.nextRead (s : State) : Option (Nat × Nat) :=
  s.wants.find? fun o => !s.vault.reqs.any fun q => !q.write && !q.timedOut && q.obj == o.1 && q.num == o.2

/-- Requests go out while places and buffers last: WRITE requests hold at most half of them. -/
def State.pump : Nat → State → State
  | 0, s => s
  | f + 1, s =>
    let v := s.vault
    if !v.pgEnabled || v.pgFault || decide (v.ringLen ≤ v.reqs.length) then s
    else
      match s.nextRead with
      | some (l, n) =>
        let (s, ok) := s.request false l n (((s.entryOf 6 l n).getD 0).getLsbD 0) []
        if ok then s.pump f else s
      | none =>
        match v.commit with
        | some c =>
          match c.todo with
          | (l, n, e, b) :: rest =>
            if v.ringLen / 2 ≤ (v.reqs.filter (·.write)).length then s
            else
              let serial := v.nextSerial
              let (s, ok) := s.request true l n (e.getLsbD 0) b
              if ok then
                (s.setVault { s.vault with commit := s.vault.commit.map fun c => { c with todo := rest, serials := serial :: c.serials } }).pump f
              else s
          | [] => s
        | none => s

/-- All requests that can go out now do; objects that have come are wanted no longer. -/
def State.page! (s : State) : State :=
  let s := s.setVault { s.vault with
    wanted := s.vault.wanted.filter fun o => !s.vault.ready || (s.missing 6 o.1 o.2).isSome }
  s.pump (2 * s.vault.ringLen)

/-- A descriptor needs an object: it is wanted from now on, and asked for. -/
def State.want (s : State) (lvl num : Nat) : State :=
  if parkDirty ≤ lvl || s.vault.wanted.contains (lvl, num) then s.page!
  else (s.setVault { s.vault with wanted := s.vault.wanted ++ [(lvl, num)] }).page!

/-! ### The rebuild (03 R85; 16 R382, R394) -/

def State.avail (s : State) (l n : Nat) : Bool := (s.missing 6 l n).isNone

/-- Custodian digests of a partition's registry records (06 Table 6.7). -/
def registryDigests (x : VPage) : List Bytes :=
  (((List.range 31).flatMap fun i =>
    if x.recType i = 3 ∧ byteAt (x.rc i) 2 = 1 then (List.range 3).map fun k => slice (x.rc i) (0x20 + 32 * k) 32 else []).reverse.dropWhile
      allZero).reverse

/-- Host windows of a partition's registry records: eight of 16 bytes, size exponent, rights and base (06 Table 6.7;
13 R325). -/
def registryWindows (x : VPage) : Option Bytes :=
  let w := (List.range 31).flatMap fun i =>
    if x.recType i = 3 ∧ byteAt (x.rc i) 2 = 2 then slice (x.rc i) 0x20 96 else []
  if w.isEmpty then none else some (w.take 128)

/-- A host window as a command and a registry record hold it (04 R434; 13 R325). -/
def windowOf (b : Bytes) : Region :=
  let c := leAt b 9 1
  { base := BitVec.ofNat 64 (leAt b 0 8), sizeExp := BitVec.ofNat 6 (leAt b 8 1), valid := bit c 7, rd := bit c 0, wr := bit c 1 }

def windowsOf (b : Bytes) : List Region :=
  (List.range 8).map fun k =>
    let r := windowOf (slice b (16 * k) 16)
    { r with bad := r.malformed }

/-- Partition p takes eight windows (13 R326). -/
def State.setWindows (s : State) (p : Nat) (ws : List Region) : State :=
  let g := s.gateOf 0
  s.setGate 0 { g with regions := (List.range 8).foldl (fun m w => mset m (8 * p + w) (ws.getD w {})) g.regions }

/-- Partition p's record, anchor, custodians and windows come back from its page. -/
def State.loadPart (s : State) (p : Nat) : State :=
  let x := s.page (1 + p)
  let b := x.rc 0
  let s := { s with kr := { s.kr with anchors := mset s.kr.anchors p (BitVec.ofNat 16 (leAt b 2 2)) } }
  if byteAt b 0 = 2 then
    let q := partOfBytes (s.part p) b
    let s := s.setPart p { q with live := q.live || p == 0, custodians := registryDigests x }
    match registryWindows x with
    | some w => s.setWindows p (windowsOf w)
    | none => s
  else s

/-- Absolute indexes of all persistent regions. -/
def State.persistents (s : State) : List Nat :=
  (List.range 32).flatMap fun p => (List.range (s.part p).persist).map ((s.part p).base + ·)

/-- All partition records come back, once their pages are there; work that waited for them goes on. -/
def State.loadParts (s : State) : State :=
  if s.partsDue && (List.range 32).all fun p => s.avail 0 (1 + p) then
    let s := (List.range 32).foldl State.loadPart s
    let s := { s with kr := { s.kr with partsLoaded := true, toRestore := if s.vault.rebuilding then s.persistents else [] } }
    s.parkedOn.foldl (fun (s : State) w => if w.2.1 = parkParts then s.unwait w.1 else s) s
  else s

/-- DEPTH that the slot record of slot i gives it. -/
def State.recordDepth (s : State) (i : Nat) : Nat :=
  if s.recorded i then (Slot.ofImage (slice ((s.page (slotPage i)).rc (i % 31)) 0x20 0x38)).depth.toNat else 0

/-- Slots in ascending DEPTH and then ascending index (03 R85). -/
def State.byDepth (s : State) (l : List Nat) : List Nat :=
  l.insertionSort fun i j => s.recordDepth i * 65536 + i ≤ s.recordDepth j * 65536 + j

/-- Reloads whose slot records are there (03 R64). -/
def State.reloadSlots (s : State) : State :=
  s.kr.reloads.foldl (fun (s : State) i => if s.avail 0 (slotPage i) then s.restore i else s) s

/-- First all partition records; then, in a rebuild, the slot records in their order, which is known when every record has been
read (notes/assumptions/87.md). -/
def State.rebuildStep (s : State) : State :=
  if !s.vault.ready then s
  else
    let s := s.loadParts.reloadSlots
    if !s.vault.rebuilding || !s.kr.partsLoaded || !s.kr.toRestore.all (fun i => s.avail 0 (slotPage i)) then s
    else ((s.byDepth s.kr.toRestore).foldl State.restore s).setVault { s.vault with rebuilding := false }

/-- The rebuild starts once the key register, the vault and the paging rings are ready; else it goes on. -/
def State.rebuild (s : State) : State :=
  let s :=
    if !s.kr.rebuilt && s.kr.ready && s.vault.ready && s.vault.pgEnabled && !s.vault.pgFault && s.mayRebuild then
      { s with kr := { s.kr with rebuilt := true, toRestore := if s.kr.partsLoaded then s.persistents else s.kr.toRestore }
               vault := { s.vault with rebuilding := true } }
    else s
  s.rebuildStep

/-! ### The ready signal (06 R181) and waiting descriptors (06 R172) -/

/-- Parked descriptors whose object is there go on. -/
def State.resume (s : State) : State :=
  if !s.vault.ready then s
  else s.parkedOn.foldl (fun (s : State) w => if w.2.1 < parkDirty && s.avail w.2.1 w.2.2 then s.unwait w.1 else s) s

/-- VAULT_READY becomes 1; in Owned the lifecycle becomes Operational (16 R381). -/
def State.vaultReady (s : State) : State :=
  let s := s.setVault { s.vault with ready := true, wanted := s.vault.wanted ++ [(0, 0)] }
  let s := if s.life.st = .owned then { s with life := { s.life with st := .operational } } else s
  s.raiseAll evVaultReady

/-- A new vault gets its vault descriptor with VAULT_ID vid; page 2,148 is the first to allocate. The descriptor's PARTITION byte is
0 (DESIGN CHOICE, notes/assumptions/81.md). -/
def State.newVault (s : State) (vid : Bytes) : State :=
  let s := s.putRec 0 0 ([0x01, 0] ++ toLE 2 1 ++ toLE 4 2148 ++ zeros 8 ++ vid)
  s.setVault { s.vault with vaultId := vid }

def State.vaultReadyCheck (s : State) : State :=
  let v := s.vault
  if v.ready || !v.started || !v.pgEnabled || v.pgFault then s
  else
    match v.active with
    | none =>
      match s.wardenCalls 1 with
      | some (t, vid) => (t.newVault vid).vaultReady
      | none => s
    | some _ => if s.pinnedMissing.isNone then s.vaultReady else s

/-- What follows when an object came or a ring opened. -/
def State.vaultGoes (s : State) : State := s.vaultReadyCheck.rebuild.resume.page!

/-! ### Supplies (06 R166, R170, R171) -/

/-- Object (l, n) is resident from now on. -/
def State.installPage (s : State) (n : Nat) (x : VPage) : State :=
  let s := s.makeRoom 0 n
  let s := (s.setVault { s.vault with pages := mset s.vault.pages n x }).touch 0 n
  if n = 0 then s.setVault { s.vault with vaultId := slice (x.rc 0) 0x10 16 } else s

def State.installNode (s : State) (l n : Nat) (x : Map Word64) : State :=
  let s := s.makeRoom l n
  (s.setVault { s.vault with nodes := mset s.vault.nodes (nodeKey l n) x }).touch l n

/-- Descriptors that wait for object o end with a status, and it is wanted no longer; a slot to be reloaded from it stays corrupt. -/
def State.failObject (s : State) (o : Nat × Nat) (st : Word16) : State :=
  let needs := fun (s : State) (l n : Nat) => decide (l < parkDirty) && (l, n) == o || s.missing 6 l n == some o
  let ds := (s.parkedOn.filter fun w => decide (w.2.1 < parkDirty) && needs s w.2.1 w.2.2).map (·.1)
  let s := s.setVault { s.vault with wanted := s.vault.wanted.filter fun w => !needs s w.1 w.2 }
  let s : State := { s with kr := { s.kr with reloads := s.kr.reloads.filter fun i => !needs s 0 (slotPage i) } }
  let t := ds.foldl (fun (s : State) d => s.endWith d st) s
  t.failFetches st fun w => needs s w.1 w.2

/-- An object that fails authentication or freshness, or that the host does not hold (06 R166). -/
def State.integrityFail (s : State) (o : Nat × Nat) : State :=
  (s.setVault { s.vault with integritySeen := true }).failObject o stIntegrity

/-- The answer to a live READ. -/
def State.suppliedRead (s : State) (q : PReq) (res : Nat) : State :=
  if res = 1 then s.integrityFail (q.obj, q.num)
  else if res ≠ 0 then s.failObject (q.obj, q.num) stPageTimeout
  else
    let a := s.vault.pbufBase.toNat + 4096 * q.buf
    let (s, ok) := s.pagingCheck a (objLen q.obj) false
    if !ok then s
    else
      let b := s.hostGet a (objLen q.obj)
      let e := ((s.entryOf 6 q.obj q.num).getD 0).toNat
      if q.obj = 0 then
        match s.openPage q.num e b with
        | some x => s.installPage q.num x
        | none => s.integrityFail (0, q.num)
      else
        match s.openNode q.obj q.num e b with
        | some x => s.installNode q.obj q.num x
        | none => s.integrityFail (q.obj, q.num)

/-- The answer to a live WRITE: anything but OK abandons the commit it belongs to. -/
def State.suppliedWrite (s : State) (q : PReq) (res : Nat) : State :=
  match s.vault.commit with
  | none => s
  | some c =>
    if !c.serials.contains q.serial then s
    else if res = 0 then s.setVault { s.vault with commit := some { c with serials := c.serials.erase q.serial } }
    else s.abandonCommit

/-- The supply entry at the head of the supply ring is read and acted on. -/
def State.supply (s : State) : State :=
  let v := s.vault
  if !v.pgEnabled || v.pgFault || v.psqHead == v.psqPiSeen then s
  else
    let a := v.psqBase.toNat + 16 * (v.psqHead.toNat % v.ringLen)
    let (s, ok) := s.pagingCheck a 16 false
    if !ok then s
    else
      let e := s.hostGet a 16
      let s := s.setVault { s.vault with psqHead := v.psqHead + 1 }
      match s.vault.reqs.find? fun q => q.serial.toNat == leAt e 0 4 with
      | none => s.setVault { s.vault with discards := s.vault.discards + 1 }
      | some q =>
        let s := s.setVault { s.vault with reqs := s.vault.reqs.erase q }
        if q.timedOut then s.setVault { s.vault with discards := s.vault.discards + 1 }
        else if q.write then s.suppliedWrite q (leAt e 4 1)
        else s.suppliedRead q (leAt e 4 1)

/-! ### Commits (06 R174 to R176, R180) -/

/-- An entry in the root store journal: slot s mod 64, which reads back as written and is made active (R174; notes/assumptions/92.md). -/
def State.writeRoot (s : State) (seq : Nat) (root : Word64) : State :=
  let v := s.vault
  let r := rootEntryOf seq root s.keyCheck
  s.setVault { v with rootSlots := mset v.rootSlots (seq % 64) r, active := some (seq % 64), reserve := r.reserve }

/-- The entry an object gets under sequence seq: the copy its current entry does not name, or copy A. -/
def nextEntry (seq : Nat) (cur : Word64) : Word64 :=
  BitVec.ofNat 64 (2 * seq + if cur = 0 then 0 else if cur.getLsbD 0 then 0 else 1)

/-- The snapshot nodes above the dirty pages, level by level, with their new images. -/
structure Snap where
  objs : List (Nat × Nat × Word64) := []
  sealedObjs : List (Nat × Nat × Word64 × Bytes) := []
  /-- New entries of the level just done: number and entry. -/
  kids : List (Nat × Word64) := []
  deriving DecidableEq, Repr

/-- One level of nodes (06 R176): each takes its children's new entries and is sealed under its own. -/
def State.snapLevel (s : State) (seq lvl : Nat) (x : Snap) : Snap :=
  (x.kids.map fun k => k.1 / 64).eraseDups.foldl (fun y n =>
    let es := (x.kids.filter fun k => k.1 / 64 == n).foldl (fun m k => mset m (k.1 % 64) k.2) (mget s.vault.nodes (nodeKey lvl n) [])
    let e := nextEntry seq ((s.entryOf 6 lvl n).getD 0)
    { objs := y.objs ++ [(lvl, n, e)], sealedObjs := y.sealedObjs ++ [(lvl, n, e, s.sealNode lvl n es e.toNat)],
      kids := y.kids ++ [(n, e)] }) { x with kids := [] }

def State.snapshot (s : State) (seq : Nat) : Snap :=
  let pages := s.dirtyPages.map fun n => (n, nextEntry seq ((s.entryOf 6 0 n).getD 0))
  let x : Snap := { objs := pages.map fun c => (0, c.1, c.2),
                    sealedObjs := pages.map fun c => (0, c.1, c.2, s.sealPage c.1 (s.page c.1) c.2.toNat),
                    kids := pages }
  [1, 2, 3, 4, 5].foldl (fun x l => s.snapLevel seq l x) x

/-- Nonce reserves that the snapshot's slot record pages hold. -/
def State.snapReserves (s : State) : List (Nat × Nat) :=
  (s.dirtyPages.filter fun n => decide (33 ≤ n ∧ n < 2148)).flatMap fun n =>
    (List.range 31).filterMap fun k =>
      let b := (s.page n).rc k
      if byteAt b 0 = 4 then some ((n - 33) * 31 + k, leAt b 0x40 8) else none

/-- A commit starts: the reserve entry first where the sequence has passed the reserve, then the snapshot, sealed, and
its WRITE requests. -/
def State.startCommit (s : State) : State :=
  let v := s.vault
  if !v.ready || !v.pgEnabled || v.pgFault || v.commit.isSome then s
  else
    let seq := v.lastSeq + 1
    let (s, seq) := if v.reserve < seq then (s.writeRoot seq v.rootEntry, seq + 1) else (s, seq)
    let x := s.snapshot seq
    let root := ((x.objs.find? fun o => o.1 == 5).map (·.2.2)).getD s.vault.rootEntry
    let c : Commit := { seq := seq, objs := x.objs, root := root, reserves := s.snapReserves, todo := x.sealedObjs, serials := [],
                        waiters := s.durables.map (·.1), snaps := s.dirtyPages.map fun n => (n, s.page n) }
    (s.setVault { s.vault with lastSeq := seq, commit := some c }).page!

/-- Every WRITE of the commit has been answered OK. -/
def Commit.acknowledged (c : Commit) : Bool := c.todo.isEmpty && c.serials.isEmpty

/-- The snapshot's entries become current. -/
def State.installEntry (s : State) (o : Nat × Nat × Word64) : State :=
  if o.1 = 5 then s.setVault { s.vault with rootEntry := o.2.2 }
  else
    let k := nodeKey (o.1 + 1) (o.2.1 / 64)
    let fresh := !mhas s.vault.nodes k
    let s := if fresh then s.makeRoom (o.1 + 1) (o.2.1 / 64) else s
    (s.setVault { s.vault with nodes := mset s.vault.nodes k (mset (mget s.vault.nodes k []) (o.2.1 % 64) o.2.2) }).touch (o.1 + 1) (o.2.1 / 64)

/-- The root slot is written and read back: the commit's state is current, pages that are as the snapshot took them lose their marks, and
what waited on the commit completes. -/
def State.endCommit (s : State) (c : Commit) : State :=
  let s := (s.writeRoot c.seq c.root).setVault { (s.writeRoot c.seq c.root).vault with rootEntry := c.root, commit := none }
  let s := c.objs.foldl State.installEntry s
  let s := c.snaps.foldl (fun (s : State) x => if s.page x.1 = x.2 then s.setPage x.1 { x.2 with dirty := false } else s) s
  let s := { s with kr := { s.kr with reserves := c.reserves.foldl (fun (m : Map Nat) (r : Nat × Nat) => mset m r.1 r.2) s.kr.reserves } }
  let s := s.durables.foldl (fun (s : State) (w : Nat × Result) => if c.waiters.contains w.1 then s.deliver w.1 w.2 else s) s
  let s := s.nonceWaiters.foldl State.unwait s
  s.roomMade.page!

end Sys2Proof.Machine
end

