-- ==== Sys2Proof/Machine/Run.lean ====
section
/-! DEFINITION. Running a verb's descriptor: its checks, its work, and how each end of the work is carried out
(04 R86 to R95; 06 R172; 11 R273; 14 R343, R349). -/

namespace Sys2Proof.Machine

/-! ### Mesh sides of a run -/

/-- The forwarded request a descriptor of a mesh peer carries (14 R350). -/
def State.heldOf (s : State) (r : DRec) : Option Held :=
  s.mesh.held.find? fun h => meshRing + h.src == r.ring && h.tag.toNat == r.idx.toNat

/-- All of a forwarded request's input has come (14 R352). -/
def DRec.inputHere (s : State) (r : DRec) : Bool :=
  decide (r.ring < meshRing) || (s.heldOf r).any fun h => h.got == r.inLen

/-- The operands of a request that a mesh peer forwarded: the peer has made the checks of 02 R36. A recipe step's own 80 bytes
stand in its image (14 Table 14.6), and say whether its run has had the counter it presents accepted (05 R147;
notes/assumptions/22.md). -/
def meshIntake (r : DRec) (f : Form) (chk : Bool) : V Opnd := do
  let s ← getV
  let o := withHandles r f (r.opnd chk)
  match f.check o with
  | some st => failV st
  | none =>
    if byteAt r.image 0x0B != 0 then
      modV fun s => s.modDesc r.id fun q => { q with accepted := (s.ksnMark o).toList ++ q.accepted }
    let decl := leAt r.image 0x1C 4
    pure { o with inp := ((s.heldOf r).map (·.body)).getD [], decl := if decl = 0 then none else some decl }

/-- The input bytes of a descriptor, as its checks let them be read. -/
def State.inputOf (s : State) (r : DRec) : Bytes :=
  match (runV (hostOperands r 0) s).1 with
  | .ok (ins, _) => s.gather ins
  | .error _ => []

/-- Slots whose persistent image changed between two states. -/
def State.written (s t : State) : List Nat :=
  (t.kr.slots.filter fun c =>
    let x := s.slot c.1
    (x.persist || c.2.persist) && (x.alg != c.2.alg || x.gen != c.2.gen)).map (·.1)

/-- The written slots that are home-bound: held on this member alone (14 R340). -/
def State.writtenHome (s t : State) (fam op : Nat) : List Nat :=
  (s.written t).filter fun i =>
    if (t.slot i).persist then s.homeBound (t.slot i) fam op else (mget s.mesh.slotHome i none).isSome

/-- A home map entry as a transaction carries it: slot, then 8 + member, or 0 for a slot no longer bound. -/
def homeEntry (i : Nat) (home : Option Nat) : Bytes :=
  toLE 2 i ++ [BitVec.ofNat 8 (home.elim 0 (8 + ·))]

/-! ### The ends of a run -/

/-- Work done: the completion at once, or after the commit of its updates (04 R94). -/
def State.runDone (s : State) (d : Nat) (a : Answer) : State :=
  match s.desc d with
  | none => s
  | some r =>
    if a.durable || r.durable then
      if s.vault.pgFault then s.finish d stPageTimeout
      else s.modDesc d fun q => { q with stage := .waitDurable { status := stDone, out := a.out, inl := a.inl } }
    else s.complete d stDone a.out a.inl

/-- Reloads that a key fetch has asked for start at once: the pages they need are requested (03 R64). -/
def State.askReloads (s : State) : State := if s.kr.reloads.isEmpty then s else s.page!

/-- Failed work: what it changed stands, and what it had streamed is zeroed at its completion (02 R45). -/
def State.runFailed (s : State) (d : Nat) (st : Word16) (wrote : Bytes) : State :=
  match s.desc d with
  | none => s
  | some r => ((s.stream r wrote).endWith d st).askReloads

/-- A descriptor stops running and waits; its core takes up the next. -/
def State.pause (s : State) (d : Nat) (g : Stage) : State :=
  match s.desc d with
  | none => s
  | some r => (s.modDesc d fun q => { q with stage := g }).takeUp r.core

/-- A call enters the expander's queue where it is not served; one that waits already keeps its place (11 R270). d is the
descriptor it is for + 1, 0 for none; behind says that the expander waited already, whose own wait is counted. -/
def State.queueCall (s : State) (c : Nat) (internal : Bool) (d : Nat) (behind : Bool) : State :=
  let x := s.expander c
  if d != 0 && x.waits.any (·.2 == d) then s
  else s.setExpander c { x with waits := x.waits ++ [(internal, d)], dryWaits := if behind then satInc x.dryWaits else x.dryWaits }

/-- Cluster c's expander waits for a seed (11 R270). -/
def State.waitSeed (s : State) (c : Nat) : State :=
  let x := s.expander c
  if x.inst && !x.seedWait && s.ent.ready && !s.expanderServes c then
    (s.setExpander c { x with seedWait := true, dryWaits := satInc x.dryWaits }).seedQueue
  else s

/-- The cluster whose expander a descriptor draws from. -/
def State.drawCluster (s : State) (r : DRec) : Nat := if r.isMgmt then s.wardenCluster else r.core / 8

/-- What a wait asks for besides waiting. A slot that waits for its nonce reserve has been restored by then (03 R85; 06 R180). -/
def State.askFor (s : State) (d : Nat) (g : Stage) : State :=
  match g with
  | .waitSlots _ =>
    if s.kr.poolWait.contains d then s else { s with kr := { s.kr with poolWait := s.kr.poolWait ++ [d] } }
  | .waitNonce i =>
    let s := if s.kr.toRestore.contains i then s.restore i else s
    s.raiseReserve i ((s.slot i).nonce.toNat + 1)
  | .waitRandom => (s.desc d).elim s fun r => (s.waitSeed (s.drawCluster r)).queueCall (s.drawCluster r) false (d + 1) (s.expander (s.drawCluster r)).seedWait
  | _ => s

/-- The descriptor parks for a vault object, which is asked for (06 R172). -/
def State.parkFor (s : State) (d l n : Nat) : State := (s.pause d (.parked l n)).want l n

/-- The whole request goes to a peer, or completes MESH_UNREACHABLE (04 R95). -/
def State.runForward (s : State) (d peer : Nat) : State :=
  match s.desc d with
  | none => s
  | some r =>
    match s.forward d peer r.bytes [] (s.inputOf r) with
    | some t => t.takeUp r.core
    | none => s.endWith d stMesh

/-- A write of shared slots becomes a replicated transaction: nothing is changed yet (14 R342, R343). -/
def State.runTxn (s : State) (d : Nat) (a : Answer) : State :=
  match s.desc d with
  | none => s
  | some r =>
    if !s.quorum then s.endWith d stMesh
    else (s.startTxn d 0 (toLE 1 r.fn ++ r.bytes ++ s.inputOf r) { status := stDone, out := a.out, inl := a.inl }).takeUp r.core

/-- Home-bound writes are this member's own; the home map they change is shared. -/
def State.runHomed (s : State) (d : Nat) (a : Answer) (is : List Nat) (fl : BitVec 15 := 0) : State :=
  let bytes := is.flatMap fun i => homeEntry i (if (s.slot i).persist then some s.ownId else none)
  let s := s.modDesc d fun q => { q with durable := q.durable || a.durable || q.isRecipe }
  (s.startTxn d 2 bytes { status := stDone, out := a.out, inl := a.inl, flags := fl }).takeUp (((s.desc d).map (·.core)).getD 0)

/-- Descriptor d's writes are its own: the device is in no mesh, or the work applies a replicated transaction. -/
def State.alone (s : State) (d : Nat) : Bool := !s.meshed || (s.desc d).any fun r => r.ring == txnRing

/-- The run from state s ended with e in state t. -/
def State.runEnds (s : State) (d fam op : Nat) (e : Except Stop Answer) (t : State) : State :=
  match e with
  | .ok a =>
    if s.alone d || (s.written t).isEmpty then t.runDone d a
    else
      let h := s.writtenHome t fam op
      if h.isEmpty then (s.keepWork t d).runTxn d a
      else if !s.quorum then (s.keepWork t d).endWith d stMesh else t.runHomed d a h
  | .error (.fail st w) => t.runFailed d st w
  | .error (.park l n) => (s.keepWork t d).parkFor d l n
  | .error (.parkKeep l n) => t.parkFor d l n
  | .error (.wait g) => ((s.keepWork t d).pause d g).askFor d g
  | .error (.waitKeep g) => (t.pause d g).askFor d g
  | .error (.hold g) =>
    if s.alone d || (s.written t).isEmpty then t.pause d g
    else
      let h := s.writtenHome t fam op
      if h.isEmpty then (s.keepWork t d).runTxn d {}
      else if !s.quorum then (s.keepWork t d).endWith d stMesh else t.runHomed d {} h
  | .error (.forward q) => (s.keepWork t d).runForward d q

/-- A verb's whole work. -/
def verbWork (r : DRec) (f : Form) (chk : Bool) : V Answer := do
  let o ← (if meshRing ≤ r.ring then meshIntake r f chk else do let x ← intake r f chk; pure x.1)
  homeCheck f o
  f.run o

/-- The descriptor d, where a core runs it and it selects the operation. -/
def State.startedAs (s : State) (d fam op : Nat) : Option DRec :=
  (s.desc d).filter fun r =>
    r.stage == .started && !r.isRecipe && r.family == fam && r.operation == op && DRec.inputHere s r

/-- A verb's command. -/
def State.runVerb (s : State) (f : Form) (fam op d : Nat) (chk : Bool) : State :=
  match s.startedAs d fam op with
  | none => s
  | some r =>
    let s := s.rewind d
    let (e, t) := runV (verbWork r f chk) s
    s.runEnds d fam op e t

end Sys2Proof.Machine
end

