-- ==== Sys2Proof/Machine/MeshWork.lean ====
section
/-! DEFINITION. Work that mesh peers send: the forwarded queue, its places on the cores, and the receive areas its input streams
into (14 R350 to R352). -/

namespace Sys2Proof.Machine

/-! ### Requests held as home -/

def Held.is (h : Held) (src tag : Nat) : Bool := h.src == src && h.tag.toNat == tag

def State.setHeld (s : State) (h : Held) : State :=
  { s with mesh := { s.mesh with held := s.mesh.held.map fun g => if g.is h.src h.tag.toNat then h else g } }

def State.dropHeld (s : State) (h : Held) : State :=
  { s with mesh := { s.mesh with held := s.mesh.held.filter fun g => !g.is h.src h.tag.toNat } }

/-- The descriptor of a held request. -/
def State.heldDesc (s : State) (h : Held) : Option DRec :=
  s.disp.descs.find? fun r => r.ring == meshRing + h.src && r.idx.toNat == h.tag.toNat

/-- REFUSE (R353): 1 no entropy, 2 not serving, 3 gate refusal. -/
def State.refuseHeld (s : State) (h : Held) (why : Nat) : State :=
  let s := (s.dropHeld h).send h.src 0x22 h.tag.toNat h.attempt.toNat why [] h.part
  match s.heldDesc h with
  | none => s
  | some r => s.removeDesc r.id false

/-! ### The receive area (R351, R352) -/

/-- It is the top 16 KiB of a core's local SRAM, a ring of four 4 KiB segments. -/
def receiveBase : Nat := 2 ^ 18 - 2 ^ 14

/-- Input bytes from offset off on go to core k's receive area, by way of GATE_MESH under the port's identity. -/
def State.receive (s : State) (k port off : Nat) (b : Bytes) (part : Nat) : State × Bool :=
  if b.isEmpty then (s, true)
  else
    let at0 := receiveBase + off % 16384
    let (s, ok) := s.gateCheck 5 (75 + port) (0x04000000 + 0x40000 * k + at0) true part
    (if ok then s.sramPut k at0 b else s, ok)

/-- FWD_MORE for the next segment, while input remains. -/
def State.askMore (s : State) (h : Held) (inLen : Nat) : State × Held :=
  if inLen ≤ h.asked then (s, h)
  else
    let g := { h with asked := min inLen (h.asked + 4096) }
    ((s.setHeld g).send h.src 0x43 h.tag.toNat h.attempt.toNat 0 (toLE 8 h.asked) h.part, g)

/-- A request has been placed on its core: the first segment takes the input its FWD carried, and the three others are asked
for. -/
def State.seat (s : State) (d : Nat) : State :=
  match (s.desc d).filter fun r => decide (meshRing ≤ r.ring ∧ r.ring < txnRing) with
  | none => s
  | some r =>
    match s.heldOf r with
    | none => s
    | some h =>
      let (s, ok) := s.receive r.core h.port 0 h.body r.fn
      if !ok then s.refuseHeld h 3
      else
        let (s, h) := s.askMore h r.inLen
        let (s, h) := s.askMore h r.inLen
        (s.askMore h r.inLen).1

/-! ### The forwarded queue (R350) -/

/-- Requests in it: it holds 512, from all origins. -/
def State.fwdQueue (s : State) : Nat :=
  (s.disp.descs.filter fun r => decide (meshRing ≤ r.ring ∧ r.ring < txnRing) && r.stage == .inbox).length

/-- The operation a descriptor image selects takes random. -/
def DRec.takesRandom (r : DRec) : Bool :=
  (verbForm r.family r.operation).any fun f => f.random (withHandles r f (r.opnd true))

/-- Why the home refuses a request (R353). -/
def State.fwdRefusal (s : State) (r : DRec) : Option Nat :=
  if s.life.st != .operational || !s.vault.ready || s.mesh.resyncing then some 2
  else if r.takesRandom && !s.ent.ready then some 1
  else none

/-- The 80 bytes of a recipe step that a FWD carries: they stand between the image and the input (Table 14.6). -/
def fwdStep (body : Bytes) : Bytes :=
  if body.length = 144 + min 4096 (leAt body 0x18 4) then slice body 64 80 else []

/-- A FWD that this device holds already is answered with the held attempt; any other is refused, queued, or left waiting. -/
def State.takeFwd (s : State) (m : Msg) : State :=
  match s.mesh.held.find? fun h => h.is m.src.val m.tag.toNat with
  | some h => s.send m.src.val 0x20 m.tag.toNat m.attempt.toNat h.attempt.toNat [] m.part.val
  | none =>
    let step := fwdStep m.body
    let r : DRec := { id := s.disp.nextId, fn := m.part.val, ring := meshRing + m.src.val, idx := BitVec.ofNat 32 m.tag.toNat,
                      bytes := fit 64 (m.body.take 64), image := step, stage := .inbox }
    match s.fwdRefusal r with
    | some why => s.send m.src.val 0x22 m.tag.toNat m.attempt.toNat why [] m.part.val
    | none =>
      if 512 ≤ s.fwdQueue then { s with mesh := { s.mesh with waitFwd := s.mesh.waitFwd ++ [m] } }
      else
        let inp := m.body.drop (64 + step.length)
        let h : Held := { src := m.src.val, tag := m.tag, attempt := m.attempt, part := m.part.val, body := inp, got := inp.length,
                          asked := inp.length, port := m.port.val }
        let s : State := { s with
          disp := { s.disp with nextId := r.id + 1, descs := s.disp.descs ++ [r], inbox := s.disp.inbox ++ [r.id] }
          mesh := { s.mesh with held := s.mesh.held ++ [h] } }
        s.send m.src.val 0x20 m.tag.toNat m.attempt.toNat m.attempt.toNat [] m.part.val

/-- A FWD that waited enters the queue when it has a place again. -/
def State.admitFwd (s : State) : State :=
  match s.mesh.waitFwd with
  | [] => s
  | m :: l => if 512 ≤ s.fwdQueue then s else { s with mesh := { s.mesh with waitFwd := l } }.takeFwd m

end Sys2Proof.Machine
end

