-- ==== Sys2Proof/Machine/HostCmds.lean ====
section
/-! DEFINITION. The mailbox (02 R31 to R33), polling and flow control (R47, R48), reading descriptors (R49, R50), the
dispatcher (01 R14; 05 R144), interrupt timers (R53) and waiting transient slots (03 R68). -/

namespace Sys2Proof.Machine

/-! ### Mailbox -/

/-- A mailbox command ends: MBOX_RESULT holds the command and its status, and MBOX_DONE is set (02 R31). -/
def State.mboxEnd (s : State) (n code : Nat) (st : Word16) : State :=
  (s.setFunc n { s.func n with mboxRun := none, mboxResult := BitVec.ofNat 32 (at' code 16 + st.toNat) }).raiseEvt n evMbox

/-- A write to CMD: ignored while FN_READY is 0 or a command runs, which sets MBOX_BUSY; ACCESS_FAULT where the
partition does not exist (02 R27, R31). -/
def State.mailbox (s : State) (n code : Nat) (run : State → State) : State :=
  let f := s.func n
  if f.mboxRun.isSome then s.setFunc n { f with mboxBusy := true }
  else if !f.fnReady then s
  else if !s.partLive n then s.mboxEnd n code stAccess
  else run s

/-- Step 1 of 02 R32. -/
def Ring.formOk (x : Ring) : Bool :=
  !x.enabled && decide (6 ≤ x.log2.toNat ∧ x.log2.toNat ≤ 16)
    && x.sqBase.toNat % 4096 == 0 && x.cqBase.toNat % 4096 == 0 && x.piAddr.toNat % 64 == 0 && x.ciAddr.toNat % 64 == 0

/-- A list of host ranges, each with its direction, lies inside partition p's windows. -/
def State.rangesPass (s : State) (p : Nat) (l : List (Nat × Nat × Bool)) : Bool :=
  l.all fun e => s.hostPasses p false e.1 e.2.1 e.2.2

/-- A 32-bit word of host memory read for a ring; none when GATE_HOST refuses it. -/
def State.readWord (s : State) (p a : Nat) : State × Option Nat :=
  let (s, ok) := s.checkHost ringEngineId p false a 4 false
  (s, if ok then some (leNat (s.hostGet a 4)) else none)

/-- Step 3 of 02 R32: both index words read as zero. -/
def State.wordsZero (s : State) (p a b : Nat) : State × Option Word16 :=
  match s.readWord p a with
  | (s, none) => (s, some stAccess)
  | (s, some x) =>
    match s.readWord p b with
    | (s, none) => (s, some stAccess)
    | (s, some y) => (s, if x = 0 ∧ y = 0 then none else some stBad)

def State.enableRing (s : State) (n r : Nat) : State :=
  let x := s.ring n r
  if !x.formOk then s.mboxEnd n 1 stBad
  else if !s.rangesPass n [(x.sqBase.toNat, 64 * ringSize x, false), (x.piAddr.toNat, 4, false), (x.ciAddr.toNat, 4, false),
      (x.cqBase.toNat, 32 * ringSize x, true)] then s.mboxEnd n 1 stAccess
  else
    match s.wordsZero n x.piAddr.toNat x.ciAddr.toNat with
    | (s, some st) => s.mboxEnd n 1 st
    | (s, none) =>
      (s.setRing n r { x with sqHead := 0, cqTail := 0, ciSeen := 0, piSeen := 0, stopped := false, draining := false,
                              outstanding := 0, enabled := true, interval := 200 }).mboxEnd n 1 stDone

/-- RING_ENABLE (02 R32). -/
def execRingEnable (fn : Fn) (r : RingNo) (s : State) : Out := answer s (s.mailbox fn.val 1 fun s => s.enableRing fn.val r.val)

def State.disableRing (s : State) (n r : Nat) : State :=
  let x := s.ring n r
  if !x.enabled then s.mboxEnd n 2 stDone
  else
    let s := s.setRing n r { x with draining := true }
    s.setFunc n { s.func n with mboxRun := some r, mboxResult := 0xFFFF0000 }

/-- RING_DISABLE (02 R33). -/
def execRingDisable (fn : Fn) (r : RingNo) (s : State) : Out := answer s (s.mailbox fn.val 2 fun s => s.disableRing fn.val r.val)

/-- RING_DISABLE finishes once OUTSTANDING is zero (02 R33). -/
def execRingDisableDone (fn : Fn) (r : RingNo) (s : State) : Out :=
  answer s <|
    let n := fn.val
    let x := s.ring n r.val
    if (s.func n).mboxRun = some r.val ∧ x.outstanding = 0 then
      (s.setRing n r.val { x with enabled := false, draining := false, fault := false, stopped := false }).mboxEnd n 2 stDone
    else s

/-- The checks of 02 R32 on the paging pair. -/
def Vault.formOk (v : Vault) : Bool :=
  !v.pgEnabled && decide (6 ≤ v.pgLog2.toNat ∧ v.pgLog2.toNat ≤ 12)
    && v.prqBase.toNat % 4096 == 0 && v.psqBase.toNat % 4096 == 0 && v.pbufBase.toNat % 4096 == 0
    && v.psqPi.toNat % 64 == 0 && v.prqCi.toNat % 64 == 0 && decide (v.ringLen ≤ v.pbufCount.toNat ∧ v.pbufCount.toNat ≤ 4096)

def Vault.ranges (v : Vault) : List (Nat × Nat × Bool) :=
  [(v.prqBase.toNat, 32 * v.ringLen, true), (v.psqBase.toNat, 16 * v.ringLen, false), (v.psqPi.toNat, 4, false),
   (v.prqCi.toNat, 4, false), (v.pbufBase.toNat, 4096 * v.pbufCount.toNat, false), (v.pbufBase.toNat, 4096 * v.pbufCount.toNat, true)]

def State.enablePaging (s : State) (n : Nat) : State :=
  if n ≠ 0 then s.mboxEnd n 3 stAccess
  else
    let v := s.vault
    if !v.formOk then s.mboxEnd 0 3 stBad
    else if !s.rangesPass 0 v.ranges then s.mboxEnd 0 3 stAccess
    else
      match s.wordsZero 0 v.psqPi.toNat v.prqCi.toNat with
      | (s, some st) => s.mboxEnd 0 3 st
      | (s, none) =>
        let again := s.vault.recommit
        let s := (s.setVault { s.vault with pgEnabled := true, prqTail := 0, prqCiSeen := 0, psqHead := 0, psqPiSeen := 0,
                                            psInterval := 200, recommit := false }).mboxEnd 0 3 stDone
        (if again then s.startCommit else s).vaultGoes

/-! ### Polling -/

/-- POLL_MAX in ns: 0 acts as 1 µs, more than 50 as 50 (02 Table 2.8). -/
def Ring.pollCap (x : Ring) : Nat := 1000 * (if x.pollMax = 0 then 1 else min 50 x.pollMax.toNat)

/-- An error flag of function status +0x04, with its ring's mask bit. -/
def State.ringError (s : State) (n r : Nat) (f : Func → Func) : State :=
  let x := f (s.func n)
  s.setFunc n { x with ringMask := x.ringMask ||| BitVec.ofNat 8 (2 ^ r) }

/-- The consumer index is read again; one that moved backwards or past CQ_TAIL is ignored (02 R47). -/
def State.readConsumer (s : State) (n r : Nat) : State :=
  let x := s.ring n r
  match s.readWord n x.ciAddr.toNat with
  | (s, none) => s.ringFault n r
  | (s, some ci) =>
    let ci := BitVec.ofNat 32 ci
    if (x.cqTail - x.ciSeen).toNat < (ci - x.ciSeen).toNat then s.ringError n r fun f => { f with ciInvalid := true }
    else s.setRing n r { s.ring n r with ciSeen := ci }

/-- The gap of a ring is within its size. -/
def Ring.gapFits (x : Ring) : Bool := decide ((x.piSeen - x.ciSeen).toNat ≤ ringSize x)

/-- Flow control after a producer index was read (02 R47). -/
def State.flowControl (s : State) (n r : Nat) : State :=
  if (s.ring n r).gapFits then s.setRing n r { s.ring n r with stopped := false }
  else
    let s := s.readConsumer n r
    let x := s.ring n r
    if x.fault then s
    else if x.gapFits then s.setRing n r { x with stopped := false }
    else (s.setRing n r { x with stopped := true }).ringError n r fun f => { f with overcommit := true }

/-- One poll of a ring (02 R48). A ring with descriptors still to read is read instead, unless flow control holds it. -/
def State.pollRing (s : State) (n r : Nat) : State :=
  let x := s.ring n r
  if !x.enabled || x.fault || x.draining || (x.piSeen != x.sqHead && !x.stopped) then s
  else
    match s.readWord n x.piAddr.toNat with
    | (s, none) => s.ringFault n r
    | (s, some pi) =>
      let pi := BitVec.ofNat 32 pi
      let x := s.ring n r
      (s.setRing n r { x with piSeen := pi, interval := if pi = x.piSeen then min x.pollCap (2 * x.interval) else 200 }).flowControl n r

/-- One poll of the page supply ring (02 R48; 06 R170). -/
def State.pollSupply (s : State) : State :=
  let v := s.vault
  if !v.pgEnabled || v.pgFault || v.psqHead != v.psqPiSeen then s
  else
    let (s, ok) := s.pagingCheck v.psqPi.toNat 4 false
    if !ok then s
    else
      let pi := BitVec.ofNat 32 (leNat (s.hostGet v.psqPi.toNat 4))
      s.setVault { s.vault with psqPiSeen := pi, psInterval := if pi = v.psqPiSeen then min 50000 (2 * v.psInterval) else 200 }

/-! ### Clusters that take work -/

def State.cst (s : State) (c : Nat) : CState := mget s.pwr.cstate c .off

def State.serving (s : State) : List Nat := (List.range 8).filter fun c => s.pwr.servingBits.getLsbD c

/-- Descriptors a core holds, and how many of them are recipes. -/
def State.coreLoad (s : State) (k : Nat) : Nat := (s.coreQueue k).length

def State.coreRecipes (s : State) (k : Nat) : Nat :=
  ((s.coreQueue k).filter fun d => (s.desc d).any DRec.isRecipe).length

def coresOf (c : Nat) : List Nat := (List.range 8).map (8 * c + ·)

def State.clusterLoad (s : State) (c : Nat) : Nat := ((coresOf c).map s.coreLoad).sum

/-- The member of a list with the least measure, the first of equals. -/
def leastBy (f : Nat → Nat) : List Nat → Option Nat
  | [] => none
  | a :: r => match leastBy f r with
    | none => some a
    | some b => if f b < f a then some b else some a

/-- The core a verb descriptor goes to (01 R14). -/
def State.verbCore (s : State) : Option Nat :=
  match leastBy s.clusterLoad (s.serving.filter fun c => (coresOf c).any fun k => decide (s.coreLoad k < 4)) with
  | none => none
  | some c => leastBy s.coreLoad ((coresOf c).filter fun k => decide (s.coreLoad k < 4))

/-- A core that can take a recipe (05 R144). -/
def State.takesRecipe (s : State) (k : Nat) : Bool := decide (s.coreLoad k < 4 ∧ s.coreRecipes k < 2)

def imageKey (b : Bytes) : Nat := leAt b 0x08 4 * 2 ^ 32 + leAt b 0x0C 4

/-- The core a recipe descriptor with this image goes to (05 R144). -/
def State.recipeCore (s : State) (image : Bytes) : Option Nat :=
  match leastBy s.clusterLoad (s.serving.filter fun c => (coresOf c).any s.takesRecipe) with
  | none => none
  | some c =>
    let ks := (coresOf c).filter s.takesRecipe
    let warm := ks.filter fun k => (mget s.disp.rcache k []).any fun e => e.1 == imageKey image
    leastBy s.coreLoad (if warm.isEmpty then ks else warm)

/-- Entries of a recipe cache of 64 KiB, least recently used last, cut where they no longer fit. -/
def cacheFit : Nat → List (Nat × Nat) → List (Nat × Nat)
  | _, [] => []
  | room, e :: r => if e.2 ≤ room then e :: cacheFit (room - e.2) r else []

/-- The bound image is in core k's cache, most recently used. -/
def State.cacheRecipe (s : State) (k : Nat) (image : Bytes) : State :=
  let l := (mget s.disp.rcache k []).filter fun e => e.1 != imageKey image
  { s with disp := { s.disp with rcache := mset s.disp.rcache k (cacheFit 65536 ((imageKey image, image.length) :: l)) } }

/-! ### Reading descriptors (02 R49, R50, R58) -/

/-- Inbox entries of a kind. -/
def State.inboxOf (s : State) (f : DRec → Bool) : Nat := (s.disp.inbox.filter fun d => (s.desc d).any f).length

/-- A core place is free beyond those the descriptors already read will take. -/
def State.coreRoom (s : State) : Bool :=
  let free := ((s.serving.flatMap coresOf).map fun k => 4 - s.coreLoad k).sum
  decide (s.inboxOf (fun r => !r.isMgmt) < free)

/-- The dispatcher lets descriptors be read (01 R14; 05 R144): after a felling always (02 R58). -/
def State.readsOn (s : State) : Bool :=
  s.tam.felledState
    || (!s.life.updatePause && !s.mesh.resyncing && s.coreRoom
        && (s.disp.mgmtPlace.isNone || s.inboxOf DRec.isMgmt == 0)
        && (s.disp.recipePlace.isNone || s.inboxOf DRec.isRecipe == 0))

/-- A ring with a descriptor that may be read now. -/
def State.readable (s : State) (n r : Nat) : Bool :=
  let x := s.ring n r
  x.enabled && !x.fault && !x.draining && x.sqHead != x.piSeen && decide ((x.sqHead - x.ciSeen).toNat < ringSize x)
    && !(s.disp.descs.any fun d => d.fn == n && d.ring == r && d.stage == .fenced)

/-- Descriptor records of a ring read before record d. -/
def State.earlier (s : State) (r : DRec) : Bool :=
  s.disp.descs.any fun q => q.fn == r.fn && q.ring == r.ring && decide (q.id < r.id)

/-- One descriptor read (02 R49), under the window set being retired while its command has not completed (13 R326): after a felling it
completes at once (R58). -/
def State.readOne (s : State) (n q : Nat) : State :=
  let x := s.ring n q
  let a := x.sqBase.toNat + 64 * (x.sqHead.toNat % ringSize x)
  let (s, ok) := s.checkHost ringEngineId n false a 64 false
  if !ok then s.ringFault n q
  else
    let r : DRec := { id := s.disp.nextId, fn := n, ring := q, idx := x.sqHead, bytes := s.hostGet a 64, stage := .inbox,
                      oldWin := mhas s.gate.oldWin n }
    let s := s.setRing n q { s.ring n q with sqHead := x.sqHead + 1, outstanding := x.outstanding + 1 }
    let held := r.fence && s.earlier r
    let s : State := { s with disp := { s.disp with
      nextId := s.disp.nextId + 1,
      descs := s.disp.descs ++ [{ r with stage := if held then .fenced else .inbox }],
      inbox := if held then s.disp.inbox else s.disp.inbox ++ [r.id] } }
    if s.tam.felledState then s.finish r.id (if r.wellFormedNop then stDone else stFelled) else s

/-- Up to k descriptors of one ring. -/
def State.readSome (s : State) (n r : Nat) : Nat → State
  | 0 => s
  | k + 1 => if s.readable n r && s.readsOn then (s.readOne n r).readSome n r k else s

/-- The next ring in turn, over all rings of all functions, after the one served last: in the order of function and then ring, the
turn starting behind function 0's ring 0 (DESIGN CHOICE, notes/assumptions/84.md). -/
def State.nextRing (s : State) : Option Nat :=
  let all := (List.range 256).map fun i => (s.disp.rr + 1 + i) % 256
  all.find? fun k => s.readable (k / 8) (k % 8)

/-- DESCRIPTOR_READ (02 R49). -/
def execDescriptorRead (s : State) : Out :=
  answer s <|
    if !s.readsOn then s
    else
      match s.nextRing with
      | none => s
      | some k => { s with disp := { s.disp with rr := k } }.readSome (k / 8) (k % 8) 16

/-- FENCE_RELEASE (02 R50): every earlier descriptor of the ring has completed. -/
def execFenceRelease (fn : Fn) (r : RingNo) (s : State) : Out :=
  answer s <|
    match s.disp.descs.find? fun d => d.fn == fn.val && d.ring == r.val && d.stage == .fenced with
    | none => s
    | some d =>
      if s.earlier d then s
      else
        let s := s.modDesc d.id fun q => { q with stage := .inbox }
        { s with disp := { s.disp with inbox := s.disp.inbox ++ [d.id] } }

/-! ### The dispatcher (01 R14; 05 R140, R144) -/

/-- Descriptor d goes onto core k's queue. -/
def State.place (s : State) (d k : Nat) : State :=
  let s := s.modDesc d fun q => { q with stage := .queued, core := k }
  { s with disp := { s.disp with coreQ := mset s.disp.coreQ k (s.coreQueue k ++ [d]) } }.takeUp k |>.seat d

def State.placeMgmt (s : State) (d : Nat) : State :=
  let s := s.modDesc d fun q => { q with stage := .mgmt }
  { s with disp := { s.disp with mgmtQ := s.disp.mgmtQ ++ [d] } }

/-- A recipe is placed on core k, whose recipe cache takes its image then (DESIGN CHOICE, notes/assumptions/83.md). -/
def State.placeRecipe (s : State) (d k : Nat) (image : Bytes) : State := (s.cacheRecipe k image).place d k

/-- Descriptors in the two waiting places go on when there is room for them. -/
def State.emptyPlaces (s : State) : State :=
  let s := match s.disp.mgmtPlace with
    | some d => if s.disp.mgmtQ.length < 16 then { s with disp := { s.disp with mgmtPlace := none } }.placeMgmt d else s
    | none => s
  match s.disp.recipePlace with
  | some d =>
    let image := ((s.desc d).map (·.image)).getD []
    match s.recipeCore image with
    | some k => { s with disp := { s.disp with recipePlace := none } }.placeRecipe d k image
    | none => s
  | none => s

def State.leaveInbox (s : State) (d : Nat) : State := { s with disp := { s.disp with inbox := s.disp.inbox.erase d } }

/-- Step 1 of 02 R36 for a descriptor no verb command will see: reserved bits, options and handles. -/
def DRec.plainOk (r : DRec) : Bool := r.reservedClear && r.verbOpt == 0 && r.handleA == 0 && r.handleB == 0

/-- Why a descriptor completes at the dispatcher: an undefined selector, a management selector of a virtual function
(02 R36 steps 1, 2), or a recipe that is not in the store (05 R143). -/
def State.refusedAtOnce (s : State) (r : DRec) : Option Word16 :=
  if !r.defined then some stBad
  else if r.isMgmt then (if r.fn = 0 then none else some (if r.plainOk then stAccess else stBad))
  else if r.isRecipe && r.recipe.isNone && !(s.life.recipes.any fun q => q.id == r.param) then some stBad
  else none

/-- The image of a recipe descriptor is bound, once (05 R140). -/
def State.bind (s : State) (r : DRec) : State :=
  if r.recipe.isSome then s
  else
  match s.life.recipes.find? fun q => q.id == r.param with
  | some q => s.modDesc r.id fun x => { x with recipe := some (imageKey q.image), image := q.image }
  | none => s

/-- The descriptor at the front of the inbox is placed, if it can be. A recipe is bound to its image here, also where it goes into
the recipe waiting place (DESIGN CHOICE, notes/assumptions/83.md). -/
def State.dispatchOne (s : State) : State :=
  match s.disp.inbox with
  | [] => s
  | d :: _ =>
    match s.desc d with
    | none => s.leaveInbox d
    | some r =>
      match s.refusedAtOnce r with
      | some st => s.finish d st
      | none =>
        if r.isMgmt then
          if s.disp.mgmtQ.length < 16 && s.disp.mgmtPlace.isNone then (s.leaveInbox d).placeMgmt d
          else if s.disp.mgmtPlace.isNone then
            let s := (s.leaveInbox d).modDesc d fun q => { q with stage := .mgmtPlace }
            { s with disp := { s.disp with mgmtPlace := some d } }
          else s
        else if r.isRecipe then
          let t := s.bind r
          let image := ((t.desc d).map (·.image)).getD []
          if s.disp.recipePlace.isSome then s
          else
            match t.recipeCore image with
            | some k => (t.leaveInbox d).placeRecipe d k image
            | none =>
              let t := (t.leaveInbox d).modDesc d fun q => { q with stage := .recipePlace }
              { t with disp := { t.disp with recipePlace := some d } }
        else
          match s.verbCore with
          | some k => (s.leaveInbox d).place d k
          | none => s

/-- DISPATCH (01 R14). -/
def execDispatch (s : State) : Out := answer s s.emptyPlaces.dispatchOne.admitFwd

/-! ### Interrupt timers and transient slots -/

/-- IRQ_TIMER (02 R53). -/
def execIrqTimer (t : IrqSource) (s : State) : Out :=
  answer s <|
    match t with
    | .ring fn r =>
      let x := s.ring fn.val r.val
      if !x.irqOff && x.timer != 0 && decide (0 < x.pend) then s.signalRing fn.val r.val else s
    | .paging =>
      if s.host.pgTimer != 0 && decide (0 < s.host.pgPend) then
        { s with host := { s.host with pgPend := 0 } }.sendVector 0 9
      else s

/-- The first descriptor of partition p that waits for transient slots, and how many it needs. -/
def State.firstWaiter (s : State) (p : Nat) : Option (DRec × Nat) :=
  s.kr.poolWait.findSome? fun d =>
    match s.desc d with
    | some r => if r.fn = p then (match r.stage with | .waitSlots k => some (r, k) | _ => none) else none
    | none => none

/-- SLOT_RESERVE (03 R68): the first in order takes its slots when enough are released. -/
def execSlotReserve (p : Fn) (s : State) : Out :=
  answer s <|
    match s.firstWaiter p.val with
    | none => s
    | some (r, k) =>
      let free := s.freePool p.val
      if k - r.trans.length ≤ free.length then
        let s := s.modDesc r.id fun q => { q with trans := q.trans ++ free.take (k - q.trans.length) }
        { s with kr := { s.kr with poolWait := s.kr.poolWait.erase r.id } }.unwait r.id
      else s

end Sys2Proof.Machine
end

