-- ==== Sys2Proof/Machine/Recipes.lean ====
section
/-! DEFINITION. Recipes (05): the image, its static checks, and a run of its steps on one core. Every step is the
verb's own run; a step that waits is run again alone, and what earlier steps did stands (05 R148). -/

namespace Sys2Proof.Machine

/-! ### The image (05 Tables 5.2 to 5.7) -/

def imgSteps (b : Bytes) : Nat := leAt b 6 2
def imgTransients (b : Bytes) : Nat := leAt b 0x12 1
def imgPauLimit (b : Bytes) : Nat := leAt b 0x13 1
def imgConstLen (b : Bytes) : Nat := leAt b 0x14 2
def imgExecLimit (b : Bytes) : Nat := leAt b 0x16 2
def imgWorkLimit (b : Bytes) : Nat := leAt b 0x18 4
def imgInMin (b : Bytes) : Nat := leAt b 0x1C 4
def imgOutMin (b : Bytes) : Nat := leAt b 0x20 4
def imgStep (b : Bytes) (n : Nat) : Bytes := slice b (0x80 + 64 * n) 64
def imgConst (b : Bytes) : Bytes := slice b (0x80 + 64 * imgSteps b) (imgConstLen b)
def imgLen (steps consts : Nat) : Nat := 5389 + 64 * steps + consts

def stKind (t : Bytes) : Nat := leAt t 0 1
def stCond (t : Bytes) : Nat := leAt t 1 1
def stTarget (t : Bytes) : Nat := leAt t 2 1
def stCatch (t : Bytes) : Bool := bit (leAt t 3 1) 0
def stParamRef (t : Bytes) : Bool := bit (leAt t 3 1) 1
def stAuxDesc (t : Bytes) : Bool := bit (leAt t 3 1) 2
def stDeclRef (t : Bytes) : Bool := bit (leAt t 3 1) 3
def stFam (t : Bytes) : Nat := leAt t 5 1
def stOp (t : Bytes) : Nat := leAt t 4 1
def stOpt (t : Bytes) : Nat := bits (leAt t 6 2) 0 4
def stKeyA (t : Bytes) : Nat := leAt t 8 1
def stKeyB (t : Bytes) : Nat := leAt t 9 1
def stKeyOut (t : Bytes) : Nat := leAt t 10 1
def stParam (t : Bytes) : Nat := leAt t 0x0C 4
def stIn (t : Bytes) : Nat := leAt t 0x10 8
def stAux (t : Bytes) : Nat := leAt t 0x18 4
def stDecl (t : Bytes) : Nat := leAt t 0x1C 4
def stOut (t : Bytes) : Nat := leAt t 0x20 8
def stInl (t : Bytes) : Nat := leAt t 0x28 8

/-- Fields of an operand reference (05 Table 5.5). -/
def refArea (r : Nat) : Nat := bits r 60 4
def refIndexed (r : Nat) : Bool := bit r 59
def refOff (r : Nat) : Nat := bits r 32 27
def refLen (r : Nat) : Nat := bits r 0 32
def refToEnd (r : Nat) : Bool := refArea r == 1 && refLen r == 0xFFFFFFFF

/-! ### References at run time (05 R129, R137) -/

/-- Where a run stands for its references: its descriptor, image and state. -/
structure RefEnv where
  inp : Bytes
  outCap : Nat
  inl : Bytes
  auxLen : Nat
  consts : Bytes
  run : Run
  deriving DecidableEq, Repr

def RefEnv.areaLen (e : RefEnv) (a : Nat) : Nat :=
  match a with
  | 1 => e.inp.length
  | 2 => 1024
  | 3 => e.consts.length
  | 4 => 16
  | 5 => e.outCap
  | 6 => 16
  | 7 => 8
  | _ => 0

/-- Offset and length of a reference, or none when it falls outside its area. -/
def RefEnv.range (e : RefEnv) (r : Nat) : Option (Nat × Nat) :=
  let n := e.areaLen (refArea r)
  let off := refOff r + if refIndexed r then e.run.i * refLen r else 0
  if refArea r = 0 then some (0, 0)
  else if refToEnd r then (if off ≤ n then some (off, n - off) else none)
  else if off + refLen r ≤ n then some (off, refLen r) else none

def RefEnv.area (e : RefEnv) (a : Nat) : Bytes :=
  match a with
  | 1 => e.inp
  | 2 => fit 1024 e.run.scratch
  | 3 => e.consts
  | 4 => fit 16 e.inl
  | 6 => fit 16 e.run.res
  | 7 => toLE 4 e.inp.length ++ toLE 4 e.auxLen
  | _ => []

def RefEnv.read (e : RefEnv) (r : Nat) : Option Bytes := (e.range r).map fun x => slice (e.area (refArea r)) x.1 x.2

/-- A scratch word. -/
def RefEnv.word (e : RefEnv) (off : Nat) : Nat := leAt (fit 1024 e.run.scratch) off 4

def State.refEnv (s : State) (r : DRec) (x : Run) : RefEnv :=
  { inp := s.inputOf r, outCap := r.outCap, inl := r.inlineOps, auxLen := r.auxLen, consts := imgConst r.image, run := x }

/-- Bytes written through an OUT reference: to scratch, or to the output area (05 R134). -/
def State.putRef (s : State) (r : DRec) (x : Run) (e : RefEnv) (ref : Nat) (b : Bytes) : State × Run :=
  match e.range ref with
  | none => (s, x)
  | some (off, _) =>
    if refArea ref = 2 then (s, { x with scratch := putAt (fit 1024 x.scratch) off b })
    else if refArea ref = 5 ∧ b ≠ [] then (s.putOutAt r off b, { x with hi := max x.hi (off + b.length) })
    else (s, x)

/-! ### Keys (05 Table 5.7) -/

/-- The handle or transient slot a key reference names; the handle field of a verb that uses it reads zero for code 0. -/
def keyRef (r : DRec) (e : RefEnv) (code : Nat) : KeySel :=
  if code = 1 then .handle r.handleA
  else if code = 2 then .handle r.handleB
  else if 0x10 ≤ code ∧ code ≤ 0x13 then .trans r.trans[code - 0x10]?
  else if 0x40 ≤ code ∧ code ≤ 0x7F then .handle (e.word (4 * (code - 0x40)))
  else .handle 0

def keyOutRef (r : DRec) (code : Nat) : Option Nat := if 0x10 ≤ code ∧ code ≤ 0x13 then r.trans[code - 0x10]? else none

/-- The destination index a verb that makes a key reads (04 R91, Table 4.14). -/
def destIndex (o : Opnd) : Nat :=
  if o.fam = 6 then leAt o.inp 0 2 else if o.fam = 9 then leAt o.inl 0 2 else if o.fam = 2 ∨ o.fam = 5 ∨ o.fam = 7 then bits o.param 0 16 else 0

/-! ### One VERB step -/

/-- PARAM bits that a verb accepts by themselves (04 Tables 4.2 to 4.19). -/
def paramOkOf (fam op : Nat) (o : Opnd) : Bool :=
  match fam, op with
  | 1, n =>
    decide (o.param < 2 ^ 20) && fmtOk (pinIn o) && pinSrc o != 3
      && (if n = 1 then fmtOk (pinOut o) && !(pinOut o == 1 && pinIn o != 1) else pinOut o == 0)
      && (if pinSrc o = 0 then pinIn o == 4 && pinWork o != 3 else pinWork o == 0) && (pinSrc o != 1 || pinIn o != 4)
  | 2, 1 => dkParamOk o true false false
  | 2, 2 => dkParamOk o false false false
  | 2, 3 => dkParamOk o false false false
  | 2, 4 => dkParamOk o false true true
  | 2, 5 => dkParamOk o false true true
  | 2, 8 => decide (bits o.param 16 2 ≤ 1) && bits o.param 18 14 == 0
  | 2, _ => dkParamOk o false false true
  | 3, _ => macParamOk o
  | 4, _ => decide (bits o.param 16 2 ≤ 1) && bits o.param 18 2 == 0 && emvMethod o != 3 && bits o.param 22 10 == 0
  | 5, 1 => decide (o.param < 2 ^ 16)
  | 7, 2 => decide (8 ≤ bits o.param 0 5 ∧ bits o.param 0 5 ≤ 16 ∧ 8 ≤ bits o.param 8 5 ∧ bits o.param 8 5 ≤ 16)
      && bits o.param 5 3 == 0 && bits o.param 13 3 == 0 && bits o.param 17 15 == 0
  | 7, 3 => bits o.param 1 15 == 0 && bits o.param 17 15 == 0
  | 7, 4 => decide (o.param < 2 ^ 16)
  | 8, 1 => decide (o.param ≤ 2)
  | 8, 2 => decide (o.param ≤ 2)
  | 8, _ => gcmParamOk o
  | 9, 1 => decide (1 ≤ dgAlgo o ∧ dgAlgo o ≤ 7) && bits o.param 6 10 == 0 && bits o.param 29 3 == 0
      && (if dgAlgo o ≤ 5 then bits o.param 16 13 == 0 else decide (1 ≤ dgLen o ∧ dgLen o ≤ 4096)) && (dgKeyed o || !dgVerify o)
  | 9, 4 => sgParamOk o
  | 9, 5 => sgParamOk o
  | 9, 10 => decide (1 ≤ o.param ∧ o.param ≤ 255)
  | _, _ => o.param == 0

/-- The step's operands, or none where a value lies outside what is allowed (05 R137): a reference, a PARAM that a scratch word
supplies, or a DECL_LEN above the reference. A key reference stands in for the verb's handle field, so one that the verb does not
use is checked as that field is (R125). -/
def stepOpnd (r : DRec) (e : RefEnv) (t : Bytes) (f : Form) (chk : Bool) : Option Opnd :=
  let param := if stParamRef t then e.word (stParam t % 1024) else stParam t
  match e.read (stIn t), e.range (stOut t), e.read (stInl t) with
  | some inp, some (_, cap), some inl =>
    let declared := if stDeclRef t then e.word (stDecl t % 1024) else stDecl t
    if inp.length < declared then none
    else if stParamRef t && !paramOkOf (stFam t) (stOp t) { d := 0, p := 0, fam := stFam t, op := stOp t, param := param } then none
    else
      let o : Opnd := { d := r.id, p := r.fn, cl := r.core / 8, fam := stFam t, op := stOp t, opt := stOpt t, param := param,
                        keyOut := keyOutRef r (stKeyOut t), inp := inp, auxLen := if stAuxDesc t then r.auxLen else stAux t,
                        outCap := cap, inl := fit 16 inl, decl := if declared = 0 then none else some declared,
                        recipe := true, chk := chk }
      some { o with keyA := if f.useA o then keyRef r e (stKeyA t) else .none,
                    keyB := if f.useB then keyRef r e (stKeyB t) else .none }
  | _, _, _ => none

/-- A key reference that the verb leaves unused under the PARAM supplied: its handle field is not zero (02 R36 step 2). -/
def strayKey (f : Form) (o : Opnd) (t : Bytes) : Bool := !f.useA o && stKeyA t != 0

/-- A reference to a recipe's own transient slot. -/
def KeySel.isTrans : KeySel → Bool
  | .trans _ => true
  | _ => false

/-- The verb of a step, with the checks a descriptor of it would have (05 R125, R129). -/
def stepWork (f : Form) (o : Opnd) (stray : Bool) : V Answer := do
  need (o.opt &&& f.opts o == o.opt && !stray) stBad
  need ((f.out o).getD 0 ≤ o.outCap) stBad
  need ((f.out o).isSome || o.outCap == 0) stBad
  need (o.keyOut.isNone || destIndex o == 0) stBad
  match f.check o with
  | some st => failV st
  | none =>
    homeCheck f o
    f.run o

/-- A step as a descriptor image: what a peer is sent (05 Table 5.10; 14 R350; notes/assumptions/22.md). -/
def stepImage (o : Opnd) : Bytes :=
  let h := fun k => match k with
    | KeySel.handle h => h
    | _ => 0
  toLE 1 o.op ++ toLE 1 o.fam ++ toLE 2 (at' o.opt 8) ++ zeros 4 ++ toLE 4 (h o.keyA) ++ toLE 4 (h o.keyB) ++ zeros 8
    ++ toLE 4 o.inLen ++ toLE 4 o.auxLen ++ zeros 8 ++ toLE 4 o.outCap ++ toLE 4 o.param ++ fit 16 o.inl

/-! ### The order of steps (05 R132, R133) -/

def condHolds (x : Run) (c : Nat) : Bool :=
  let caught := fun st => x.last == some (st, true)
  match c with
  | 1 => true
  | 2 => x.last.any fun l => !l.2
  | 3 => x.last.any (·.2)
  | 4 => caught stAuth
  | 5 => caught stMissing
  | 6 => x.flag
  | 7 => !x.flag
  | _ => false

/-- The step that follows step t at pc. -/
def Run.advance (x : Run) (t : Bytes) : Run :=
  let x := { x with executed := x.executed + 1 }
  if condHolds x (stCond t) then
    let g := stTarget t
    match x.loop with
    | some (a, z, _) => if a ≤ g ∧ g ≤ z then { x with pc := g } else { x with pc := g, loop := none, i := 0 }
    | none => { x with pc := g }
  else
    match x.loop with
    | some (a, z, n) =>
      if x.pc = z then (if x.i + 1 < n then { x with i := x.i + 1, pc := a } else { x with pc := z + 1, loop := none, i := 0 })
      else { x with pc := x.pc + 1 }
    | none => { x with pc := x.pc + 1 }

/-- The result block of a VERB step (05 R130). -/
def resBlock (inl : Bytes) (len : Nat) (st : Word16) (flags : BitVec 15) : Bytes :=
  fit 8 inl ++ toLE 4 len ++ toLE 2 st.toNat ++ toLE 2 flags.toNat

/-- The run after a VERB step that ended with st and was not fatal. -/
def Run.ended (x : Run) (t : Bytes) (inl : Bytes) (len : Nat) (st : Word16) (flags : BitVec 15) (caught : Bool) : Run :=
  { x with res := resBlock inl len st flags, last := some (st, caught) }.advance t

/-! ### A run -/

/-- The run as its descriptor keeps it between steps. -/
def State.saveRun (s : State) (d : Nat) (x : Run) : State := s.modDesc d fun q => { q with run := some x }

def State.markDurable (s : State) (d : Nat) : State := s.modDesc d fun q => { q with durable := true }

/-- A run of RECIPE ends with a status that releases nothing (02 R45; 05 R146). -/
def State.endRun (s : State) (d : Nat) (st : Word16) : State := s.endWith d st

/-- END with DONE: the output stands (05 R135, R149). -/
def State.endDone (s : State) (d : Nat) (x : Run) (inl : Bytes) : State :=
  match s.desc d with
  | none => s
  | some r =>
    if r.durable then
      if s.vault.pgFault then s.finish d stPageTimeout
      else s.modDesc d fun q => { q with stage := .waitDurable { status := stDone, inl := inl, len := some x.hi } }
    else s.complete d stDone [] inl (some x.hi)

/-- What a run does next: go on with a state and run, or stop in a state. -/
inductive Going where
  | on (s : State) (x : Run)
  | stop (s : State)
  deriving DecidableEq, Repr

/-- COPY (05 R134). -/
def stepCopy (s : State) (r : DRec) (x : Run) (t : Bytes) : Going :=
  let e := s.refEnv r x
  match e.read (stIn t), e.range (stOut t) with
  | some b, some _ => let (s, x) := s.putRef r x e (stOut t) b; .on s (x.advance t)
  | _, _ => .stop (s.endRun r.id stRecipe)

/-- TEST (05 Table 5.4). -/
def stepTest (s : State) (r : DRec) (x : Run) (t : Bytes) : Going :=
  match (s.refEnv r x).read (stIn t) with
  | none => .stop (s.endRun r.id stRecipe)
  | some b =>
    let v := leNat b
    let w := leAt t 0x30 8
    let f := match leAt t 0x38 1 with
      | 0 => v == w
      | 1 => v != w
      | 2 => decide (v < w)
      | _ => decide (w ≤ v)
    .on s ({ x with flag := f }.advance t)

/-- LOOP (05 R133). -/
def stepLoop (s : State) (x : Run) (t : Bytes) : Going :=
  .on s { x with executed := x.executed + 1, loop := some (x.pc + 1, leAt t 0x31 1, leAt t 0x30 1), i := 0, pc := x.pc + 1 }

/-- END (05 R135). -/
def stepEnd (s : State) (r : DRec) (x : Run) (t : Bytes) : Going :=
  if leAt t 0x30 2 = 0 then
    match (s.refEnv r x).read (stInl t) with
    | some inl => .stop (s.endDone r.id x (fit 8 inl))
    | none => .stop (s.endRun r.id stRecipe)
  else .stop (s.endRun r.id stAuth)

/-- The step that a FWD carries, with DECL_LEN as it was resolved here, and with byte 0x0B set where the counter it presents was
accepted earlier in the run (R147; notes/assumptions/22.md). -/
def resolvedStep (s : State) (r : DRec) (x : Run) (o : Opnd) : Bytes :=
  let seen := (s.ksnMark o).any r.accepted.contains
  putAt (putAt (imgStep r.image x.pc) 0x0B [BitVec.ofNat 8 (b2n seen)]) 0x1C (toLE 4 (o.decl.getD 0))

/-- A VERB step of a mesh peer's record or key (05 Table 5.10). -/
def stepForward (s : State) (r : DRec) (x0 x : Run) (o : Opnd) (peer : Nat) : State :=
  let s := s.modDesc r.id fun q => { q with flags := q.flags ||| x.before.getD 0 }
  let x := { x with before := none }
  if o.keyA.isTrans || o.keyB.isTrans || o.keyOut.isSome then s.endRun r.id stMesh
  else
    match (s.saveRun r.id x).forward r.id peer (stepImage o) (resolvedStep s r x o ++ fit 16 x.res) o.inp (some x0) with
    | some t => t.takeUp r.core
    | none => s.endRun r.id stMesh

/-- A VERB step's work has ended in state t; f0 are the flags of the steps before it. -/
def stepDone (s t : State) (r : DRec) (x : Run) (e : RefEnv) (st : Bytes) (o : Opnd) (f0 : BitVec 15) (a : Answer) : Going :=
  let f := ((t.desc r.id).map (·.flags)).getD 0
  let t := t.modDesc r.id fun q => { q with flags := f0 ||| f }
  let (u, y) := t.putRef r x e (stOut st) a.out
  let y := y.ended st a.inl a.out.length (flaggedStatus stDone f) f false
  let u := if a.durable then u.markDurable r.id else u
  if s.alone r.id || (s.written t).isEmpty then .on u y
  else if !s.quorum then .stop ((s.keepWork t r.id).endRun r.id stMesh)
  else
    let h := s.writtenHome t o.fam o.op
    if h.isEmpty then
      .stop ((((s.keepWork t r.id).saveRun r.id x).startTxn r.id 0 (toLE 1 r.fn ++ stepImage o ++ o.inp)
        { status := stDone, out := a.out, inl := a.inl, flags := f }).takeUp r.core)
    else .stop ((t.saveRun r.id x).runHomed r.id { a with durable := false } h f)

/-- A VERB step (05 R125, R136, R137, R146). -/
def stepVerb (s : State) (r : DRec) (x : Run) (t : Bytes) (chk : Bool) : Going :=
  match verbForm (stFam t) (stOp t) with
  | none => .stop (s.endRun r.id stBad)
  | some f =>
    let e := s.refEnv r x
    match stepOpnd r e t f chk with
    | none => .stop (s.endRun r.id stRecipe)
    | some o =>
      if imgWorkLimit r.image < x.work + o.inLen || imgPauLimit r.image < x.pau + f.pau o then .stop (s.endRun r.id stRecipe)
      else
        let fresh := x.before.isNone
        let f0 := x.before.getD r.flags
        let wait := { x with before := some f0 }
        let x := { x with before := none }
        let y := { x with work := x.work + o.inLen, pau := x.pau + f.pau o }
        let s0 := if fresh then s.modDesc r.id fun q => { q with flags := 0 } else s
        let (res, u) := runV (stepWork f o (strayKey f o t)) s0
        let kept := s0.keepWork u r.id
        match res with
        | .ok a => stepDone s u r y e t o f0 a
        | .error (.fail st w) =>
          let fl := ((u.desc r.id).map (·.flags)).getD 0
          let u := u.modDesc r.id fun q => { q with flags := f0 ||| fl }
          let (u, y) := u.putRef r y e (stOut t) w
          if stCatch t && (st == stAuth || st == stMissing) then
            let (u, z) := u.putRef r y e (stOut t) (zeros w.length)
            .on u (z.ended t [] 0 st fl true)
          else .stop (u.endRun r.id st).askReloads
        | .error (.park l n) => .stop ((kept.saveRun r.id wait).parkFor r.id l n)
        | .error (.parkKeep l n) => .stop ((u.saveRun r.id wait).parkFor r.id l n)
        | .error (.wait g) => .stop (((kept.saveRun r.id wait).pause r.id g).askFor r.id g)
        | .error (.waitKeep g) => .stop (((u.saveRun r.id wait).pause r.id g).askFor r.id g)
        | .error (.hold _) =>
          -- an invalidation: the step ends when its sweep has finished, the run's completion when it is durable
          let fl := ((u.desc r.id).map (·.flags)).getD 0
          let v := (u.modDesc r.id fun q => { q with flags := f0 ||| fl, durable := true }).anew r.id
          let z := y.ended t [] 0 stDone fl false
          if s.alone r.id || (s.written u).isEmpty then .stop ((v.saveRun r.id z).pause r.id (.waitSweep r.fn))
          else if !s.quorum then .stop ((kept.saveRun r.id wait).endRun r.id stMesh)
          else
            .stop ((((kept.modDesc r.id fun q => { q with flags := q.flags ||| f0 }).saveRun r.id y).startTxn r.id 0 (toLE 1 r.fn ++ stepImage o ++ o.inp)
              { status := stDone, flags := fl }).takeUp r.core)
        | .error (.forward q) => .stop (stepForward kept r x { y with before := some f0 } o q)

/-- One step of a run: RECIPE_LIMIT where EXEC_LIMIT is reached. -/
def stepOnce (s : State) (r : DRec) (x : Run) (chk : Bool) : Going :=
  let t := imgStep r.image x.pc
  if imgExecLimit r.image ≤ x.executed then .stop (s.endRun r.id stRecipe)
  else
    match stKind t with
    | 0 => stepVerb s r x t chk
    | 1 => stepCopy s r x t
    | 2 => stepTest s r x t
    | 3 => stepLoop s x t
    | _ => stepEnd s r x t

/-- Steps until the run ends or waits; EXEC_LIMIT is at most 1,024. -/
def State.runSteps (d : Nat) (chk : Bool) : Nat → State → Run → State
  | 0, s, _ => s
  | f + 1, s, x =>
    match s.desc d with
    | none => s
    | some r =>
      match stepOnce s r x chk with
      | .on s x => State.runSteps d chk f (s.anew d) x
      | .stop s => s

/-! ### The start of a run (05 R143, R145) -/

def imgList (b : Bytes) : List Bytes := (List.range (imgSteps b)).map (imgStep b)

/-- Some VERB step names the descriptor's handle. -/
def imgUses (b : Bytes) (code : Nat) : Bool :=
  (imgList b).any fun t => stKind t == 0 && (stKeyA t == code || stKeyB t == code)

def recipeStart (r : DRec) (chk : Bool) : V Run := do
  let b := r.image
  need (r.reservedClear && r.verbOpt == 0 && (imgUses b 1 || r.handleA == 0) && (imgUses b 2 || r.handleB == 0)) stBad
  need (leAt b 0x10 1 == r.fn || leAt b 0x10 1 == 0x20) stAccess
  need (imgInMin b ≤ r.inLen) stBad
  let _ ← hostOperands r (imgOutMin b)
  let s ← getV
  need (s.serves r) stAccess
  let o := r.opnd chk
  let _ ← if imgUses b 1 then (do let _ ← probeHead o (.handle r.handleA)) else pure ()
  let _ ← if imgUses b 2 then (do let _ ← probeHead o (.handle r.handleB)) else pure ()
  let _ ← reserve o (imgTransients b + 4)
  pure { scratch := zeros 1024 }

/-- The recipe descriptor d goes on from where it stands. -/
def State.runRecipe (s : State) (d : Nat) (chk : Bool) : State :=
  match (s.desc d).filter fun r => r.stage == .started && r.isRecipe with
  | none => s
  | some r =>
    let s := s.rewind d
    match r.run with
    | some x => State.runSteps d chk 1025 s x
    | none =>
      let (e, t) := runV (recipeStart r chk) s
      match e with
      | .ok x => State.runSteps d chk 1025 ((t.saveRun d x).anew d) x
      | .error (.fail st _) => (t.endRun d st).askReloads
      | .error (.park l n) => (s.keepWork t d).parkFor d l n
      | .error (.wait g) => ((s.keepWork t d).pause d g).askFor d g
      | .error _ => s

/-- The result of a step that ran on a mesh peer (05 Table 5.10; 14 R353): the run is ready to go on, or ends. -/
def State.stepResult (s : State) (d : Nat) (st : Word16) (fl : BitVec 15) (inl out : Bytes) : State :=
  match s.desc d with
  | none => s
  | some r =>
    match r.run with
    | none => s
    | some x =>
      let t := imgStep r.image x.pc
      let s := (s.modDesc d fun q => { q with flags := q.flags ||| fl }).anew d
      let r := (s.desc d).getD r
      if succeeded st then
        let (s, y) := s.putRef r x (s.refEnv r x) (stOut t) out
        (s.saveRun d (y.ended t inl out.length st fl false)).unwait d
      else
        let (s, y) := s.putRef r x (s.refEnv r x) (stOut t) out
        if stCatch t && (st == stAuth || st == stMissing) then
          let (s, y) := s.putRef r y (s.refEnv r y) (stOut t) (zeros out.length)
          (s.saveRun d (y.ended t [] 0 st fl true)).unwait d
        else s.endRun d st

/-! ### Static checks of an image (05 R127, R128, R132 to R136, R139) -/

/-- Operations that use AUX_LEN. -/
def usesAux (fam op : Nat) : Bool :=
  [(2, 5), (3, 2), (4, 1), (7, 4), (8, 3), (8, 4), (9, 1), (9, 2), (9, 3), (9, 4), (9, 5)].contains (fam, op)

/-- AUX_LEN values that an operation accepts for some input (04 Tables 4.2 to 4.19; 05 R139). -/
def auxOkOf (o : Opnd) : Bool :=
  match o.fam, o.op with
  | 2, 5 => decide (o.auxLen ≤ msgLimit) && !emptyPad1 o o.auxLen
  | 3, 2 => decide (o.auxLen ≤ msgLimit) && !macEmptyBad o o.auxLen
  | 4, 1 => decide (o.auxLen ≤ 1024)
  | 7, 4 => decide (o.auxLen ≤ 2048)
  | 8, 3 => true
  | 8, 4 => true
  | 9, 1 => dgVerify o || o.auxLen == 0
  | 9, 2 => decide (1 ≤ o.auxLen ∧ o.auxLen ≤ 4096)
  | 9, 3 => decide (1 ≤ o.auxLen ∧ o.auxLen ≤ 65536)
  | 9, 4 => if sgScheme o = 1 then decide (o.auxLen ≤ 255) else o.auxLen == 0
  | 9, 5 => if sgScheme o = 1 then decide (o.auxLen ≤ 255) else o.auxLen == 0
  | _, _ => o.auxLen == 0

/-- The AUX_LEN of a step, where it is given directly: under a PARAM that scratch supplies, some PARAM must accept it. -/
def stepAuxOk (t : Bytes) (o : Opnd) : Bool :=
  let ps := if stParamRef t then 0 :: (List.range 32).map (2 ^ ·) else [o.param]
  if stAuxDesc t then stAux t == 0 else ps.any fun p => auxOkOf { o with param := p, auxLen := stAux t }

/-- Operations whose key can go to a recipe transient slot. -/
def makesKey (fam op : Nat) : Bool := [(2, 8), (5, 1), (6, 1), (7, 4), (9, 6), (9, 7)].contains (fam, op)

/-- The largest index any loop of the image gives step n. -/
def imgMaxI (b : Bytes) (n : Nat) : Nat :=
  ((List.range (imgSteps b)).filterMap fun l =>
    let t := imgStep b l
    if stKind t = 3 ∧ l < n ∧ n ≤ leAt t 0x31 1 then some (leAt t 0x30 1 - 1) else none).foldl max 0

/-- A reference in a position: its kind and form, and its static range in CON, DINL, SCR, DARG and RES. -/
def refOk (b : Bytes) (n : Nat) (areas : List Nat) (r : Nat) : Bool :=
  let a := refArea r
  let top := refOff r + refLen r * (1 + if refIndexed r then imgMaxI b n else 0)
  areas.contains a
    && (a != 0 || r == 0)
    && !(refToEnd r && refIndexed r)
    && (if a = 2 then decide (top ≤ 1024) || refIndexed r
        else if a = 3 then decide (top ≤ imgConstLen b) || refIndexed r
        else if a = 4 ∨ a = 6 then decide (top ≤ 16) || refIndexed r
        else if a = 7 then decide (top ≤ 8) || refIndexed r else true)

/-- Scratch input and scratch output of a VERB step never meet, over all values of I: at each value, the two as they are then
(DESIGN CHOICE, notes/assumptions/82.md). -/
def noOverlap (b : Bytes) (n : Nat) (i o : Nat) : Bool :=
  if refArea i = 2 ∧ refArea o = 2 then
    (List.range (imgMaxI b n + 1)).all fun k =>
      let p := fun r => refOff r + if refIndexed r then k * refLen r else 0
      decide (p i + refLen i ≤ p o) || decide (p o + refLen o ≤ p i)
  else true

def keyRefOk (b : Bytes) (c : Nat) : Bool :=
  c == 0 || c == 1 || c == 2 || decide (0x10 ≤ c ∧ c < 0x10 + imgTransients b) || decide (0x40 ≤ c ∧ c ≤ 0x7F)

/-- Steps that lie in the body of a loop other than the LOOP step l. -/
def bodyOf (b : Bytes) (n : Nat) : Option (Nat × Nat) :=
  (List.range (imgSteps b)).findSome? fun l =>
    let t := imgStep b l
    if stKind t = 3 ∧ l < n ∧ n ≤ leAt t 0x31 1 then some (l + 1, leAt t 0x31 1) else none

/-- No branch from outside a loop body has its target inside it (05 R133). -/
def targetOk (b : Bytes) (n g : Nat) : Bool :=
  match bodyOf b g with
  | none => true
  | some (a, z) => decide (a ≤ n ∧ n ≤ z)

/-- Fields of the wrong kind are zero (05 R128). -/
def stepVerbOk (b : Bytes) (n : Nat) : Bool :=
  let t := imgStep b n
  match verbForm (stFam t) (stOp t) with
  | none => false
  | some f =>
    let o : Opnd := { d := 0, p := 0, fam := stFam t, op := stOp t, opt := stOpt t, param := stParam t, inp := [] }
    let digest := stFam t == 9 && stOp t == 1
    stFam t != 0 && stFam t != 0x0F && !bit (leAt t 4 2) 15 && leAt t 3 1 < 16 && bits (leAt t 6 2) 4 12 == 0 && byteAt t 11 == 0
      && allZero (slice t 0x30 16)
      && refOk b n [0, 1, 2, 3, 4] (stIn t) && refOk b n [0, 2, 5] (stOut t) && refOk b n [0, 2, 3, 4] (stInl t)
      && (stInl t == 0 || refLen (stInl t) == 16)
      && keyRefOk b (stKeyA t) && keyRefOk b (stKeyB t) && (f.useB || stKeyB t == 0)
      && (stKeyOut t == 0 || (decide (0x10 ≤ stKeyOut t ∧ stKeyOut t < 0x10 + imgTransients b) && makesKey (stFam t) (stOp t)))
      && (if stParamRef t then decide (stParam t < 1024) && stParam t % 4 == 0
          else paramOkOf (stFam t) (stOp t) o && (f.useA o || stKeyA t == 0))
      && o.opt &&& f.opts (if stParamRef t then { o with param := 0 } else o) == o.opt
      && stepAuxOk t o
      && (stDecl t == 0 && !stDeclRef t || (digest && (refArea (stIn t) == 2 || refArea (stIn t) == 3)))
      && (!stDeclRef t || decide (stDecl t + 4 ≤ 1024))
      && noOverlap b n (stIn t) (stOut t)

/-- Everything but KIND, COND, TARGET and the listed ranges of a step is zero. -/
def restZero (t : Bytes) (keep : List (Nat × Nat)) : Bool :=
  (List.range 64).all fun i => decide (i < 3) || keep.any (fun k => decide (k.1 ≤ i ∧ i < k.1 + k.2)) || byteAt t i == 0

def stepOk (b : Bytes) (n : Nat) : Bool :=
  let t := imgStep b n
  decide (stCond t ≤ 7)
    && (if stCond t = 0 then stTarget t == 0 else decide (n < stTarget t ∧ stTarget t < imgSteps b) && targetOk b n (stTarget t))
    && match stKind t with
       | 0 => stepVerbOk b n
       | 1 => restZero t [(0x10, 8), (0x20, 8)] && refOk b n [0, 1, 2, 3, 4, 6, 7] (stIn t) && refOk b n [0, 2, 5] (stOut t)
           && refLen (stIn t) == refLen (stOut t) && decide (refLen (stIn t) ≤ 1024)
       | 2 => restZero t [(0x10, 8), (0x30, 9)] && refOk b n [1, 2, 3, 4, 6, 7] (stIn t)
           && decide (1 ≤ refLen (stIn t) ∧ refLen (stIn t) ≤ 8) && decide (leAt t 0x38 1 ≤ 3)
       | 3 => restZero t [(0x30, 2)] && stCond t == 0 && decide (1 ≤ leAt t 0x30 1 ∧ leAt t 0x30 1 ≤ 16)
           && decide (n < leAt t 0x31 1 ∧ leAt t 0x31 1 < imgSteps b) && (bodyOf b n).isNone
           && (List.range (imgSteps b)).all fun m => !(decide (n < m ∧ m ≤ leAt t 0x31 1) && stKind (imgStep b m) == 3)
       | 4 => restZero t [(0x28, 8), (0x30, 2)] && stCond t == 0 && refOk b n [0, 2, 3, 4, 6] (stInl t)
           && (stInl t == 0 || refLen (stInl t) == 8)
           && (leAt t 0x30 2 == 0 || (leAt t 0x30 2 == 0x0301 && stInl t == 0))
       | _ => false

/-- Step 2 of 05 R139: the header, against the length of the whole image. -/
def imgHeaderOk (b : Bytes) : Bool :=
  let len := leAt b 0x24 4
  leAt b 0 4 == 0x31504352 && leAt b 4 2 == 1 && decide (1 ≤ imgSteps b ∧ imgSteps b ≤ 256) && leAt b 8 4 != 0
    && decide (leAt b 0x10 1 ≤ 0x20) && decide (leAt b 0x11 1 ≤ 1) && (leAt b 0x10 1 != 0x20 || leAt b 0x11 1 == 0)
    && decide (imgTransients b ≤ 4) && decide (imgPauLimit b ≤ 16)
    && decide (imgConstLen b ≤ 4096) && imgConstLen b % 16 == 0 && decide (1 ≤ imgExecLimit b ∧ imgExecLimit b ≤ 1024)
    && decide (imgWorkLimit b ≤ 0x4000000) && allZero (slice b 0x28 24) && allZero (slice b 0x60 32)
    && len == imgLen (imgSteps b) (imgConstLen b) && len == b.length

/-- Step 3 of 05 R139: every step, and END as the last. -/
def imgStepsOk (b : Bytes) : Bool :=
  (List.range (imgSteps b)).all (stepOk b) && stKind (imgStep b (imgSteps b - 1)) == 4

/-- The signer's public key and the signature (05 Table 5.1). -/
def imgKey (b : Bytes) : Bytes := slice b (0x80 + 64 * imgSteps b + imgConstLen b) 1952
def imgSig (b : Bytes) : Bytes := slice b (0x80 + 64 * imgSteps b + imgConstLen b + 1952) 3309
def imgSigned (b : Bytes) : Bytes := b.take (0x80 + 64 * imgSteps b + imgConstLen b + 1952)
/-- What the recipe store keeps: header, steps and constants (05 R139). -/
def imgStored (b : Bytes) : Bytes := b.take (0x80 + 64 * imgSteps b + imgConstLen b)

end Sys2Proof.Machine
end

