-- ==== Sys2Proof/Machine/Power.lean ====
section
/-! DEFINITION. Power domains (15 R369 to R372), the monitor entries that depend on them (12 R283, R286), and the
cluster operations in their order (R373 to R378). -/

namespace Sys2Proof.Machine

def State.setTam (s : State) (t : Tamper) : State := { s with tam := t }
def State.setPwr (s : State) (p : Power) : State := { s with pwr := p }
def State.setEng (s : State) (e : Engines) : State := { s with eng := e }

/-! ### Monitor entries (12 R283; 15 Tables 15.4, 15.5) -/

/-- KIND and instance of entry k. -/
def entryKind (k : Nat) : Nat × Nat :=
  if k < 30 then (1, k)
  else if k < 46 then (2, k - 30)
  else if k < 61 then (3, k - 46)
  else if k < 75 then (4, if k - 61 = 13 then 14 else k - 61)
  else if k < 84 then (5, k - 75)
  else if k < 92 then (6, k - 84)
  else if k < 96 then (7, k - 92)
  else if k < 99 then (8, k - 96)
  else if k < 103 then (9, k - 99)
  else if k < 119 then (10, k - 103)
  else if k < 148 then (11, k - 119)
  else (12, k - 148)

/-- The two domains of an adjacent pair. -/
def pairDomains (i : Nat) : List Nat :=
  if i = 0 then [0, 1]
  else if i = 1 then [2, 1]
  else if i < 10 then [1 + i, 9 + i]
  else if i < 18 then [1 + i, 1]
  else if i < 22 then [1 + i, 1]
  else if i < 24 then [1 + i, 1]
  else if i = 24 then [25, 1]
  else [1 + i, 1]

/-- The domain a temperature sensor lies in. -/
def sensorDomain (i : Nat) : Nat := if i = 8 then 0 else 11 + i

def sensorPair (i : Nat) : Nat × Nat :=
  [(0, 1), (2, 3), (0, 2), (1, 3), (4, 5), (6, 7), (4, 6), (5, 7), (1, 4), (3, 6), (8, 0)].getD i (8, 8)

/-- The domains whose power an entry needs; where the spec names none, SEC for what watches the main rails, clocks and
machines, AON for what the cell keeps (notes/assumptions/24.md). -/
def entryDomains (k : Nat) : List Nat :=
  let (kind, i) := entryKind k
  if kind = 1 then [i]
  else if kind = 2 then (if 8 ≤ i then [i - 5] else [1])
  else if kind = 3 ∨ kind = 4 then (if i = 13 then [0] else if 5 ≤ i ∧ i ≤ 12 then [i - 2] else [1])
  else if kind = 5 then [sensorDomain i]
  else if kind = 6 then [1]
  else if kind ≤ 9 then [0]
  else if kind = 10 then (if i = 3 then [2] else if i < 4 then [1] else if i < 12 then [7 + i] else [7 + i])
  else if kind = 11 then pairDomains i
  else [sensorDomain (sensorPair i).1, sensorDomain (sensorPair i).2]

/-- The monitors that the AON checks on the cell, and while SYS_RST_N is low (Table 12.1; 18 R418). -/
def onCellEntry (k : Nat) : Bool := [0, 59, 83, 92, 93, 94, 95, 96, 97, 99, 100, 101, 102].contains k

/-- The entry's monitor is armed (12 R282, R286). -/
def State.monActive (s : State) (k : Nat) : Bool :=
  if s.life.mainPower && s.life.sysRstN then
    (entryDomains k).all (fun d => decide (d ≤ 1) || (s.domain d).up) && mget s.tam.armed k true
  else onCellEntry k

def allEntries : List Nat := List.range 159

def entriesOf (d : Nat) : List Nat := allEntries.filter fun k => (entryDomains k).contains d

def State.arm (s : State) (ks : List Nat) (v : Bool) : State :=
  s.setTam { s.tam with armed := ks.foldl (fun m k => mset m k v) s.tam.armed }

/-! ### What a domain that is off no longer holds -/

def dropKeys {α : Type} (m : Map α) (bad : Nat → Bool) : Map α := m.filter fun c => !bad c.1

/-- Engines, arbiter, expander and sentinels of cluster c (R259, R280; 08 R222; 12 R309). -/
def State.clearCle (s : State) (c : Nat) : State :=
  let e := s.eng
  let s := s.setEng { e with
    pages := dropKeys e.pages fun k => k / 768 == c, dpages := dropKeys e.dpages fun k => k / 256 == c,
    arbs := mdel e.arbs c, opens := e.opens.filter fun o => o.cl != c, seeded := mdel e.seeded c,
    kceMask := mdel e.kceMask c, ctxKey := mdel e.ctxKey c, pageMask := e.pageMask.filter fun m => m.1 / 4 != c,
    sentinels := dropKeys e.sentinels fun k => k / 2 == c, inner := mdel e.inner c, working := mdel e.working c,
    saved := dropKeys e.saved fun k => k / 256 == c, recent := dropKeys e.recent fun k => decide (k < 32) && k / 4 == c }
  let s : State := { s with kr := { s.kr with fetches := s.kr.fetches.filter fun f =>
    match f.tgt with
    | .cipher a _ => a.cl.val != c
    | .digest a => a.cl.val != c
    | .pau _ => true } }
  let s : State := { s with ent := { s.ent with
    exps := (mdel s.ent.exps c).map fun (y : Nat × Expander) => (y.1, { y.2 with barred := y.2.barred || decide (2 ^ 16 ≤ y.2.calls) })
    leaveReseed := s.ent.leaveReseed.erase c } }
  s.setTam { s.tam with lowMargin := mdel s.tam.lowMargin c, phase := mset s.tam.phase c .off, interval := mdel s.tam.interval c, topUp := mdel s.tam.topUp c }

/-- Local SRAM and recipe caches of cluster c's cores. -/
def State.clearClc (s : State) (c : Nat) : State :=
  let s := s.setEng { s.eng with sram := dropKeys s.eng.sram fun k => k / 2 ^ 21 == c }
  let s := s.setPwr { s.pwr with coreImage := mdel s.pwr.coreImage c }
  { s with disp := { s.disp with rcache := dropKeys s.disp.rcache fun k => k / 8 == c } }

/-- Contexts and arbiter of a PAU; out of service lasts until a reset (09 R241). -/
def State.clearPau (s : State) (u : Nat) : State :=
  let oos := ((s.arb (8 + u)).engine 0).oos
  let s := s.setEng { s.eng with ctxs := dropKeys s.eng.ctxs fun k => k / 4 == u, pauMask := mdel s.eng.pauMask u, arbs := mdel s.eng.arbs (8 + u) }
  s.setArb (8 + u) ((s.arb (8 + u)).setEngine 0 { oos := oos })

/-- A port's link goes down: its keys, sequences and credits are gone (14 R334). -/
def State.linkDown (s : State) (p : Nat) : State :=
  let x := s.port p
  s.setPort p { enable := x.enable, lateReplies := x.lateReplies, retries := x.retries }

/-! ### Switching a domain (R369) -/

/-- Monitors disarmed, isolated, off. -/
def State.powerOff (s : State) (d : Nat) : State :=
  let s := s.arm (entriesOf d) false
  let s := s.setDomain d { op := (s.domain d).op }
  if 3 ≤ d ∧ d ≤ 10 then s.clearClc (d - 3)
  else if 11 ≤ d ∧ d ≤ 18 then s.clearCle (d - 11)
  else if 19 ≤ d ∧ d ≤ 22 then s.clearPau (d - 19)
  else if 26 ≤ d then s.linkDown (d - 26)
  else s

/-- Switched on: the regulator ramps. -/
def State.rampOn (s : State) (d : Nat) (op : Bool) : State :=
  if (s.domain d).on then s else s.setDomain d { on := true, ramping := true, op := op }

/-- Factory constants of cluster c (12 Table 12.9): 0 SENS, 1 T_F, 2 T_MIN, 3 T_MAX. -/
def sentConst (c i : Nat) : Nat := (Config.droopOtp (64 + 4 * c + i)).toNat

/-- DROOP_MV of cluster c's two domains, clamped to T_MIN and T_MAX (12 R311). -/
def State.setDroop (s : State) (c : Nat) (v : Nat) : State :=
  let v := BitVec.ofNat 8 (max (sentConst c 2) (min (sentConst c 3) v))
  s.setTam { s.tam with droop := mset (mset s.tam.droop (3 + c) v) (11 + c) v }

/-- Phase 1 starts: ADVANCE 8 on both FCEs with their counters cleared, DROOP_MV at T_F − GUARD (12 R309). -/
def State.phaseOne (s : State) (c : Nat) : State :=
  let s := s.setEng { s.eng with sentinels := mset (mset s.eng.sentinels (sentinelKey c 0) {}) (sentinelKey c 1) {} }
  (s.setDroop c (sentConst c 1 - 15)).setTam { (s.setDroop c (sentConst c 1 - 15)).tam with
    phase := mset s.tam.phase c .one, interval := mset s.tam.interval c (0, 0), topUp := mset s.tam.topUp c 0 }

/-- Power-good is reported (R369). -/
def State.domainGood (s : State) (d : Nat) : State :=
  let s := s.setDomain d { s.domain d with pgood := true, iso := false, ramping := false }
  if 11 ≤ d ∧ d ≤ 18 then s.phaseOne (d - 11) else if 19 ≤ d ∧ d ≤ 22 then s.pauSeeds else s

/-- A domain switched on at boot, with its monitors armed (16 Table 16.7). -/
def State.bootDomain (s : State) (op : Bool) (d : Nat) : State :=
  ((s.setDomain d { on := true, op := op }).domainGood d).arm (entriesOf d) true

/-- R226: both PAUs of half h are on. -/
def State.pausOn (s : State) (h : Nat) : State :=
  [19 + 2 * h, 20 + 2 * h].foldl (fun s d => if (s.domain d).up then s else s.bootDomain false d) s

/-- The PAUs of a half with no cluster that serves or still drains are switched off. -/
def State.pausOff (s : State) (h : Nat) : State :=
  if (List.range 4).any fun i => s.cst (4 * h + i) == .serving || s.cst (4 * h + i) == .draining then s
  else [19 + 2 * h, 20 + 2 * h].foldl (fun s d => if (s.domain d).on then s.powerOff d else s) s

/-! ### Cluster operations one at a time (R378) -/

def State.setCst (s : State) (c : Nat) (v : CState) : State := s.setPwr { s.pwr with cstate := mset s.pwr.cstate c v }

def State.setServing (s : State) (c : Nat) (v : Bool) : State :=
  let m := BitVec.ofNat 8 (2 ^ c)
  (s.setPwr { s.pwr with servingBits := if v then s.pwr.servingBits ||| m else s.pwr.servingBits &&& ~~~m }).setCst c
    (if v then .serving else .draining)

def clusterOf (r : DRec) : Nat := r.core / 8

/-- Queued descriptors go back to the dispatcher, ahead of what waits there. -/
def State.requeue (s : State) (ds : List Nat) : State :=
  { s with disp := { s.disp with
      descs := s.disp.descs.map fun r => if ds.contains r.id then { r with stage := .inbox } else r,
      coreQ := s.disp.coreQ.map fun (q : Nat × List Nat) => (q.1, q.2.filter fun d => !ds.contains d),
      inbox := ds ++ s.disp.inbox } }

/-- Those of cluster c that no core has taken up. -/
def State.replace (s : State) (c : Nat) : State :=
  s.requeue ((s.disp.descs.filter fun r => r.stage == .queued && !r.begun && clusterOf r == c).map (·.id))

/-- Steps 1 and 2 of R374. -/
def State.quiesceStart (s : State) (c : Nat) : State :=
  let s := (s.setServing c false).replace c
  s.setEng { s.eng with opens := s.eng.opens.filter fun o => !(o.cl == c && o.who != 64 && o.who / 8 != c) }

/-- The cluster's cores run nothing and its engines hold no page. -/
def State.drained (s : State) (c : Nat) : Bool :=
  (coresOf c).all (fun k => (s.coreQueue k).isEmpty)
    && s.eng.pages.all (fun p => p.1 / 768 != c || p.2.holder == 0) && s.eng.dpages.all fun p => p.1 / 256 != c || p.2.holder == 0

/-- An operation whose turn has come. -/
def State.startOp (s : State) (op : ClusterOp) : State :=
  let s := s.setPwr { s.pwr with current := some op, cycled := false }
  match op with
  | .verb d _ => s.modDesc d fun r => { r with stage := .mgmt }
  | .repair c => if s.cst c = .serving then s.quiesceStart c else s
  | .update c => if s.cst c = .serving then s.quiesceStart c else s

/-- The next operation in turn starts; a command that is gone takes no turn. -/
def State.nextOp (s : State) : Nat → State
  | 0 => s
  | f + 1 =>
    match s.pwr.turn with
    | [] => s
    | op :: rest =>
      let s := s.setPwr { s.pwr with turn := rest }
      match op with
      | .verb d _ => if (s.desc d).isSome then s.startOp op else s.nextOp f
      | _ => s.startOp op

/-- The operation in progress has ended. -/
def State.opEnds (s : State) : State :=
  let s := s.setPwr { s.pwr with current := none, cycled := false }
  s.nextOp s.pwr.turn.length

/-- An operation is asked for. -/
def State.askOp (s : State) (op : ClusterOp) : State :=
  if s.pwr.current.isNone && s.pwr.turn.isEmpty then s.startOp op else s.setPwr { s.pwr with turn := s.pwr.turn ++ [op] }

/-- The command that runs the operation on cluster c completes. -/
def State.opDone (s : State) (c : Nat) (st : Word16) : State :=
  match s.pwr.current with
  | some (.verb d k) => if k = c then (s.complete d st [] []).opEnds else s
  | _ => s

/-- Cluster c's cores load the core section of the image that is being activated, else of the active one (16 R396). -/
def State.loadCores (s : State) (c : Nat) : State :=
  s.setPwr { s.pwr with coreImage := mset s.pwr.coreImage c ((s.life.activating.map (·.2.1)).getD s.life.active) }

/-- A powering cluster whose domains are good and whose keys are made, or cannot be made since entropy has failed (08 R222),
becomes QUIESCED (R375). -/
def State.clusterUp (s : State) (c : Nat) : State :=
  if s.cst c = .powering && (s.domain (3 + c)).up && (s.domain (11 + c)).up && (mget s.eng.seeded c false || s.ent.fail) then
    ((s.setCst c .quiesced).loadCores c).opDone c stDone
  else s

def State.clustersUp (s : State) : State := (List.range 8).foldl State.clusterUp s

/-! ### Requests of Alatas (R377; 07 R195; 12 R311) -/

/-- Alatas quiesces cluster c and repairs it. -/
def State.wantRepair (s : State) (c : Nat) : State :=
  if s.cst c != .serving || s.pwr.turn.contains (.repair c) then s else s.askOp (.repair c)

/-- Cluster c has lost what it cannot serve without: its KCE, its DGE, or both its FCEs (07 R195; 08 R223). -/
def State.engineLost (s : State) (c : Nat) : Bool :=
  let x := s.arb c
  (x.engine 2).oos || (x.engine 3).oos || ((x.engine 0).oos && (x.engine 1).oos)

/-- Clusters that lost an engine are quiesced and repaired. -/
def State.checkEngines (s : State) : State :=
  (List.range 8).foldl (fun (s : State) c => if s.engineLost c then s.wantRepair c else s) s

end Sys2Proof.Machine
end

