-- ==== Sys2Proof/Machine/Entropy.lean ====
section
/-! DEFINITION. The entropy subsystem (11): start-up, windows and the seed queue, health failures, waits for random
and raw sample mode. -/

namespace Sys2Proof.Machine

def State.setEnt (s : State) (e : Entropy) : State := { s with ent := e }

/-! ### Who waits for random (11 R273) -/

def State.randomWaiters (s : State) : List DRec := s.disp.descs.filter fun r => r.stage == .waitRandom

/-- Of the calls that wait at an expander, the one to serve first: the oldest, and with one to three powered clusters the oldest
internal one (11 R270, Table 11.4). -/
def State.nextCall (s : State) (c : Nat) : Option (Bool × Nat) :=
  let l := (s.expander c).waits
  if s.poweredCle.length ≤ 3 then (l.find? (·.1)).or l.head? else l.head?

/-- Waiting calls of cluster c's expander are served while it serves: a descriptor's by its own work, which goes on. -/
def State.serveCalls (c : Nat) : Nat → State → State
  | 0, s => s
  | f + 1, s =>
    match s.nextCall c with
    | none => s
    | some q =>
      if !s.ent.ready || !s.expanderServes c then s
      else
        let s := s.setExpander c { s.expander c with waits := (s.expander c).waits.erase q }
        let s := if q.2 = 0 then (s.expanderCall c).1
          else if s.randomWaiters.any (fun r => r.id + 1 == q.2) then s.unwait (q.2 - 1) else s
        State.serveCalls c f s

/-- Every expander serves the calls that wait for it. -/
def State.resumeRandom (s : State) : State :=
  s.poweredCle.foldl (fun (s : State) c => s.serveCalls c (s.expander c).waits.length) s

/-- A PAU operation of descriptor d waits for random (09 R236). -/
def State.ctxWaits (s : State) (d : Nat) : Bool := s.eng.ctxs.any fun c => c.2.waitRandom && c.2.desc == d + 1

def State.failRandom (s : State) (st : Word16) : State :=
  (s.disp.descs.filter fun r => r.stage == .waitRandom || s.ctxWaits r.id).foldl (fun (s : State) r => s.endWith r.id st) s

/-- The seed queue's service, with all that follows from it. -/
def State.seedsCame (s : State) : State := s.seedQueue.pauSeeds.serveAllOpens.clustersUp.resumeRandom

/-! ### Health (11 R268, R274) -/

/-- ENT_FAIL is raised: the queue is emptied, and every descriptor that waits for random completes ENTROPY_FAILED. -/
def State.healthFail (s : State) (test : BitVec 2) (src : Nat) : State :=
  let e := s.ent
  let first := e.failTest = 0
  let s := s.setEnt { e with
    st := .failed, fail := true, ready := false, starting := false, queue := [],
    exps := e.exps.map fun (c : Nat × Expander) => (c.1, { c.2 with waits := [] }),
    failTest := if first then test else e.failTest,
    failSrc := if first then BitVec.ofNat 4 src else e.failSrc }
  ((s.raiseAll evEntFail).failRandom stEntFailed).clustersUp

/-- A LEAVE completes when its start-up has passed or failed (11 R279). -/
def State.leaveEnds (s : State) : State :=
  match s.ent.leaving with
  | none => s
  | some d => (s.setEnt { s.ent with leaving := none }).complete d stDone [] []

/-- The subsystem runs its start-up; a felled device's stays stopped until the next reset (11 R280). -/
def State.entStarting (s : State) : Bool := s.ent.st == .starting && !s.tam.felledState

/-- ENTROPY_STARTUP (R267 steps 1 and 2): the known-answer tests of a start-up end. -/
def execEntropyStartup (katOk : Bool) (s : State) : Out :=
  answer s <|
    if !s.entStarting || s.ent.katPassed then s
    else if katOk then s.setEnt { s.ent with katPassed := true }
    else (s.healthFail 3 0).leaveEnds

/-- The source and test of a failed start-up are those of the first failure, which the mask does not tell
(notes/assumptions/23.md). -/
def firstFailed (failed : BitVec 16) (draws : Nat) : Nat :=
  let l := (List.range 16).filter failed.getLsbD
  l.getD (Config.freeNat 3 draws % l.length) 0

/-- Sampling instants in the 40 µs of settling (R267). -/
def settling : Nat := 100

/-- ENTROPY_STARTUP_END (R267 step 3; R268; R279): the start-up samples are taken and discarded; failed says on which sources a
test of Table 11.1 failed. -/
def execEntropyStartupEnd (failed : BitVec 16) (s : State) : Out :=
  answer s <|
    if !s.entStarting || !s.ent.katPassed then s
    else
      let e := { s.ent with srcPass := ~~~failed, srcFail := s.ent.srcFail ||| failed, starting := false,
                            instants := s.ent.instants + settling + 1024 }
      if failed = 0 then
        (s.setEnt { e with st := if e.fail then .failed else .running,
                           leaveReseed := if e.leaving.isSome then s.poweredCle.filter fun c => (s.expander c).inst else [] }).leaveEnds
      else
        ((s.setEnt e).healthFail (BitVec.ofNat 2 (1 + Config.freeNat 4 s.ent.instants % 2)) (firstFailed failed s.ent.instants)).leaveEnds

/-- One conditioned block of the next 256 instants goes into the queue, or is discarded where its two words no longer fit (R264,
R265). -/
def Entropy.block (e : Entropy) : Entropy :=
  let b := conditioned e.instants
  let e := { e with instants := e.instants + 256 }
  if e.words + 2 ≤ 64 then { e with queue := e.queue ++ [b.take 16, b.drop 16], blocks := satInc e.blocks }
  else { e with discarded := satInc e.discarded }

/-- ENTROPY_WINDOW_CLOSE (R263, R264): the window of all 16 sources has closed with every test passed. -/
def execEntropyWindowClose (s : State) : Out :=
  answer s <|
    if s.ent.st != .running || s.tam.felledState then s
    else (s.setEnt s.ent.block.block.block.block).seedsCame

/-- HEALTH_TEST_FAIL (R274, R277): in raw mode it is only counted. -/
def execHealthTestFail (src : Fin 16) (apt : Bool) (s : State) : Out :=
  answer s <|
    if s.tam.felledState then s
    else
      let t := s.setEnt { s.ent with srcFail := setFlag s.ent.srcFail src.val }
      match s.ent.st with
      | .running => t.healthFail (if apt then 2 else 1) src.val
      | .raw => t.setEnt { t.ent with rawFails := satInc t.ent.rawFails }
      | _ => s

/-! ### Expanders -/

/-- EXPANDER_CALL (R269, R270): one generate call of cluster c, internal or a descriptor's; it is served at once, or waits in its
place for a seed. -/
def execExpanderCall (c : Cl) (internal : Bool) (s : State) : Out :=
  answer s <|
    if s.poweredCle.contains c.val && !s.tam.felledState then
      match s.expanderCall c.val with
      | (t, some _) => t
      | (t, none) => if (t.expander c.val).inst && !t.ent.fail && !t.ent.rawActive then t.queueCall c.val internal 0 (s.expander c.val).seedWait else t
    else s

/-- RANDOM_WAIT_TIMEOUT (R273): the descriptor's 50 ms are spent. -/
def execRandomWaitTimeout (d : Nat) (s : State) : Out :=
  answer s <|
    match s.desc d with
    | none => s
    | some r => if r.stage = .waitRandom ∨ s.ctxWaits d then s.endWith d stEntNotReady else s

/-! ### Raw sample mode (11 R276 to R279) -/

/-- ENTER: conditioning stops, and every descriptor that needs random completes ENTROPY_NOT_READY. -/
def State.rawEnter (s : State) : State :=
  if s.ent.rawActive then s
  else (s.setEnt { s.ent with st := .raw, rawActive := true, queue := [], ready := false }).failRandom stEntNotReady

/-- LEAVE: the start-up runs again. -/
def State.rawLeave (s : State) (d : Nat) : State :=
  s.setEnt { s.ent with st := .starting, rawActive := false, starting := true, katPassed := false, leaving := some d }

/-- A capture's bytes from instant t on: source by source, sample 0 in bit 0. -/
def captureBytes (t : Nat) (c : Capture) : Bytes :=
  ((List.range 16).filter (bit c.sources)).flatMap fun i =>
    (List.range (c.samples / 8)).map fun k =>
      BitVec.ofNat 8 (((List.range 8).map fun j => b2n (Config.sample (t + 8 * k + j) i) * 2 ^ j).sum)

/-- The capture's samples (R278): of each selected source in ascending order, sample 0 in bit 0. Samples are free values
(notes/assumptions/6.md). They leave by a data mover with partition 0's tag (13 R314), and a refusal ends the command ACCESS_FAULT
(13 Table 13.7). -/
def State.captured (s : State) : State :=
  match s.ent.capture with
  | none => s
  | some c =>
    let b := captureBytes s.ent.instants c
    let n := b.length
    let s := s.setEnt { s.ent with capture := none, instants := s.ent.instants + c.samples }
    let (s, ok) := s.checkHost pagingId 0 false c.addr n true
    if ok then (s.postWrite 0 c.addr b).complete c.desc stDone [] [] else s.endWith c.desc stAccess

end Sys2Proof.Machine
end

