-- ==== Sys2Proof/Machine/Tamper.lean ====
section
/-! DEFINITION. Tamper (12): alarms, events and the pending-event latch, felling and scrub, the Tally and the alarm log,
built-in tests, and the margin sentinels. -/

namespace Sys2Proof.Machine

/-! ### Felling (R294, R295, R297; 02 R58; 03 R84; 07 R207; 08 R225; 09 R245; 11 R280; 14 R357) -/

/-- An arbiter whose requests, grants, progress registers, counters and maps are cleared (10 R259, R260). -/
def Arb.aborted (x : Arb) : Arb :=
  { rotP := x.rotP, rotEn := x.rotEn, mapErr := x.mapErr, eng := x.eng.map fun (c : Nat × EngArb) => (c.1, { oos := c.2.oos }) }

/-- What the felling line clears within 5 ns. -/
def State.clearKeys (s : State) : State :=
  let e := s.eng
  let s := s.setEng { e with
    pages := [], dpages := [], ctxs := [], opens := [], openRes := [], pageSet := [], pauWait := [], pauRes := [], seeded := [], kceMask := [], pauMask := [], ctxKey := [], pageMask := [],
    inner := [], working := [], saved := [], arbs := e.arbs.map fun (c : Nat × Arb) => (c.1, c.2.aborted) }
  let s := s.setEnt { s.ent with
    queue := [], ready := false, starting := false, leaveReseed := [], capture := none, leaving := none,
    exps := s.ent.exps.map fun (c : Nat × Expander) =>
      (c.1, { reseeds := c.2.reseeds, stretches := c.2.stretches, dryWaits := c.2.dryWaits }) }
  { s with
    kr := { s.kr with keys := none, ready := false, bus := .halted, anchors := [], fetches := [], sweeps := [], poolWait := [],
                      wardenKey := none }
    vault := { s.vault with keyed := false, ready := false, started := false, commit := none, reqs := [], wanted := [],
                            rebuilding := false }
    mesh := { s.mesh with
      pairKeys := [], unitKeys := [], mrk := none, held := [], fwds := [], waitFwd := [], hs := [], asked := [],
      ports := s.mesh.ports.map fun (c : Nat × Port) =>
        (c.1, { c.2 with txKey := none, rxKey := none, attested := false, replay := [], waiting := [] }) }
    pwr := { s.pwr with current := none, cycled := false, turn := [] }
    life := { s.life with activating := none, updatePause := false } }

/-- Every descriptor read and not completed completes FELLED; a peer's work ends without a message. -/
def State.fellDescs (s : State) : State :=
  s.disp.descs.foldl (fun (s : State) r =>
    if meshRing ≤ r.ring then s.removeDesc r.id false else s.completeOne r.id stFelled [] []) s

/-- The felling line is driven. -/
def State.fell (s : State) : State :=
  if s.tam.felledState then s
  else
    let s := s.clearKeys
    let s := s.setTam { s.tam with fell := .felling, felledState := true, scrubbing := true }
    (s.raiseAll evFelled).fellDescs

/-- SCRUB_DONE (R295). -/
def execScrubDone (s : State) : Out :=
  answer s <|
    if !s.tam.scrubbing then s
    else
      let s := s.setEng { s.eng with sram := [] }
      let s : State := { s with kr := { s.kr with slots := [] }, disp := { s.disp with rcache := [] }, vault := { s.vault with pages := [], nodes := [], uses := [] } }
      s.setTam { s.tam with scrubbing := false, fell := .felled }

/-! ### Alarms and events (R289 to R292, R302) -/

/-- The class of a kind (Table 12.2). -/
def classOf (kind : Nat) : BitVec 4 :=
  if kind = 9 then 2 else if kind = 6 ∨ kind = 7 then 4 else if kind = 10 ∨ kind = 13 then 8 else 1

/-- A class that quarantines: PHY or LOG. -/
def grave (c : BitVec 4) : Bool := c &&& 12 != 0

/-- Battery-backed storage key gone, canary EMPTIED. -/
def Tamper.emptied (t : Tamper) : Tamper := { t with storageKey := none, canary := .emptied }

/-- An event opens: FIRST_BIT and LAST_BIT take the Tally mirror, which advances (R302); with all bits programmed it sets none
(R303). -/
def Tamper.opens (t : Tamper) (e : Event) : Tamper :=
  let full := decide (4096 ≤ t.mirror)
  let b := min t.mirror 4095
  { t with
    events := t.events ++ [{ e with tbit := if full then none else some t.mirror }]
    effect := t.effect ||| e.cls
    pending := true
    pClass := t.pClass ||| e.cls
    pOnCell := t.pOnCell || e.onCell
    firstBit := if t.pending then t.firstBit else b
    lastBit := b
    mirror := if full then t.mirror else t.mirror + 1 }

/-- A confirmation joins an event. -/
def Event.join (e : Event) (cls : BitVec 4) (kind : Nat) : Event :=
  { e with cls := e.cls ||| cls, kinds := setFlag e.kinds kind }

/-- The event whose window is open takes the confirmation. -/
def Tamper.joins (t : Tamper) (cls : BitVec 4) (kind : Nat) : Tamper :=
  { t with
    events := t.events.map fun e => if e.window then e.join cls kind else e
    effect := t.effect ||| cls
    pClass := t.pClass ||| cls }

/-- A confirmation after the window adds to LATE of the entry not yet written. -/
def Tamper.late (t : Tamper) : Tamper :=
  match t.events.reverse with
  | [] => t
  | e :: r => { t with events := (({ e with late := satInc e.late }) :: r).reverse }

/-- LAST_KIND and LAST_INSTANCE (R304), and TAMP_OUT_N low (R296). -/
def Tamper.confirmed (t : Tamper) (kind inst : Nat) : Tamper :=
  { t with lastKind := BitVec.ofNat 8 kind, lastInst := BitVec.ofNat 8 inst, confirmedSince := true, tampOutN := false }

def newEvent (cls : BitVec 4) (kind inst : Nat) (time : Word64) : Event :=
  { cls := cls, kinds := BitVec.ofNat 16 (2 ^ kind), firstKind := BitVec.ofNat 8 kind, firstInst := BitVec.ofNat 8 inst, time := time }

/-- An alarm with main power present. -/
def Tamper.alarm (t : Tamper) (kind inst : Nat) (time : Word64) : Tamper :=
  let cls := classOf kind
  let t := t.confirmed kind inst
  let t := if grave cls then t.emptied else t
  if t.events.any (·.window) then t.joins cls kind
  else if t.effect = 0 then t.opens (newEvent cls kind inst time)
  else if grave cls && !grave t.effect then t.opens { newEvent cls kind inst time with escalation := true }
  else t.late

def State.alarm (s : State) (kind inst : Nat) : State :=
  let s := s.fell
  s.setTam (s.tam.alarm kind inst s.time.counter)

/-- An alarm on the cell (R299): it joins the pending event, or sets the latch. -/
def Tamper.cellAlarm (t : Tamper) (kind inst : Nat) : Tamper :=
  let cls := classOf kind
  let t := (t.confirmed kind inst).emptied
  match t.events.reverse with
  | e :: r =>
    { t with events := (({ e.join cls kind with onCell := true }) :: r).reverse, effect := t.effect ||| cls,
             pClass := t.pClass ||| cls, pOnCell := true }
  | [] => t.opens { newEvent cls kind inst 0 with onCell := true, window := false }

/-- The device runs from main power and out of reset. -/
def State.mainRun (s : State) : Bool := s.life.mainPower && s.life.sysRstN

/-- Entry k may confirm now: its monitor is active, has not confirmed already (R292) and is not under test (R307); the canary is
read at a main power-up only (R300). -/
def State.mayConfirm (s : State) (k : Nat) : Bool :=
  s.monActive k && !s.tam.latched.contains k && !(s.tam.testBusy && s.tam.testRun.toNat == k) && k != 98
    && (s.life.mainPower || s.tam.canary != .lost)

/-- The confirmation of entry k; high tells an over- from an undervoltage (R288). -/
def State.confirm (s : State) (k : Nat) (high : Bool) : State :=
  let s := s.setTam { s.tam with latched := s.tam.latched ++ [k] }
  let (kind, inst) := entryKind k
  if !s.mainRun then s.setTam (s.tam.cellAlarm kind inst)
  else if kind = 2 ∧ inst < 8 ∧ !high then
    let s := s.fell
    s.setTam { s.tam with uvPending := s.tam.uvPending ++ [inst], lastKind := 2, lastInst := BitVec.ofNat 8 inst }
  else s.alarm kind inst

/-- MONITOR_CONFIRM (R284). -/
def execMonitorConfirm (k : Fin 159) (high : Bool) (s : State) : Out :=
  answer s (if s.mayConfirm k.val then s.confirm k.val high else s)

/-- MONITOR_CLEAR (R292). -/
def execMonitorClear (k : Fin 159) (s : State) : Out := answer s (s.setTam { s.tam with latched := s.tam.latched.erase k.val })

/-- EVENT_WINDOW_CLOSE (R290). -/
def execEventWindowClose (s : State) : Out :=
  answer s (s.setTam { s.tam with events := s.tam.events.map fun e => { e with window := false } })

/-- UV_CLASSIFY (R288): the main rails' undervoltage confirmations not yet classified were a power loss, or the oldest becomes an
ENV alarm. -/
def execUvClassify (powerLoss : Bool) (s : State) : Out :=
  answer s <|
    match s.tam.uvPending with
    | [] => s
    | i :: rest => if powerLoss then s.setTam { s.tam with uvPending := [] } else (s.setTam { s.tam with uvPending := rest }).alarm 2 i

/-! ### The Tally and the log (R301 to R304; 16 R381) -/

/-- The lifecycle an event leads to (16 Table 16.2). -/
def consequence (st : Lifecycle) (e : Event) : Lifecycle :=
  if e.tbit = some 4095 then .retired
  else if e.debug || !grave e.cls then (if st = .operational then .emptied else st)
  else
    match st with
    | .owned => .quarantined
    | .operational => .quarantined
    | .emptied => .quarantined
    | x => x

/-- The lifecycle code (02 Table 2.5). -/
def lcCode : Lifecycle → BitVec 4
  | .blank => 0
  | .owned => 1
  | .operational => 2
  | .emptied => 3
  | .quarantined => 4
  | .retired => 5
  | .development => 8

/-- The event's bit is programmed, its entry written and its consequence recorded. -/
def State.logEvent (s : State) (e : Event) : State :=
  let n := s.tam.logSeq + 1
  let lc := consequence s.life.st e
  let l : LogEntry := { seq := n, ev := e, lcBefore := lcCode s.life.st, lcAfter := lcCode lc }
  let t := s.tam
  let s := s.setTam { t with tally := max t.tally (e.tbit.elim 0 (· + 1)), logSeq := n, log := (l :: t.log).take 256 }
  { s with life := { s.life with st := lc } }

/-- Every event whose window has closed is completed; the latch is cleared when none is left (R302). -/
def State.completeEvents (s : State) : State :=
  let (open', closed) := s.tam.events.partition (·.window)
  let s := closed.foldl State.logEvent s
  if open'.isEmpty then
    s.setTam { s.tam with events := [], pending := false, pClass := 0, pOnCell := false, firstBit := 0, lastBit := 0,
                          confirmedSince := false }
  else s.setTam { s.tam with events := open' }

/-- TALLY_PROGRAM (R302). -/
def execTallyProgram (s : State) : Out :=
  answer s (if s.mainRun && s.tam.events.any (fun e => !e.window) then s.completeEvents else s)

/-- A debug session fells the device without an event (R297). -/
def State.debugFell (s : State) : State := s.fell.logEvent { debug := true, window := false, time := s.time.counter }

/-! ### Built-in test (R307, R308) -/

/-- A test of entry k may start now. -/
def State.testable (s : State) (k : Nat) : Bool :=
  !s.tam.testBusy && !s.tam.felledState && !s.tam.pending && k != 98 && decide (k < 159) && s.mainRun && s.monActive k
    && (!mhas s.tam.testTime k || decide (1000000000 ≤ s.time.counter.toNat - (mget s.tam.testTime k 0).toNat))

def State.startTest (s : State) (k : Nat) : State :=
  s.setTam { s.tam with testBusy := true, testPass := false, testFail := false, fell := .test, testEntry := BitVec.ofNat 8 k, testRun := BitVec.ofNat 8 k,
                        testTime := mset s.tam.testTime k s.time.counter }

/-- TEST_GO (R307): TEST_ENTRY is written, and the test starts. -/
def execTestGo (k : Byte) (s : State) : Out :=
  answer s <|
    let s := s.setTam { s.tam with testEntry := k }
    if !s.tam.testBusy && s.testable k.toNat then s.startTest k.toNat else s

/-- MONITOR_TEST_END (R307, R308): a failed test is a SELFTEST alarm. -/
def execMonitorTestEnd (confirmed : Bool) (s : State) : Out :=
  answer s <|
    if !s.tam.testBusy then s
    else
      let t := s.tam
      let s := s.setTam { t with testBusy := false, testPass := confirmed, testFail := !confirmed, testDone := t.testRun,
                                 fell := if t.fell = .test then .armed else t.fell }
      if confirmed || !s.mainRun then s else s.alarm 13 t.testRun.toNat

/-- Entries in order from n on, round. -/
def entriesFrom (n : Nat) : List Nat := (List.range 159).map fun i => (n + i) % 159

/-- MONITOR_TEST_PERIODIC (R308): the next powered entry in entry order. -/
def execMonitorTestPeriodic (s : State) : Out :=
  answer s <|
    match (entriesFrom s.tam.nextTest).find? fun k => k != 98 && s.monActive k with
    | none => s
    | some k => if s.testable k then (s.startTest k).setTam { (s.startTest k).tam with nextTest := (k + 1) % 159 } else s

/-- MONITOR_REARM (R286). -/
def execMonitorRearm (dom : Fin 30) (s : State) : Out :=
  answer s (if (s.domain dom.val).up && (s.domain dom.val).pgood then s.arm (entriesOf dom.val) true else s)

/-- CELL_SWITCHOVER (18 R429). -/
def execCellSwitchover (toCell : Bool) (s : State) : Out := answer s (s.setTam { s.tam with onCell := toCell })

/-! ### Margin sentinels (R309 to R311; 07 R206) -/

/-- n blocks through the two FCEs of cluster c, split freely. -/
def State.runBlocks (s : State) (c n : Nat) : State :=
  let a := Config.freeNat 9 (s.ops c) % (n + 1)
  (s.setSentinel c 0 ((s.sentinel c 0).run (2 * s.ops c) a)).setSentinel c 1 ((s.sentinel c 1).run (2 * s.ops c + 1) (n - a))

/-- The blocks that are still missing for an interval of n: those that verbs' requests ran, which the model does not count one
by one. -/
def State.fillBlocks (s : State) (c n : Nat) : State :=
  let have' := s.ops c - (mget s.tam.interval c (0, 0)).1
  if have' < n then s.runBlocks c (n - have') else s

/-- ADVANCE of both FCEs; a change clears their counters. -/
def State.setAdvance (s : State) (c a : Nat) : State :=
  [0, 1].foldl (fun (s : State) f =>
    let x := s.sentinel c f
    if x.advance.toNat = a then s else s.setSentinel c f { advance := BitVec.ofNat 4 a, en := x.en }) s

/-- T for A* = a (R310 step 4). -/
def droopOf (c a : Nat) : Nat := (12 * a - 24) * 64 / sentConst c 0

/-- An interval ends (R310). -/
def State.intervalEnd (s : State) (c : Nat) (aStar : Option Nat) : State :=
  let (ops0, miss0) := mget s.tam.interval c (0, 0)
  let blocks := s.ops c - ops0
  let miss := s.misses c - miss0
  let adv := (s.sentinel c 0).advance.toNat
  let low := decide (miss * 2048 ≤ blocks)
  let aStar := if low then some adv else aStar
  if adv = 0 ∧ !low then
    let s := s.setDroop c (sentConst c 1)
    (s.setTam { s.tam with lowMargin := mset s.tam.lowMargin c true, phase := mset s.tam.phase c .off }).wantRepair c
  else
    let s := s.setAdvance c (if miss = 0 ∧ adv < 15 then adv + 1 else if !low then adv - 1 else adv)
    let s := match aStar with
      | some a => s.setDroop c (droopOf c a)
      | none => s
    s.setTam { s.tam with phase := mset s.tam.phase c (.two aStar), interval := mset s.tam.interval c (s.ops c, s.misses c) }

def State.sentPhase (s : State) (c : Nat) : SentPhase := if (s.domain (11 + c)).up then mget s.tam.phase c .off else .off

/-- SENTINEL_PHASE1_END (R309, R310): phase 1 is the first interval. -/
def execSentinelPhase1End (c : Cl) (s : State) : Out :=
  answer s <|
    match s.sentPhase c.val with
    | .one => (s.fillBlocks c.val (2 ^ 20)).intervalEnd c.val none
    | _ => s

/-- SENTINEL_INTERVAL_END (R310). -/
def execSentinelIntervalEnd (c : Cl) (s : State) : Out :=
  answer s <|
    match s.sentPhase c.val with
    | .two a => (s.fillBlocks c.val (2 ^ 16)).intervalEnd c.val a
    | _ => s

/-- SENTINEL_TOP_UP (R309): 100 ms of phase 1 with fewer than 2^16 blocks are filled up. -/
def execSentinelTopUp (c : Cl) (s : State) : Out :=
  answer s <|
    match s.sentPhase c.val with
    | .one =>
      let live := s.ops c.val - mget s.tam.topUp c.val 0
      let s := if live < 2 ^ 16 then s.runBlocks c.val (2 ^ 16 - live) else s
      s.setTam { s.tam with topUp := mset s.tam.topUp c.val (s.ops c.val) }
    | _ => s

end Sys2Proof.Machine
end

