-- ==== Sys2Proof/Machine/Resets.lean ====
section
/-! DEFINITION. The three reset levels (02 R54 to R57), boot (16 R391 to R394), the reset pins (18 R418, R419) and the loss and
return of power (12 R288, R300, R301). -/

namespace Sys2Proof.Machine

/-! ### Partition reset (02 R55) -/

/-- The cluster operation of a command that is gone ends. -/
def State.opGone (s : State) : State :=
  match s.pwr.current with
  | some (.verb d _) => if (s.desc d).isNone then s.opEnds else s
  | _ => s

/-- Descriptors of function n's own rings. -/
def State.fnDescs (s : State) (n : Nat) : List Nat :=
  (s.disp.descs.filter fun r => r.fn == n && decide (r.ring < meshRing)).map (·.id)

/-- Steps 2 to 4: descriptors completed PARTITION_RESET for the owner's verb, or simply gone; locks and transient slots
released. -/
def State.dropPart (s : State) (n : Nat) (owner : Bool) : State :=
  let s := s.abandonPart n
  let s := (s.fnDescs n).foldl (fun (s : State) d => if owner then s.completeOne d stPartReset [] [] else s.removeDesc d true) s
  (((s.pool n).foldl State.releaseSlot s).settle).opGone

/-- Steps 5 and 6. A function-level reset also resets EVT_MASK and the MSI-X tables. -/
def Func.afterReset (f : Func) (owner : Bool) : Func :=
  { present := f.present, fnReady := true, partResets := f.partResets + 1
    evtMask := if owner then f.evtMask else 0
    msix := if owner then f.msix else []
    pba := if owner then f.pba else [] }

/-- The owner's partition reset verb on function n. -/
def State.ownerReset (s : State) (n : Nat) : State :=
  let s := s.dropPart n true
  (s.setFunc n ((s.func n).afterReset true)).raiseEvt n evOwnerReset

/-- A physical-function reset discards outstanding paging requests and disables the paging rings; what they asked for is wanted
again, and a commit whose requests they were starts again (R55; 06 R177). -/
def State.pagingReset (s : State) : State :=
  let again := s.vault.commit.isSome || s.vault.recommit
  let s := s.abandonCommit
  let v := s.vault
  let reads := (v.reqs.filter fun q => !q.write && !q.timedOut).map fun q => (q.obj, q.num)
  let s := s.setVault { v with reqs := [], pgEnabled := false, pgFault := false, recommit := again,
                               wanted := if v.ready then (v.wanted ++ reads).eraseDups else v.wanted }
  { s with host := { s.host with pgCount := 1, pgTimer := 0, pgPend := 0 } }

/-- A function-level reset of function n. -/
def State.flr (s : State) (n : Nat) : State :=
  let s := s.dropPart n false
  let s := if n = 0 then s.pagingReset else s
  s.setFunc n ((s.func n).afterReset false)

/-- A DEVICE_RESET that waits: its descriptor, and the commit it waits for, 0 before that has started. -/
def State.resetAsked (s : State) : Option (Nat × Nat) :=
  s.disp.descs.findSome? fun r =>
    match r.stage with
    | .mgmtWait (.commit q) _ => some (r.id, q)
    | _ => none

/-- The virtual functions go with a reset of the physical one. -/
def State.dropVfs (s : State) : State :=
  (s.present.filter (· != 0)).foldl (fun (s : State) n =>
    let s := s.flr n
    s.setFunc n { s.func n with present := false, fnReady := false }) s

/-! ### Firmware images (16 R391, R392) -/

def fwContext : Bytes := ascii "Duelacel firmware"

/-- Which fused firmware key the image carries; none for neither. -/
def State.fwKey (s : State) (b : Bool) : Option Nat :=
  let len := leNat (s.imageBytes b 0x10 4)
  let k := shake 32 (s.imageBytes b (0x80 + len) 1952)
  if k = Config.moroafyKey 0 then some 0 else if k = Config.moroafyKey 1 then some 1 else none

/-- What an image carries in itself: measurement, signature, key, STEPPING, and DEV_ONLY for the part. -/
def State.fwIntact (s : State) (b : Bool) : Bool :=
  let len := leNat (s.imageBytes b 0x10 4)
  let flags := leNat (s.imageBytes b 7 1)
  decide (len ≤ 6286067)
    && s.imageBytes b 0x40 64 == shake 64 (s.imageBytes b 0 64 ++ s.imageBytes b 0x80 len)
    && Config.mldsaVerify (s.imageBytes b (0x80 + len) 1952) fwContext (s.imageBytes b 0 128) (s.imageBytes b (0x80 + len + 1952) 3309)
    && leNat (s.imageBytes b 6 1) == 0xB0
    && (!bit flags 0 || s.life.st == .development)
    && (s.fwKey b).any fun k => !bit flags 1 || k == 1

def State.imageSvn (s : State) (b : Bool) : Word16 := BitVec.ofNat 16 (leNat (s.imageBytes b 12 2))

/-- The image is valid now (R392). -/
def State.imageOk (s : State) (b : Bool) : Bool :=
  ((s.image b).valid || s.fwIntact b) && decide (s.life.svnFloor.toNat ≤ (s.imageSvn b).toNat)
    && (!s.life.key0Revoked || s.fwKey b == some 1)

/-! ### Boot (Table 16.7) -/

/-- The clusters that boot powers, with their operating points (Table 16.1; 15 R375). -/
def State.bootSettings (s : State) : List (Nat × Bool) :=
  match s.life.st with
  | .blank => (List.range 8).map fun c => (c, false)
  | .quarantined => [(0, false)]
  | .retired => [(0, false)]
  | _ => (List.range 8).filterMap fun c =>
      let (on, point) := mget s.pwr.stored c (true, false)
      if on then some (c, point) else none

/-- Both domains of cluster c come up. -/
def State.bootCluster (s : State) (c : Nat) (point : Bool) : State :=
  ((s.bootDomain point (11 + c)).bootDomain point (3 + c)).setCst c .powering

/-- Step 7: clusters, PAUs of their halves, and Withy ports in use. -/
def State.bootPower (s : State) : State :=
  let l := s.bootSettings
  let s := l.foldl (fun (s : State) c => s.bootCluster c.1 c.2) s
  let s := [0, 1].foldl (fun (s : State) h => if l.any (fun c => c.1 / 4 == h) then s.pausOn h else s) s
  [0, 1, 2, 3].foldl (fun (s : State) p => if s.portUsed p then s.bootDomain false (26 + p) else s) s

/-- Alatas tests entries one after another, in entry order, and each confirms: the registers show the last (12 R307, R308). An entry that
fails its test raises its alarm with MONITOR_CONFIRM (notes/assumptions/96.md). -/
def State.tested (s : State) (ks : List Nat) : State :=
  match ks.getLast? with
  | none => s
  | some k =>
    s.setTam { s.tam with
      testTime := ks.foldl (fun m k => mset m k s.time.counter) s.tam.testTime
      testEntry := BitVec.ofNat 8 k, testDone := BitVec.ofNat 8 k, testPass := true, testFail := false }

/-- Step 9: every powered entry is tested. -/
def State.bootTests (s : State) : State := s.tested (allEntries.filter fun k => k != 98 && s.monActive k)

/-- The mesh root key is unsealed under the storage key it was sealed under (14 R345). -/
def State.unsealMrk (s : State) : State :=
  match s.mesh.sealedMrk, s.tam.storageKey with
  | some (k, m), some k' => if k = k' then { s with mesh := { s.mesh with mrk := some m } } else s
  | _, _ => s

/-- Boot from the active image, or the other (R392). -/
def State.bootImage (s : State) (b : Bool) : State :=
  let img := { s.image b with valid := true }
  let s : State := { s with
    life := { s.life with active := b, running := b, fwNone := false, boot := .waitEntropy,
                          imageA := if b then s.life.imageA else img, imageB := if b then img else s.life.imageB }
    kr := { s.kr with wardenKey := some Config.deviceRoot } }
  s.unsealMrk.bootPower.bootTests

/-- Steps 2 and 4 to 9 of Table 16.7; step 8 ends with KEYREG_READY. -/
def State.boot (s : State) : State :=
  if !s.mainRun then s
  else
    let s := [0, 1, 2, 23, 24, 25].foldl (fun (s : State) d => s.bootDomain false d) s
    let a := s.life.active
    if s.imageOk a then s.bootImage a
    else if s.imageOk (!a) then s.bootImage !a
    else { s with life := { s.life with fwNone := true, boot := .stopped } }

/-- Step 10: FN_READY, and the clusters that are up serve. -/
def State.bootDone (s : State) : State :=
  let s := s.setFunc 0 { s.func 0 with fnReady := true }
  let s := s.present.foldl (fun (s : State) n => s.setFunc n { s.func n with fnReady := true }) s
  let s := (List.range 8).foldl (fun (s : State) c => if s.cst c = .quiesced then s.setServing c true else s) s
  { s with life := { s.life with boot := .done } }.rebuild

/-- After step 9 the link has to be there (18 R419). -/
def State.bootLink (s : State) : State :=
  if s.life.perstN then s.bootDone else { s with life := { s.life with boot := .waitLink } }

/-! ### Warm reset (R56) -/

/-- What a warm or cold reset leaves of a function. -/
def Func.kept (n : Nat) (f : Func) : Func := { present := n == 0, partResets := f.partResets }

/-- Tamper state that the AON and the root store keep (Table 12.9; R296). -/
def Tamper.kept (t : Tamper) : Tamper :=
  { filters := t.filters, events := t.events, pending := t.pending, pClass := t.pClass, pOnCell := t.pOnCell
    firstBit := t.firstBit, lastBit := t.lastBit, mirror := t.mirror, tally := t.tally, log := t.log, logSeq := t.logSeq
    canary := t.canary, storageKey := t.storageKey, onCell := t.onCell, uvPending := t.uvPending
    confirmedSince := t.confirmedSince
    tampOutN := t.tampOutN || (!t.pending && !t.confirmedSince) }

/-- The counter, TRIM, LOCK and TIME_VALID (15 R362), and what a cold reset alone clears: that LOCK was ever 1, the last f, and
that a count was posted (R365, Table 15.2). -/
def Time.kept (t : Time) : Time :=
  { counter := t.counter, frac := t.frac, trim := t.trim, lock := t.lock, valid := t.valid, lockEver := t.lockEver, lastF := t.lastF,
    counted := t.counted }

/-- Lifecycle and root store items. -/
def Life.kept (l : Life) : Life :=
  { l with boot := .held, activating := none, updatePause := false, session := false, tokenResult := 0, devNonce := [],
           token := [], runControl := [] }

/-- Everything volatile is cleared (R56 step 2); root store, battery-backed and sticky items, time and host memory stay. -/
def State.volatile (s : State) : State :=
  { pending := s.pending
    host := { mem := s.host.mem, posted := s.host.posted, warmResets := s.host.warmResets, readData := s.host.readData
              smbResp := s.host.smbResp, funcs := mset (s.host.funcs.map fun (c : Nat × Func) => (c.1, c.2.kept c.1)) 0 ((s.func 0).kept 0) }
    disp := { nextId := s.disp.nextId }
    vault := { rootSlots := s.vault.rootSlots, integritySeen := s.vault.integritySeen
               parts := s.vault.parts.map fun (c : Nat × Part) => (c.1, { live := c.1 == 0, recipeKey := c.2.recipeKey }) }
    ent := { instants := s.ent.instants }
    tam := s.tam.kept
    gate := { gates := s.gate.gates.map fun (c : Nat × Gate) => (c.1, { dbgFaults := c.2.dbgFaults }) }
    mesh := { roster := s.mesh.roster, slotHome := s.mesh.slotHome, rseq := s.mesh.rseq, journal := s.mesh.journal
              sealedMrk := s.mesh.sealedMrk, sent := s.mesh.sent }
    time := s.time.kept
    pwr := { stored := s.pwr.stored, repaired := s.pwr.repaired, repairs := s.pwr.repairs }
    life := s.life.kept }

/-- A warm reset: no completion is written, and the device boots again (16 R394). -/
def State.warm (s : State) : State :=
  let s := s.volatile
  { s with host := { s.host with warmResets := s.host.warmResets + 1 } }.boot

/-- WARM_RESET (R56). -/
def execWarmReset (s : State) : Out := answer s (if s.mainRun then s.warm else s)

/-- FUNCTION_LEVEL_RESET (R55); while FN_READY is 0 one is ignored (DESIGN CHOICE, notes/assumptions/85.md). One of the physical function
ends the commit that a DEVICE_RESET waits for, whose warm reset then goes ahead (06 R178). -/
def execFunctionLevelReset (fn : Fn) (s : State) : Out :=
  answer s <|
    if !(s.func fn.val).present || !(s.func fn.val).fnReady then s
    else if fn.val = 0 then (if s.resetAsked.isSome then (s.dropVfs.flr 0).warm else s.dropVfs.flr 0)
    else s.flr fn.val

/-- A DEVICE_RESET commits every dirty page first; when that commit has ended in any way, the device resets (06 R178). -/
def State.resetIfAsked (s : State) : State :=
  match s.resetAsked with
  | none => s
  | some (d, q) =>
    if q = 0 then
      if s.vault.commit.isSome then s
      else if s.dirtyPages.isEmpty then s.warm
      else
        let t := s.startCommit
        match t.vault.commit with
        | none => s.warm
        | some c => t.modDesc d fun r => { r with stage := .mgmtWait (.commit c.seq) {} }
    else if s.vault.commit.any fun c => c.seq == q then s
    else s.warm

/-! Numbers of waits that end when a condition ends: a sweep or an index rebuild of a partition, the window set being
retired (13 R326), the activation (16 R396) and the capture (11 R278) in progress. -/

def waitWindows (p : Nat) : Nat := 32 + p
def waitActivation : Nat := 64
def waitCapture : Nat := 65
def waitPart (p : Nat) : Nat := 128 + p

/-- A management command of several parts is at work on partition p: a PARTITION_DESTROY or a QUOTA_SET. -/
def State.partBusy (s : State) (p : Nat) : Bool :=
  s.disp.descs.any fun r => decide (2 ≤ r.phase) && (r.operation == 2 || r.operation == 3) && leAt r.image 0 1 == p

/-- The condition that wait k stands for still holds. -/
def State.waitHolds (s : State) (k : Nat) : Bool :=
  if k < 32 then s.kr.sweeps.any fun w => w.part == k
  else if k < 64 then mhas s.gate.oldWin (k - 32)
  else if k = waitActivation then s.life.activating.isSome
  else if k = waitCapture then s.ent.capture.isSome
  else if k < 128 then s.ixMoving (k - 96)
  else s.partBusy (k - 128)

/-- What waited for a condition that has ended goes on. -/
def State.freeWaits (s : State) : State :=
  s.disp.descs.foldl (fun (s : State) r =>
    match r.stage with
    | .waitSweep k => if s.waitHolds k then s else s.unwait r.id
    | _ => s) s

/-- What a command leaves for Alatas to see to: clusters that lost an engine, work whose wait has ended, and a reset that waited
for its commit. -/
def State.after (s : State) : State := s.checkEngines.freeWaits.resetIfAsked

/-! ### Cold reset (R57; 16 R393) -/

/-- The sticky bits, the time and what SMBus marks as new are cleared too (R57; 15 R362; 18 R422). -/
def State.cold (s : State) : State :=
  let s := s.volatile
  { s with
    host := { s.host with warmResets := 0, funcs := [(0, { present := true })] }
    vault := { s.vault with integritySeen := false }
    gate := {}
    time := {}
    life := { s.life with newItems := 0 } }

/-- The Tally is read and every event the latch holds is completed (12 R301, R302). -/
def State.bootEvents (s : State) : State :=
  let s := s.setTam { s.tam with events := s.tam.events.map fun e => { e with window := false } }
  let s := if s.tam.events.isEmpty then s else s.completeEvents
  s.setTam { s.tam with mirror := s.tam.tally }

/-- The canary of a device past Blank is read (12 R300): battery-backed SRAM that lost power leaves CELL_LOST. -/
def State.readCanary (s : State) : State :=
  if s.tam.canary = .lost ∧ s.life.st ≠ .blank then
    let s := s.setTam { s.tam with canary := .emptied, storageKey := none, events := [], pending := false }
    let s := s.bootEvents
    s.setTam (s.tam.opens { newEvent (classOf 8) 8 2 0 with cellLost := true, window := false })
  else s

/-- The boot sequence of Table 16.7, from its first step. -/
def State.coldBoot (s : State) : State := s.readCanary.bootEvents.boot

/-- COLD_RESET (R57). -/
def execColdReset (s : State) : Out := answer s (if s.mainRun then s.cold.coldBoot else s)

/-! ### Reset pins (18 R418, R419) -/

/-- A low level on SYS_RST_N that lasts ns so far is taken. -/
def State.pulseTaken (s : State) (ns : Nat) : Bool := decide (10000 ≤ ns) || (decide (1000 ≤ ns) && Config.shortPulse s.life.pulses)

/-- A pulse of 1 to 10 µs is counted, to name the next one's free choice. -/
def State.countPulse (s : State) (ns : Nat) : State :=
  if 1000 ≤ ns ∧ ns < 10000 then { s with life := { s.life with pulses := s.life.pulses + 1 } } else s

/-- SYS_RST_N_ASSERT (R418): everything but AON is held in reset. -/
def execSysRstNAssert (ns : Nat) (s : State) : Out :=
  answer s <|
    let t := s.countPulse ns
    if s.pulseTaken ns && s.life.sysRstN then
      let t := t.cold
      { t with life := { t.life with sysRstN := false } }
    else t

/-- SYS_RST_N_RELEASE (R418): the straps are taken and the boot starts. -/
def execSysRstNRelease (straps : BitVec 3) (s : State) : Out :=
  answer s <|
    if s.life.sysRstN || !s.life.mainPower then s
    else { s with life := { s.life with sysRstN := true, straps := straps } }.cold.coldBoot

/-- PERST_N_FALL (R419): after FN_READY a warm reset. -/
def execPerstNFall (s : State) : Out :=
  answer s <|
    let ready := (s.func 0).fnReady
    let t : State := { s with life := { s.life with perstN := false } }
    if ready && s.life.perstN then t.warm else t

/-- PERST_N_RISE (R419). -/
def execPerstNRise (s : State) : Out :=
  answer s <|
    let t : State := { s with life := { s.life with perstN := true } }
    if s.life.boot = .waitLink then t.bootDone else t

/-! ### Main power and the cell (12 R288, R300) -/

/-- MAIN_POWER_LOSS (R288): the keys go along the felling path, and nothing is logged. -/
def execMainPowerLoss (s : State) : Out :=
  answer s <|
    if !s.life.mainPower then s
    else
      let t := s.cold
      let t := t.setTam { t.tam with uvPending := [], events := t.tam.events.map fun e => { e with window := false } }
      { t with life := { t.life with mainPower := false, sysRstN := false } }

/-- BACKUP_CELL_LOST (R300): the battery-backed SRAM loses storage key, canary and latch. -/
def execBackupCellLost (s : State) : Out :=
  answer s <|
    if s.life.mainPower then s
    else s.setTam { s.tam with canary := .lost, storageKey := none, events := [], pending := false, pClass := 0, pOnCell := false,
                               firstBit := 0, lastBit := 0, mirror := 0, confirmedSince := false, tampOutN := true }

/-- MAIN_POWER_UP (R300 to R302). SYS_RST_N is low until SYS_RST_N_RELEASE. -/
def execMainPowerUp (s : State) : Out :=
  answer s <|
    if s.life.mainPower then s
    else { s with life := { s.life with mainPower := true, sysRstN := false } }.cold.readCanary.bootEvents

end Sys2Proof.Machine
end

