-- ==== Sys2Proof/Machine/VaultCmds.lean ====
section
/-! DEFINITION. The commands of the paging rings and the vault (02 R32, R48; 06 R166 to R181), of the key register's sweeps,
its readiness and its rebuild (03 R61, R81, R85). -/

namespace Sys2Proof.Machine

def State.stageOf (s : State) (d : Nat) : Option Stage := (s.desc d).map DRec.stage

/-! ### The paging rings -/

/-- PAGING_ENABLE (02 R32; 06 R181). -/
def execPagingEnable (fn : Fn) (s : State) : Out := answer s (s.mailbox fn.val 3 fun s => s.enablePaging fn.val).after

/-- The host stores bytes of its own, inside its 64-bit address space. -/
def withStores (w : List (Nat × Byte)) (s : State) (next : State → State) : Out :=
  match w.find? fun c => decide (2 ^ 64 ≤ c.1) with
  | some c => .fault (.noSuchHostAddress c.1)
  | none => answer s (next { s with host := { s.host with mem := memStores s.host.mem w } })

/-- RING_POLL (02 R48). -/
def execRingPoll (t : PollTarget) (stores : List (Nat × Byte)) (s : State) : Out :=
  withStores stores s fun s =>
    match t with
    | .ring fn r => s.pollRing fn.val r.val
    | .supply => s.pollSupply.after

/-- PAGE_SUPPLY (06 R170). -/
def execPageSupply (stores : List (Nat × Byte)) (s : State) : Out := withStores stores s fun s => s.supply.vaultGoes.after

/-- A request that has no answer after 1 s keeps its buffer and place (06 R171); a WRITE abandons its commit (R176). -/
def State.requestTimeout (s : State) (serial : Word32) : State :=
  match s.vault.reqs.find? fun q => q.serial == serial && !q.timedOut with
  | none => s
  | some q =>
    let s := s.setVault { s.vault with reqs := s.vault.reqs.map fun x => if x.serial = serial then { x with timedOut := true } else x }
    if q.write && s.vault.commit.any (fun c => c.serials.contains serial) then s.abandonCommit.page! else s.page!

/-- PAGE_REQUEST_TIMEOUT (06 R171). -/
def execPageRequestTimeout (serial : Word32) (s : State) : Out := answer s (s.requestTimeout serial).after

/-- PAGE_WAIT_TIMEOUT (06 R172): the descriptor's allowance is spent. -/
def execPageWaitTimeout (d : Nat) (s : State) : Out :=
  answer s <|
    match s.stageOf d with
    | some (.parked _ _) => (s.endWith d stPageTimeout).after
    | some (.waitNonce _) => (s.endWith d stPageTimeout).after
    | _ => if s.kr.fetches.any (fun f => f.desc == some d && f.waits.isSome) then (s.endWith d stPageTimeout).after else s

/-! ### Vault start and commits -/

/-- The device may read its root slots: booted, armed and holding a storage key. -/
def State.mayStart (s : State) : Bool :=
  s.mainRun && !s.tam.felledState && !s.vault.started && s.tam.storageKey.isSome
    && s.life.boot != .held && s.life.boot != .stopped

/-- Entries of the root store under this storage key (06 R173). -/
def State.validRoots (s : State) : List (Nat × RootSlot) :=
  s.vault.rootSlots.filter fun c => c.2.whole && c.2.keyCheck == s.keyCheck

/-- The entry with the highest SEQ. -/
def lastRoot : List (Nat × RootSlot) → Option (Nat × RootSlot)
  | [] => none
  | c :: r => match lastRoot r with
    | none => some c
    | some b => if b.2.seq < c.2.seq then some c else some b

/-- The active root, or a new vault where no slot holds an entry; entries under another storage key leave the vault unreadable. -/
def State.startVault (s : State) : State :=
  let s := s.setVault { s.vault with keyed := true }
  match lastRoot s.validRoots with
  | some (k, r) =>
    s.setVault { s.vault with started := true, active := some k, rootEntry := r.rootEntry, reserve := r.reserve, lastSeq := r.reserve }
  | none =>
    if s.vault.rootSlots.any (fun c => c.2.whole) then s
    else s.setVault { s.vault with started := true, active := none, rootEntry := 0, reserve := 0, lastSeq := 0 }

/-- VAULT_START (06 R173). -/
def execVaultStart (s : State) : Out := answer s (if s.mayStart then s.startVault.vaultGoes.after else s)

/-- COMMIT_START (06 R175, R176): something is dirty, or waits for durability. -/
def execCommitStart (s : State) : Out :=
  answer s (if s.dirtyPages.isEmpty && s.durables.isEmpty then s else s.startCommit.after)

/-- A root slot that does not read back as written holds no entry. -/
def State.tornRoot (s : State) (c : Commit) : State :=
  let r : RootSlot := { seq := c.seq, reserve := 0, rootEntry := 0, keyCheck := [], magic := 0 }
  s.setVault { s.vault with rootSlots := mset s.vault.rootSlots (c.seq % 64) r }

/-- COMMIT_ROOT_WRITE (06 R176, R177). -/
def execCommitRootWrite (readBackOk : Bool) (s : State) : Out :=
  answer s <|
    match s.vault.commit with
    | none => s
    | some c =>
      if !c.acknowledged then s
      else if readBackOk then (s.endCommit c).vaultGoes.after
      else ((s.tornRoot c).abandonCommit).page!.after

/-- DURABILITY_TIMEOUT (06 R177). -/
def execDurabilityTimeout (d : Nat) (s : State) : Out :=
  answer s <|
    match s.stageOf d with
    | some (.waitDurable _) => s.finish d stPageTimeout
    | _ => s

/-! ### Sweeps (03 R81) -/

/-- Slots whose chain reaches a root of the sweep. -/
def State.sweepSlots (s : State) (w : Sweep) : List Nat :=
  (w.roots.flatMap fun r => s.descendants w.part r.1).eraseDups

/-- One slot is emptied, with its record and sealed key. -/
def sweepOne (p i : Nat) : V Unit := do
  needObj 0 (slotPage i)
  dirtyRoom (slotPage i)
  let s ← getV
  dropSealed p (s.slot i)
  modV fun s => s.invalidate i
  modV fun s => s.putRec (slotPage i) (i % 31) (slotRecord i (s.slot i) 0)

/-- Descriptors of partition p that waited for the sweep. -/
def State.sweepWaiters (s : State) (p : Nat) : List Nat :=
  (s.disp.descs.filter fun r => r.stage == .waitSweep p).map (·.id)

/-- The invalidation still needs its commit. -/
def State.sweepHeld (s : State) (d : Nat) : State :=
  match s.stageOf d with
  | some (.mgmtWait (.sweep _) r) =>
    if s.vault.pgFault then s.finish d stPageTimeout else s.modDesc d fun q => { q with stage := .waitDurable r }
  | _ => s

def State.dropSweep (s : State) (w : Sweep) : State := { s with kr := { s.kr with sweeps := s.kr.sweeps.erase w } }

def State.sweepEnds (s : State) (w : Sweep) : State :=
  let s := s.dropSweep w
  let s := w.desc.elim s s.sweepHeld
  (s.sweepWaiters w.part).foldl State.unwait s

/-- The paging rings have stopped (06 R171): what waited ends, and the sweep goes on when they are back. -/
def State.sweepStalls (s : State) (w : Sweep) (st : Word16) : State :=
  let t := s.dropSweep w
  let t : State := { t with kr := { t.kr with sweeps := { w with desc := none } :: t.kr.sweeps } }
  let t := w.desc.elim t fun d => t.endWith d st
  (t.sweepWaiters w.part).foldl (fun (s : State) d => s.endWith d st) t

/-- The sweep's work: every slot of the partition is there, and those whose chain reaches a root are emptied. -/
def sweepWork (w : Sweep) : V Unit := do
  let s ← getV
  let x := s.part w.part
  (s.kr.toRestore.filter fun i => decide (x.base ≤ i ∧ i < x.base + x.persist)).forM meet
  let s ← getV
  (s.sweepSlots w).forM (sweepOne w.part)

def State.sweep (s : State) (w : Sweep) : State :=
  let (e, t) := runV (sweepWork w) s
  match e with
  | .ok _ => t.sweepEnds w
  | .error (.park l n) => s.want l n
  | .error (.fail st _) => s.sweepStalls w st
  | .error _ => s

/-- SWEEP_DONE (03 R81). -/
def execSweepDone (p : Fn) (s : State) : Out :=
  answer s <|
    match s.kr.sweeps.find? fun w => w.part == p.val with
    | none => s
    | some w => (s.sweep w).after

/-! ### The key register's start (03 R61, R85) -/

/-- KEYREG_READY (R61): every slot holds an empty image. The boot ends with it (16 Table 16.7). -/
def execKeyregReady (s : State) : Out :=
  answer s <|
    if s.kr.keyed && !s.kr.ready && s.life.boot == .waitEntropy && !s.tam.felledState then
      { s with kr := { s.kr with ready := true, slots := [] } }.bootLink.page!.after
    else s

/-- KEYREG_REBUILD (R85): the restoration goes on as far as its pages are there. -/
def execKeyregRebuild (s : State) : Out := answer s s.rebuild.page!.after

end Sys2Proof.Machine
end

