-- ==== Sys2Proof/Machine/Management.lean ====
section
/-! DEFINITION. Owner-signed management commands (04 R122, R434 to R436; 16 R398, R399): their checks, their acceptance, and
the operations on partitions, slots, records and recipes. -/

namespace Sys2Proof.Machine

/-! ### Operations -/

/-- A management operation, as its tables fix it. -/
structure MgmtOp where
  op : Nat
  /-- The form of the body (04 Table 4.27). -/
  ok : Bytes → Bool
  /-- Which of the commands of its selector a body is (11 Table 11.6). -/
  sel : Bytes → Bool := fun _ => true
  /-- Output bytes. -/
  out : Bytes → Nat := fun _ => 0
  /-- It takes its body alone (04 R122). -/
  bare : Bool := false
  /-- It is a replicated operation (14 R342), or the transfer of R341, in a mesh: the kind of its transaction. -/
  shared : Option Nat := none
  /-- The checks its origin makes: they leave its inline result. -/
  check : Opnd → V Bytes := fun _ => pure []
  run : Opnd → V Answer

/-! ### Command form and acceptance (16 R398, R399) -/

def cmdContext : Bytes := ascii "Duelacel command"

/-- A Development part takes these without a signature (04 R122). -/
def State.unsigned (s : State) (op : Nat) : Bool := s.life.st == .development && (op == 25 || s.life.ownerKey.isNone)

def cmdBody (b : Bytes) : Bytes := slice b 64 (leAt b 0x20 4)

/-- Step 1, but for the body. -/
def cmdFormOk (r : DRec) (b : Bytes) (unsigned : Bool) : Bool :=
  leAt b 0 4 == 0x444D4344 && leAt b 4 2 == 1 && leAt b 6 2 == r.selector && allZero (slice b 0x24 28)
    && b.length == 64 + leAt b 0x20 4 + (if unsigned then 0 else 3309) && decide (64 ≤ b.length)

/-- Steps 2 to 5; the signature of step 3 is a PAU's work (09 R241). -/
def State.cmdAuthOk (s : State) (b : Bytes) (unsigned : Bool) : Bool :=
  let n := 64 + leAt b 0x20 4
  leAt b 8 8 == Config.serial.toNat
    && (unsigned || s.life.ownerKey.any fun k => Config.mldsaVerify k cmdContext (b.take n) (slice b n 3309))
    && decide (s.life.cmdSeq < leAt b 0x10 8)
    && (leAt b 0x18 8 == 0 || (s.time.valid && decide (s.time.counter.toNat ≤ leAt b 0x18 8)))

/-- What a descriptor's input carries for an operation. -/
def MgmtOp.bodyOf (m : MgmtOp) (b : Bytes) : Bytes := if m.bare then b else cmdBody b

/-- All checks before the command acts, in order: 02 R36, the lifecycle, 04 R87, 16 R399. They leave its input. -/
def mgmtIntake (r : DRec) (m : MgmtOp) (o : Opnd) : V Bytes := do
  need r.plainOk stBad
  let (ins, _) ← hostOperands r 0
  let s ← getV
  let b := s.gather ins
  need (m.out (m.bodyOf b) ≤ r.outCap) stBad
  need (s.serves r) stAccess
  need (r.param == 0 && r.auxLen == 0 && allZero r.inlineOps) stBad
  need (m.out (m.bodyOf b) != 0 || (r.outCap == 0 && !r.outSgl)) stBad
  let u := s.unsigned m.op
  need ((m.bare || cmdFormOk r b u) && m.ok (m.bodyOf b)) stBad
  let _ ← if !m.bare && !u && leAt b 8 8 == Config.serial.toNat then engineOf o [4] [] else pure ()
  need (m.bare || s.cmdAuthOk b u) stAuth
  pure b

/-- The command is accepted: SEQ is written before it acts, and in Operational-Emptied the device is rearmed (R382). -/
def State.accept (s : State) (r : DRec) (m : MgmtOp) (b : Bytes) : State :=
  let s := s.modDesc r.id fun q => { q with phase := 1, image := m.bodyOf b }
  if m.bare then s
  else
    let s : State := { s with life := { s.life with cmdSeq := leAt b 0x10 8 } }
    if s.life.st = .emptied then { s with life := { s.life with st := .operational } }.rebuild.page! else s

/-! ### Running -/

/-- The command d, where the Warden carries it out and it selects the operation: commands are taken from the management queue in
the order they arrived, one that has been taken goes on whatever others do (01 R23), and none is taken in the Warden pause. -/
def State.mgmtAs (s : State) (d op : Nat) : Option DRec :=
  if s.life.updatePause || (s.disp.mgmtQ.contains d && s.disp.mgmtQ.head? != some d) then none
  else (s.desc d).filter fun r => r.stage == .mgmt && r.isMgmt && r.operation == op

/-- Command d leaves the management queue: the Warden has taken it. -/
def State.takeMgmt (s : State) (d : Nat) : State := { s with disp := { s.disp with mgmtQ := s.disp.mgmtQ.erase d } }

def State.mgmtOpnd (s : State) (r : DRec) (chk : Bool) : Opnd :=
  { d := r.id, p := 0, cl := s.wardenCluster, fam := 15, op := r.operation, inp := r.image, outCap := r.outCap, chk := chk }

/-- The origin's part of a replicated command (14 R343 step 1). -/
def State.mgmtTxn (s : State) (m : MgmtOp) (r : DRec) (kind : Nat) (o : Opnd) : State :=
  if !s.quorum then s.endWith r.id stMesh
  else
    let (e, t) := runV (m.check o) s
    match e with
    | .ok inl => s.startTxn r.id kind (r.bytes ++ r.image) { status := stDone, inl := inl }
    | .error (.fail st _) => t.endWith r.id st
    | .error (.park l n) => (s.keepWork t r.id).parkFor r.id l n
    | .error (.wait g) => ((s.keepWork t r.id).pause r.id g).askFor r.id g
    | .error _ => s

/-- An accepted command acts. -/
def State.mgmtBody (s : State) (m : MgmtOp) (d : Nat) (chk : Bool) : State :=
  match s.desc d with
  | none => s
  | some r =>
    let s := s.rewind d
    let o := s.mgmtOpnd r chk
    match (if s.alone d then none else m.shared) with
    | some kind => s.mgmtTxn m r kind o
    | none =>
      let (e, t) := runV (m.run o) s
      match e with
      | .error (.forward _) => t.endWith d stMesh
      | e => s.runEnds d 15 m.op e t

/-- A management command. -/
def State.runMgmt (s : State) (m : MgmtOp) (d : Nat) (chk : Bool) : State :=
  match s.mgmtAs d m.op with
  | none => s
  | some r =>
    if r.phase = 0 then
      if !m.sel (m.bodyOf (s.inputOf r)) then s
      else
        let s := s.takeMgmt d
        let (e, t) := runV (mgmtIntake r m (s.mgmtOpnd r chk)) s
        match e with
        | .ok b => (t.accept r m b).mgmtBody m d chk
        | .error (.fail st _) => t.endWith d st
        | .error _ => s
    else if !m.sel r.image then s
    else (s.takeMgmt d).mgmtBody m d chk

/-! ### Bodies carried out in parts -/

def setPhase (d k : Nat) : V Unit := modV fun s => s.modDesc d fun r => { r with phase := k }

/-- Parts from part k on; each names the next, or is the last. Where one has to wait, those before it stand. -/
def parts (d : Nat) (part : Nat → V (Option Nat)) : Nat → Nat → V Unit
  | 0, _ => pure ()
  | f + 1, k => do
    let n ← standing d do
      let n ← part k
      match n with
      | some j => setPhase d j
      | none => pure ()
      pure n
    match n with
    | some j => parts d part f j
    | none => pure ()

/-- How far a command has got. -/
def phaseOf? (s : State) (d : Nat) : Nat := ((s.desc d).map (·.phase)).getD 0

/-! ### Partitions (04 R436) -/

def bodyPart (o : Opnd) : Nat := leAt o.inp 0 1

/-- Partition p exists (R436); what partitions there are is known once the rebuild has read their records. -/
def exists! (p : Nat) : V Unit := do
  if p ≠ 0 then
    partsKnown
    let s ← getV
    need (s.part p).live stBad
  else pure ()

/-- The updates of a command are durable before it completes. -/
def markDurable (d : Nat) : V Unit := modV fun s => s.markDurable d

/-- PARTITION_CREATE, PARTITION_DESTROY, PARTITION_RESET. -/
def vfBodyOk (b : Bytes) : Bool := b.length == 8 && decide (1 ≤ leAt b 0 1 ∧ leAt b 0 1 ≤ 31) && allZero (b.drop 1)
def partBodyOk (b : Bytes) : Bool := b.length == 8 && decide (leAt b 0 1 ≤ 31) && allZero (b.drop 1)

def checkCreate (o : Opnd) : V Bytes := do
  partsKnown
  let s ← getV
  need (!(s.part (bodyPart o)).live) stBad
  pure []

def opPartitionCreate : MgmtOp :=
  { op := 1, ok := vfBodyOk, shared := some 1, check := checkCreate
    run := fun o => do
      let _ ← checkCreate o
      modPart (bodyPart o) fun x => { x with live := true }
      pure { durable := true } }

/-- A body of several parts waits for another that works on its partition (notes/assumptions/27.md). -/
def takePart (o : Opnd) : V Unit := do
  let s ← getV
  if phaseOf? s o.d ≤ 1 ∧ s.partBusy (bodyPart o) then stopV (.wait (.waitSweep (waitPart (bodyPart o)))) else pure ()

def checkPart (o : Opnd) : V Bytes := do
  exists! (bodyPart o)
  pure []

/-- A page of a destroyed partition, or of an index run given up, goes on the device free chain; records of a numbered page keep
REUSE, as free records of it do (06 R157, R158, R162; notes/assumptions/28.md). -/
def returnPage (n : Nat) : V Unit := do
  needObj 0 0
  needObj 0 n
  dirtyRoom 0
  dirtyRoom n
  modV fun s =>
    let x := s.page n
    let recs := if x.kind = 0 then x.recs.map fun (c : Nat × Bytes) => (c.1, zeros 4 ++ slice c.2 4 4 ++ zeros 120) else []
    let s := s.setPage n { kind := 2, part := 255, nextFree := s.vaultField 8 4, recs := recs, dirty := true }
    (s.setVaultField 8 4 n).setVaultField 0xC 4 (s.vaultField 0xC 4 - 1)

def firstPage : Nat := 2148

/-- Pages of an index run with 2^k buckets. -/
def runPages (k : Nat) : Nat := (2 ^ k + 30) / 31

def inRun (base k n : Nat) : Bool := base != 0 && decide (base ≤ n ∧ n < base + runPages k)

/-- Recipes of partition p are gone from the store (05 R141). -/
def State.dropRecipes (s : State) (bad : Recipe → Bool) : State :=
  { s with life := { s.life with recipes := s.life.recipes.filter fun r => !bad r } }

/-- Step 1 and 2 of R436. -/
def destroyStart (p : Nat) : V (Option Nat) := do
  noSweep p
  needObj 0 (1 + p)
  dirtyRoom (1 + p)
  modV fun s =>
    let s := s.ownerReset p
    let s : State := { s with kr := { s.kr with anchors := mset s.kr.anchors p (s.anchor p + 1) } }
    s.savePart p
  pure (some 2)

/-- Step 3: persistent slot k of the window. -/
def destroySlot (p k : Nat) : V (Option Nat) := do
  let s ← getV
  let i := (s.part p).base + k
  meet i
  let s ← getV
  if (s.slot i).alg ≠ 0 then sweepOne p i else pure ()
  pure (some (k + 3))

/-- First part number of the page scan. -/
def pageParts : Nat := 70000

/-- Step 3: the window and the recipes. -/
def destroyWindow (p : Nat) : V (Option Nat) := do
  modPart p fun x => { x with base := 0, size := 0, persist := 0, recordQuota := 0, freeNum := 0, freeIdx := 0 }
  modV fun s =>
    let s := s.setWindows p []
    let s : State := { s with gate := { s.gate with oldWin := mdel s.gate.oldWin p } }
    s.dropRecipes fun r => r.part == p
  pure (some pageParts)

/-- Step 4: page n. -/
def destroyPage (p n : Nat) : V (Option Nat) := do
  needObj 0 n
  let s ← getV
  let x := s.page n
  if (x.part = p ∧ x.kind ≤ 1) ∨ inRun (s.part p).ixBase (s.part p).ixLog2 n then returnPage n else pure ()
  pure (some (pageParts + (n - firstPage) + 1))

/-- Steps 4 and 5: registry records, and the partition record except ANCHOR_GEN. -/
def destroyEnd (p : Nat) : V (Option Nat) := do
  needObj 0 (1 + p)
  dirtyRoom (1 + p)
  modV fun s =>
    let s := s.setPart p {}
    let s := s.setPage (1 + p) { s.page (1 + p) with recs := [], dirty := true }
    s.savePart p
  pure none

def destroyPart (p k : Nat) : V (Option Nat) := do
  if k ≤ 1 then destroyStart p
  else if k < pageParts then
    let s ← getV
    if k - 2 < (s.part p).persist then destroySlot p (k - 2) else destroyWindow p
  else
    needObj 0 0
    let s ← getV
    let n := firstPage + (k - pageParts)
    if n < s.vaultField 4 4 then destroyPage p n else destroyEnd p

/-- Images of partition p that descriptors are bound to. -/
def State.boundOf (s : State) (p : Nat) : List Nat :=
  s.disp.descs.filterMap fun r => if leAt r.image 0x10 1 = p then r.recipe else none

def runDestroy (o : Opnd) : V Answer := do
  let p := bodyPart o
  takePart o
  let s ← getV
  if phaseOf? s o.d ≤ 1 then exists! p else pure ()
  needObj 0 0
  let s ← getV
  parts o.d (destroyPart p) (s.vaultField 4 4 + (s.part p).persist + 4) (phaseOf? s o.d)
  let s ← getV
  let ids := s.boundOf p
  if ids.isEmpty then pure { durable := true }
  else
    markDurable o.d
    stopV (.hold (.mgmtWait (.recipes ids) {}))

def opPartitionDestroy : MgmtOp := { op := 2, ok := vfBodyOk, shared := some 1, check := checkPart, run := runDestroy }

/-! ### Quotas (03 R65; 06 R161) -/

def quotaBase (b : Bytes) : Nat := leAt b 2 2
def quotaSize (b : Bytes) : Nat := leAt b 4 4
def quotaPersist (b : Bytes) : Nat := leAt b 8 4
def quotaRecords (b : Bytes) : Nat := leAt b 0x10 8

def quotaBodyOk (b : Bytes) : Bool :=
  b.length == 24 && decide (leAt b 0 1 ≤ 31) && byteAt b 1 == 0 && quotaBase b % 64 == 0 && decide (quotaSize b ≤ 65536)
    && decide (quotaPersist b ≤ quotaSize b) && leAt b 0xC 4 == 0

/-- The least k with n ≤ 2^k. -/
def log2Up (n : Nat) : Nat := if n ≤ 1 then 0 else (n - 1).log2 + 1

/-- IX_LOG2: the least k from 6 on with 2^k ≥ RECORD_QUOTA / 4. -/
def ixLog (quota : Nat) : Nat := max 6 (log2Up ((quota + 3) / 4))

/-- Two ranges share an index. -/
def meets (a n b m : Nat) : Bool := decide (0 < n ∧ 0 < m ∧ a < b + m ∧ b < a + n)

/-- Slots of the partition that hold a key and would leave the region they lie in. -/
def State.slotLost (s : State) (p base size persist : Nat) : Bool :=
  let x := s.part p
  (List.range x.size).any fun k =>
    let i := x.base + k
    (s.slot i).alg != 0 &&
      (if k < x.persist then !decide (base ≤ i ∧ i < base + persist) else !decide (base + persist ≤ i ∧ i < base + size))

/-- The persistent slots of partition p are restored (03 R85). -/
def restored (p : Nat) : V Unit := do
  partsKnown
  let s ← getV
  let x := s.part p
  (s.kr.toRestore.filter fun i => decide (x.base ≤ i ∧ i < x.base + x.persist)).forM meet

/-- The new index run, where the quota needs one: first page and IX_LOG2. -/
def State.newRun (s : State) (p quota : Nat) : Option (Nat × Nat) :=
  let x := s.part p
  if x.ixBase = 0 ∨ ixLog quota ≠ x.ixLog2 then some (s.vaultField 4 4, ixLog quota) else none

/-- The refusals of R65 and R161. -/
def checkQuota (o : Opnd) : V Bytes := do
  let b := o.inp
  let p := bodyPart o
  exists! p
  partsKnown
  restored p
  needObj 0 0
  let s ← getV
  need (quotaSize b = 0 || decide (quotaBase b + quotaSize b ≤ 65536 ∧ 8 ≤ quotaSize b - quotaPersist b)) stBad
  need ((List.range 32).all fun q => q == p || !meets (quotaBase b) (quotaSize b) (s.part q).base (s.part q).size) stBad
  need (!s.slotLost p (quotaBase b) (quotaSize b) (quotaPersist b)) stBad
  need ((s.newRun p (quotaRecords b)).all fun r => decide (r.1 + runPages r.2 ≤ 2 ^ 29)) stAccess
  pure []

/-- Slots that become persistent take up what their slot records hold (06 R157). -/
def State.newPersist (s : State) (base persist : Nat) : List Nat :=
  let have' := s.persistents
  ((List.range persist).map (base + ·)).filter fun i => !have'.contains i && (s.slot i).alg == 0

/-- The window; and the pages of the new run. -/
def quotaStart (o : Opnd) : V (Option Nat) := do
  let b := o.inp
  let p := bodyPart o
  let _ ← checkQuota o
  dirtyRoom 0
  let s ← getV
  let fresh := s.newPersist (quotaBase b) (quotaPersist b)
  let run := s.newRun p (quotaRecords b)
  modPart p fun x => { x with base := quotaBase b, size := quotaSize b, persist := quotaPersist b,
                              ixMove := run.map fun r => (o.d, r.1, r.2) }
  modV fun s => { s with kr := { s.kr with toRestore := s.kr.toRestore ++ fresh } }
  match run with
  | none => pure ()
  | some r =>
    modV fun s => (s.setVaultField 4 4 (r.1 + runPages r.2)).setVaultField 0xC 4 (s.vaultField 0xC 4 + runPages r.2)
  pure (some 2)

/-- The entries and the overflow places of the bucket chain from a place on. -/
def chainOf : Nat → Nat → V (List (Nat × Nat) × List Nat)
  | 0, _ => pure ([], [])
  | f + 1, pl => do
    let b ← getRec (pl / 32) (pl % 32)
    let es := bucketEntries b
    if leAt b 8 8 = 0 then pure (es, [])
    else do
      let (more, over') ← chainOf f (leAt b 8 8)
      pure (es ++ more, leAt b 8 8 :: over')

/-- Bucket k of the old run is moved into the new one. -/
def moveBucket (p base k nbase nlog : Nat) : V Unit := do
  let s ← getV
  let (es, _) ← chainOf ((s.part p).recordsUsed + 1) (placeOf (base + k / 31) (k % 31))
  es.forM fun e =>
    let j := e.1 % 2 ^ nlog
    bucketInsert p e.1 e.2 true ((s.part p).recordsUsed + es.length + 2) (placeOf (nbase + j / 31) (j % 31))

/-- The overflow buckets of the old run's bucket k are freed. -/
def dropBucket (p base k : Nat) : V Unit := do
  let s ← getV
  let (_, over') ← chainOf ((s.part p).recordsUsed + 1) (placeOf (base + k / 31) (k % 31))
  over'.forM fun pl => freeRec p 1 (pl / 32) (pl % 32)

/-- The index changes over to the new run, and the quota stands. The old run is told to the parts that follow. -/
def quotaSwitch (o : Opnd) : V Unit := do
  let p := bodyPart o
  modPart p fun x =>
    match x.ixMove with
    | some (_, nb, nl) => { x with recordQuota := quotaRecords o.inp, ixBase := nb, ixLog2 := nl, ixMove := some (o.d, x.ixBase, x.ixLog2) }
    | none => { x with recordQuota := quotaRecords o.inp }

/-- Part numbers: buckets from 2, the switch and the old overflow buckets from 2^32, the old pages from 2^33. -/
def quotaPart (o : Opnd) (k : Nat) : V (Option Nat) := do
  let p := bodyPart o
  if k ≤ 1 then quotaStart o
  else
    let s ← getV
    let x := s.part p
    match x.ixMove with
    | none =>
      quotaSwitch o
      pure none
    | some (_, b, l) =>
      if k < 2 ^ 32 then
        if x.ixBase ≠ 0 ∧ k - 2 < 2 ^ x.ixLog2 then
          moveBucket p x.ixBase (k - 2) b l
          pure (some (k + 1))
        else
          quotaSwitch o
          pure (some (2 ^ 32))
      else if k < 2 ^ 33 then
        if b ≠ 0 ∧ k - 2 ^ 32 < 2 ^ l then
          dropBucket p b (k - 2 ^ 32)
          pure (some (k + 1))
        else pure (some (2 ^ 33))
      else if b ≠ 0 ∧ k - 2 ^ 33 < runPages l then
        returnPage (b + (k - 2 ^ 33))
        pure (some (k + 1))
      else
        modV fun s => s.setPart p { s.part p with ixMove := none }
        pure none

def runQuotaSet (o : Opnd) : V Answer := do
  let s ← getV
  takePart o
  let x := s.part (bodyPart o)
  let l := max (x.ixMove.elim 0 fun m => m.2.2) x.ixLog2
  parts o.d (quotaPart o) (2 ^ (l + 2) + 8) (phaseOf? s o.d)
  pure { durable := true }

def opQuotaSet : MgmtOp := { op := 3, ok := quotaBodyOk, shared := some 1, check := checkQuota, run := runQuotaSet }

/-! ### The quota report (04 R435) -/

def State.quotaReport (s : State) (p : Nat) : Bytes :=
  let x := s.part p
  let slots := (List.range x.persist).map fun k => s.slot (x.base + k)
  fit 64 ([BitVec.ofNat 8 p, 0, 0, 0] ++ toLE 2 x.base ++ zeros 2 ++ toLE 4 x.size ++ toLE 4 x.persist
    ++ toLE 4 (slots.filter fun q => q.alg != 0).length ++ toLE 4 (mget s.kr.corrupt p 0).toNat
    ++ toLE 4 (slots.filter Slot.worn).length ++ zeros 4 ++ toLE 8 x.recordQuota ++ toLE 8 x.recordsUsed)

def opQuotaReport : MgmtOp :=
  { op := 4, ok := partBodyOk, bare := true, out := fun _ => 64
    run := fun o => do
      exists! (bodyPart o)
      restored (bodyPart o)
      let s ← getV
      pure { out := s.quotaReport (bodyPart o) } }

/-! ### Host windows (13 R326) -/

def windowRaw (b : Bytes) (k : Nat) : Bytes := slice b (8 + 16 * k) 16

/-- Reserved bits zero, and a valid window well formed (R317). -/
def windowOk (w : Bytes) : Bool :=
  let e := leAt w 8 1
  bits (leAt w 9 1) 2 5 == 0 && allZero (w.drop 10)
    && (!bit (leAt w 9 1) 7 || (decide (12 ≤ e ∧ e ≤ 40) && leAt w 0 8 % 2 ^ e == 0))

/-- Two valid windows share an address. -/
def windowsMeet (a b : Bytes) : Bool :=
  bit (leAt a 9 1) 7 && bit (leAt b 9 1) 7 && meets (leAt a 0 8) (2 ^ leAt a 8 1) (leAt b 0 8) (2 ^ leAt b 8 1)

def windowCount (b : Bytes) : Nat := (b.length - 8) / 16

def windowBodyOk (b : Bytes) : Bool :=
  let n := windowCount b
  b.length == 8 + 16 * n && decide (n ≤ 8) && decide (leAt b 0 1 ≤ 31) && allZero (slice b 1 7)
    && (List.range n).all (fun k => windowOk (windowRaw b k))
    && (List.range n).all fun k => (List.range k).all fun j => !windowsMeet (windowRaw b j) (windowRaw b k)

/-- A partition's registry records of a content: records from i on, each with 96 of the bytes (06 Table 6.7). -/
def putRegistry (p i content : Nat) (b : Bytes) (n : Nat) : V Unit := do
  needObj 0 (1 + p)
  dirtyRoom (1 + p)
  modV fun s => (List.range n).foldl (fun (s : State) k =>
    s.putRec (1 + p) (i + k) ([0x03, BitVec.ofNat 8 p, BitVec.ofNat 8 content] ++ zeros 29 ++ fit 96 (slice b (96 * k) 96))) s

/-- Partition p's windows change: descriptors read so far keep the set in force. -/
def State.changeWindows (s : State) (d p : Nat) (w : Bytes) : State :=
  let s : State := { s with
    gate := { s.gate with oldWin := mset s.gate.oldWin p (s.windows p false) }
    disp := { s.disp with descs := s.disp.descs.map fun r =>
      if r.fn = p ∧ r.ring < meshRing ∧ r.id ≠ d then { r with oldWin := true } else r } }
  s.setWindows p (windowsOf w)

def runWindowSet (o : Opnd) : V Answer := do
  let p := bodyPart o
  exists! p
  let s ← getV
  if mhas s.gate.oldWin p then stopV (.wait (.waitSweep (waitWindows p))) else pure ()
  let w := fit 128 (o.inp.drop 8)
  putRegistry p 4 2 w 2
  modV fun s => s.changeWindows o.d p w
  stopV (.hold (.mgmtWait (.windows p) {}))

def opHostWindowSet : MgmtOp := { op := 5, ok := windowBodyOk, run := runWindowSet }

/-- The command that waited for window set p to retire still waits for its registry records. -/
def State.windowsHeld (s : State) (p : Nat) : State :=
  s.disp.descs.foldl (fun (s : State) r =>
    match r.stage with
    | .mgmtWait (.windows q) x =>
      if q ≠ p then s
      else if s.vault.pgFault then s.finish r.id stPageTimeout
      else s.modDesc r.id fun y => { y with stage := .waitDurable x }
    | _ => s) s

/-- HOST_WINDOW_RETIRE (R326): the last descriptor checked against the old set has completed. -/
def execHostWindowRetire (p : Fn) (s : State) : Out :=
  answer s <|
    if !mhas s.gate.oldWin p.val || s.disp.descs.any (fun r => r.oldWin && r.fn == p.val) then s
    else ({ s with gate := { s.gate with oldWin := mdel s.gate.oldWin p.val } }.windowsHeld p.val).after

/-! ### Resets of a partition -/

def opPartitionReset : MgmtOp :=
  { op := 6, ok := vfBodyOk
    run := fun o => do
      exists! (bodyPart o)
      modV fun s => s.ownerReset (bodyPart o)
      pure {} }

/-! ### Keys (04 Table 4.20) -/

def genAlg (b : Bytes) : Nat := leAt b 1 1
def genDest (b : Bytes) : Nat := leAt b 2 2
def genDecl (b : Bytes) (cls : Nat) : KeyDecl :=
  { alg := genAlg b, cls := cls, usage := leAt b 4 2, vStart := leAt b 8 3, vEnd := leAt b 0xB 3 }

def masterBodyOk (b : Bytes) : Bool :=
  b.length == 16 && decide (leAt b 0 1 ≤ 31) && decide (1 ≤ genAlg b ∧ genAlg b ≤ 3) && leAt b 6 2 == 0 && leAt b 0xE 2 == 0

/-- The destination is there to write: its handle. -/
def checkGen (o : Opnd) : V Bytes := do
  let p := bodyPart o
  exists! p
  noSweep p
  let i ← destCheck p (genDest o.inp)
  let s ← getV
  pure (handleInl s p i)

/-- A clear write by the Warden (03 R75). -/
def clearWrite (p i : Nat) (d : KeyDecl) (key : Bytes) (w : Nat) : V Unit := do
  let s ← getV
  writePersist i (s.clearLinked d p key (s.slot i).gen (BitVec.ofNat 64 w))

/-- The key of the transaction being applied; without it the member's replay fails, and it leaves the mesh. -/
def transferred (s : State) : V Bytes := do
  need (mhas s.mesh.unitKeys (s.mesh.rseq + 1)) stMesh
  pure (mget s.mesh.unitKeys (s.mesh.rseq + 1) [])

def runMaster (o : Opnd) : V Answer := do
  let inl ← checkGen o
  let p := bodyPart o
  let s ← getV
  needObj 0 (slotPage ((s.part p).base + genDest o.inp))
  -- a transferred key comes over the key bus from the mesh key unit (14 R341)
  let k ← if (s.desc o.d).any fun r => r.ring == txnRing then transferred s else random o (algLen (genAlg o.inp))
  clearWrite p ((s.part p).base + genDest o.inp) (genDecl o.inp 0) k 0
  pure { inl := inl, durable := true }

def opMasterGenerate : MgmtOp := { op := 7, ok := masterBodyOk, shared := some 3, check := checkGen, run := runMaster }

def pairSize (b : Bytes) : Nat := leAt b 6 1

def pairBodyOk (b : Bytes) : Bool :=
  b.length == 16 && decide (leAt b 0 1 ≤ 31) && decide (8 ≤ genAlg b ∧ genAlg b ≤ 12)
    && (if genAlg b = 12 then decide (8 ≤ pairSize b ∧ pairSize b ≤ 16) else pairSize b == 0) && byteAt b 7 == 0 && leAt b 0xE 2 == 0

/-- The public key: ML-DSA-65, ML-KEM-768, P-256, P-384, or an RSA modulus. -/
def pairOut (b : Bytes) : Nat :=
  match genAlg b with
  | 8 => 1952
  | 9 => 1184
  | 10 => 65
  | 11 => 97
  | _ => 32 * pairSize b

/-- Private key bytes and public key from random bytes. -/
def makePair (alg size : Nat) (rnd : Bytes) : Bytes × Bytes :=
  match alg with
  | 8 => (rnd, Config.take 1952 (Config.mldsaPublic rnd))
  | 9 => (rnd, Config.take 1184 (Config.mlkemPublic rnd))
  | 10 =>
    let k := Config.take 32 (Config.ecPrivate false rnd)
    (k, Config.take 65 (Config.ecPublic false k))
  | 11 =>
    let k := Config.take 48 (Config.ecPrivate true rnd)
    (k, Config.take 97 (Config.ecPublic true k))
  | _ =>
    let k := Config.take (4 + 112 * size) (Config.rsaPrivate size rnd)
    (k, slice k 4 (32 * size))

/-- Random bytes a key pair is made from (09 R240, Table 9.6). -/
def pairRandom (alg : Nat) : Nat := if alg = 10 then 40 else if alg = 11 then 56 else 32

def runPair (o : Opnd) : V Answer := do
  let b := o.inp
  let p := bodyPart o
  let inl ← checkGen o
  let s ← getV
  let i := (s.part p).base + genDest b
  needObj 0 (slotPage i)
  let rnd ← random o (pairRandom (genAlg b))
  engine o
  need (genAlg b != 12 || Config.rsaFound (pairSize b) rnd) stEngine
  let (priv, pub) := makePair (genAlg b) (pairSize b) rnd
  if genAlg b ≤ 10 then clearWrite p i (genDecl b 2) priv 0
  else
    let rk ← random o 32
    let num ← newSealed p (genAlg b) rk priv
    clearWrite p i (genDecl b 2) rk num
  pure { out := pub, inl := inl, durable := true }

def opKeypairGenerate : MgmtOp := { op := 8, ok := pairBodyOk, out := pairOut, run := runPair }

def slotBodyOk (b : Bytes) : Bool := b.length == 8 && decide (leAt b 0 1 ≤ 31) && byteAt b 1 == 0 && leAt b 4 4 == 0

def checkSlot (o : Opnd) : V Bytes := do
  exists! (bodyPart o)
  partsKnown
  let s ← getV
  need (leAt o.inp 2 2 < (s.part (bodyPart o)).persist) stAccess
  pure []

/-- SLOT_CLEAR invalidates even a corrupt slot. -/
def runSlotClear (o : Opnd) : V Answer := do
  let p := bodyPart o
  let _ ← checkSlot o
  let s ← getV
  meet ((s.part p).base + leAt o.inp 2 2)
  invalidateV o p ((s.part p).base + leAt o.inp 2 2)
  stopV (.hold (.mgmtWait (.sweep p) {}))

def opSlotClear : MgmtOp := { op := 9, ok := slotBodyOk, shared := some 1, check := checkSlot, run := runSlotClear }

/-- ANCHOR_ADVANCE: every chain of the partition breaks at once, at the fetch's stage of DEPTH 1 (03 R76).
No slot is invalidated, so no sweep of R81 follows; the slots keep what they hold. -/
def runAnchor (o : Opnd) : V Answer := do
  let p := bodyPart o
  exists! p
  partsKnown
  needObj 0 (1 + p)
  dirtyRoom (1 + p)
  modV fun s =>
    let s : State := { s with kr := { s.kr with anchors := mset s.kr.anchors p (s.anchor p + 1) } }
    s.savePart p
  pure { durable := true }

def opAnchorAdvance : MgmtOp := { op := 10, ok := partBodyOk, shared := some 1, check := checkPart, run := runAnchor }

/-! ### Custodians and trust anchors -/

def custodianBodyOk (b : Bytes) : Bool :=
  let n := leAt b 1 1
  decide (leAt b 0 1 ≤ 31) && decide (n ≤ 8) && b.length == 8 + 32 * n && allZero (slice b 2 6)

def runCustodian (o : Opnd) : V Answer := do
  let p := bodyPart o
  exists! p
  let b := o.inp.drop 8
  putRegistry p 1 1 b 3
  modV fun s => s.setPart p { s.part p with custodians := registryDigests (s.page (1 + p)) }
  pure { durable := true }

def opCustodianSet : MgmtOp := { op := 11, ok := custodianBodyOk, shared := some 1, check := checkPart, run := runCustodian }

def anchorBodyOk (b : Bytes) : Bool := b.length == 48 && decide (leAt b 0 1 ≤ 31) && allZero (slice b 1 7)

def runTrustAnchor (o : Opnd) : V Answer := do
  let p := bodyPart o
  exists! p
  let num := leAt o.inp 8 8
  let dig := slice o.inp 0x10 32
  if num = 0 then
    let n ← newNumbered p 0x0B (zeros 24 ++ dig)
    pure { inl := toLE 8 n, durable := true }
  else
    let (pg, i, b) ← namedRec p num 0x0B
    putRecV pg i (putAt b 0x20 dig)
    pure { inl := toLE 8 num, durable := true }

def opTrustAnchorSet : MgmtOp := { op := 12, ok := anchorBodyOk, run := runTrustAnchor }

/-! ### Recipes (05 R138 to R141) -/

def recipeContext : Bytes := ascii "Duelacel recipe"

def imgId (b : Bytes) : Nat := leAt b 8 4
def imgVersion (b : Bytes) : Nat := leAt b 0xC 4
def imgPart (b : Bytes) : Nat := leAt b 0x10 1
def imgSigner (b : Bytes) : Nat := leAt b 0x11 1
def imgSignerDigest (b : Bytes) : Bytes := slice b 0x40 32

/-- The key digest that has to stand behind the image's signer. -/
def State.signerDigest (s : State) (b : Bytes) : Option Bytes :=
  if imgSigner b = 0 then s.life.ownerKey.map (shake 32) else (s.part (imgPart b)).recipeKey

/-- R138. -/
def State.signerOk (s : State) (b : Bytes) : Bool :=
  shake 32 (imgKey b) == imgSignerDigest b && s.signerDigest b == some (imgSignerDigest b)
    && Config.mldsaVerify (imgKey b) recipeContext (imgSigned b) (imgSig b)

/-- Steps 2 to 6 of R139. -/
def checkRecipe (o : Opnd) : V Bytes := do
  let b := o.inp
  need (imgHeaderOk b) stBad
  if imgPart b ≤ 31 then exists! (imgPart b) else pure ()
  need (imgStepsOk b) stBad
  engineOf o [4] []
  let s ← getV
  need (s.signerOk b) stAuth
  need (!mhas s.life.rversions (imgId b) || decide (mget s.life.rversions (imgId b) 0 < imgVersion b)) stAuth
  need (s.life.recipes.length < 128 || s.life.recipes.any fun r => r.id == imgId b) stBad
  pure (toLE 4 (imgId b) ++ zeros 4)

def State.storeRecipe (s : State) (b : Bytes) : State :=
  let r : Recipe := { id := imgId b, rversion := imgVersion b, part := imgPart b, signer := imgSigner b, digest := shake 32 b,
                      image := imgStored b }
  let s := s.dropRecipes fun q => q.id == imgId b
  { s with life := { s.life with recipes := s.life.recipes ++ [r], rversions := mset s.life.rversions (imgId b) (imgVersion b) } }

def opRecipeLoad : MgmtOp :=
  { op := 13, ok := fun b => b.length == leAt b 0x24 4, shared := some 1, check := checkRecipe
    run := fun o => do
      let inl ← checkRecipe o
      modV fun s => s.storeRecipe o.inp
      pure { inl := inl } }

/-- Recipes go from the store at once; the command completes when no descriptor is bound to an image of them (R141). -/
def dropV (bad : Recipe → Bool) : V Answer := do
  let s ← getV
  let ids := (s.life.recipes.filter bad).map fun r => imageKey r.image
  modV fun s => s.dropRecipes bad
  if s.recipesFree ids then pure {} else stopV (.hold (.mgmtWait (.recipes ids) {}))

def revokeBodyOk (b : Bytes) : Bool := b.length == 8 && leAt b 0 4 != 0 && leAt b 4 4 == 0

/-- RECIPE_REVOKE; an identifier that is not in the store removes nothing (notes/assumptions/29.md). -/
def opRecipeRevoke : MgmtOp :=
  { op := 14, ok := revokeBodyOk, shared := some 1, run := fun o => dropV fun r => r.id == leAt o.inp 0 4 }

def recipeKeyBodyOk (b : Bytes) : Bool := b.length == 40 && decide (leAt b 0 1 ≤ 31) && allZero (slice b 1 7)

def runRecipeKey (o : Opnd) : V Answer := do
  let p := bodyPart o
  exists! p
  let new := slice o.inp 8 32
  let new := if allZero new then none else some new
  let s ← getV
  let old := (s.part p).recipeKey
  modV fun s => s.setPart p { s.part p with recipeKey := new }
  if old = new then pure {}
  else dropV fun r => r.part == p && r.signer == 1 && old == some (imgSignerDigest r.image)

def opRecipeKeyRegister : MgmtOp := { op := 15, ok := recipeKeyBodyOk, shared := some 1, check := checkPart, run := runRecipeKey }

/-! ### Commands -/

/-- PARTITION_CREATE (R436). -/
def execPartitionCreate (d : Nat) (s : State) (chk : Bool := true) : Out := answer s (s.runMgmt opPartitionCreate d chk).after

/-- PARTITION_DESTROY (R436). -/
def execPartitionDestroy (d : Nat) (s : State) (chk : Bool := true) : Out := answer s (s.runMgmt opPartitionDestroy d chk).after

/-- QUOTA_SET (R65). -/
def execQuotaSet (d : Nat) (s : State) (chk : Bool := true) : Out := answer s (s.runMgmt opQuotaSet d chk).after

/-- QUOTA_REPORT (R435). -/
def execQuotaReport (d : Nat) (s : State) (chk : Bool := true) : Out := answer s (s.runMgmt opQuotaReport d chk).after

/-- HOST_WINDOW_SET (R326). -/
def execHostWindowSet (d : Nat) (s : State) (chk : Bool := true) : Out := answer s (s.runMgmt opHostWindowSet d chk).after

/-- PARTITION_RESET (R55). -/
def execPartitionReset (d : Nat) (s : State) (chk : Bool := true) : Out := answer s (s.runMgmt opPartitionReset d chk).after

/-- MASTER_GENERATE (Table 4.20). -/
def execMasterGenerate (d : Nat) (s : State) (chk : Bool := true) : Out := answer s (s.runMgmt opMasterGenerate d chk).after

/-- KEYPAIR_GENERATE (Table 4.20). -/
def execKeypairGenerate (d : Nat) (chk : Bool) (s : State) : Out := answer s (s.runMgmt opKeypairGenerate d chk).after

/-- SLOT_CLEAR (R80). -/
def execSlotClear (d : Nat) (s : State) (chk : Bool := true) : Out := answer s (s.runMgmt opSlotClear d chk).after

/-- ANCHOR_ADVANCE (R76). -/
def execAnchorAdvance (d : Nat) (s : State) (chk : Bool := true) : Out := answer s (s.runMgmt opAnchorAdvance d chk).after

/-- CUSTODIAN_SET (R113). -/
def execCustodianSet (d : Nat) (s : State) (chk : Bool := true) : Out := answer s (s.runMgmt opCustodianSet d chk).after

/-- TRUST_ANCHOR_SET (R115). -/
def execTrustAnchorSet (d : Nat) (s : State) (chk : Bool := true) : Out := answer s (s.runMgmt opTrustAnchorSet d chk).after

/-- RECIPE_LOAD (R139). -/
def execRecipeLoad (d : Nat) (s : State) (chk : Bool := true) : Out := answer s (s.runMgmt opRecipeLoad d chk).after

/-- RECIPE_REVOKE (R141). -/
def execRecipeRevoke (d : Nat) (s : State) (chk : Bool := true) : Out := answer s (s.runMgmt opRecipeRevoke d chk).after

/-- RECIPE_KEY_REGISTER (R141). -/
def execRecipeKeyRegister (d : Nat) (s : State) (chk : Bool := true) : Out := answer s (s.runMgmt opRecipeKeyRegister d chk).after

end Sys2Proof.Machine
end

