-- ==== Sys2Proof/Machine/Clusters.lean ====
section
/-! DEFINITION. Power domains as commands (15 R369; 12 R286), cluster operations (R372 to R378), firmware (16 R395 to R397), and
the remaining management commands: filters, time, quote, reset and raw samples. -/

namespace Sys2Proof.Machine

/-! ### Turns (15 R378) -/

def bodyCluster (o : Opnd) : Nat := leAt o.inp 0 1 % 8

def clusterBodyOk (b : Bytes) : Bool := b.length == 8 && decide (leAt b 0 1 ≤ 7) && allZero (b.drop 1)

/-- The operation runs when its turn has come; before that its command waits behind those that came earlier. -/
def turn (o : Opnd) (c : Nat) : V Unit := do
  let s ← getV
  let op : ClusterOp := .verb o.d c
  if s.pwr.current = some op then pure ()
  else if s.pwr.current.isNone && s.pwr.turn.isEmpty then modV fun s => s.setPwr { s.pwr with current := some op, cycled := false }
  else
    modV fun s => s.setPwr { s.pwr with turn := s.pwr.turn ++ [op] }
    stopV (.hold (.mgmtWait .clusterTurn {}))

/-- What the operation in progress waits for. -/
def waitCluster (c : Nat) : V Answer := stopV (.hold (.mgmtWait (.cluster c) {}))

/-! ### Quiescing (R374) -/

def runQuiesce (o : Opnd) : V Answer := do
  let c := bodyCluster o
  turn o c
  let s ← getV
  if s.cst c ≠ .serving then pure {}
  else
    need (s.serving != [c]) stBad
    modV fun s => s.quiesceStart c
    waitCluster c

def opClusterQuiesce : MgmtOp := { op := 16, ok := clusterBodyOk, run := runQuiesce }

/-- Cluster c is quiesced: its cores' SRAM is zeroed, and the recipe caches in it are empty (R374 step 4; 05 R144). -/
def State.quiesced (s : State) (c : Nat) : State :=
  let s := s.setEng { s.eng with sram := dropKeys s.eng.sram fun k => k / 2 ^ 21 == c }
  let s : State := { s with disp := { s.disp with rcache := dropKeys s.disp.rcache fun k => k / 8 == c } }
  ((s.setCst c .quiesced).pausOff (c / 4)).opDone c stDone

/-- CLUSTER_DRAINED (R374 steps 3 and 4). -/
def execClusterDrained (c : Cl) (s : State) : Out :=
  answer s (if s.cst c.val = .draining && s.drained c.val then (s.quiesced c.val).opGone.after else s)

/-! ### Power (R372, R375) -/

def State.offCluster (s : State) (c : Nat) : State := ((s.powerOff (3 + c)).powerOff (11 + c)).setCst c .off

/-- CLE ramps first; CLC follows at its power-good. -/
def State.onCluster (s : State) (c : Nat) (point : Bool) : State := (s.rampOn (11 + c) point).setCst c .powering

/-- Both domains of a quiesced cluster go to the other operating point, with its VGLITCH entries and its VWINDOW entry
disarmed (R372). -/
def State.changePoint (s : State) (c : Nat) (point : Bool) : State :=
  let s := s.arm [3 + c, 11 + c, 38 + c] false
  [3 + c, 11 + c].foldl (fun (s : State) d => s.setDomain d { s.domain d with op := point, ramping := true, pgood := false }) s

def powerBodyOk (b : Bytes) : Bool :=
  b.length == 8 && decide (leAt b 0 1 ≤ 7) && decide (leAt b 1 1 ≤ 1) && decide (leAt b 2 1 ≤ 1) && allZero (b.drop 3)

def runPower (o : Opnd) : V Answer := do
  let c := bodyCluster o
  let on := leAt o.inp 1 1 == 1
  let point := leAt o.inp 2 1 == 1
  turn o c
  let s ← getV
  need (s.cst c != .serving && s.cst c != .draining) stBad
  need (on || !s.serving.isEmpty) stBad
  let same := (s.domain (3 + c)).op == point
  need (!on || same || !(s.cst c == .powering || s.cst c == .testing)) stBad
  modV fun s => s.setPwr { s.pwr with stored := mset s.pwr.stored c (on, point) }
  if !on then
    modV fun s => s.offCluster c
    pure {}
  else
    match s.cst c with
    | .off =>
      modV fun s => s.onCluster c point
      waitCluster c
    | .failed =>
      modV fun s => (s.offCluster c).onCluster c point
      waitCluster c
    | .quiesced =>
      if same then pure {}
      else
        modV fun s => s.changePoint c point
        waitCluster c
    | _ => pure {}

def opClusterPower : MgmtOp := { op := 17, ok := powerBodyOk, run := runPower }

/-- A quiesced cluster whose point has changed: phase 1 of its sentinels starts and the command completes. -/
def State.pointChanged (s : State) (c : Nat) : State :=
  if s.cst c = .quiesced && (s.domain (3 + c)).pgood && (s.domain (11 + c)).pgood then
    match s.pwr.current with
    | some (.verb d k) =>
      if k = c && s.stageOf d == some (.mgmtWait (.cluster c) {}) then (s.phaseOne c).opDone c stDone else s
    | _ => s
  else s

/-- POWER_GOOD (R369): supply within ±3 % for 2 µs. -/
def State.powerIsGood (s : State) (d : Nat) : State :=
  let s := s.domainGood d
  if 11 ≤ d ∧ d ≤ 18 then
    let c := d - 11
    let s := if s.cst c = .powering then s.rampOn (3 + c) (s.domain d).op else s
    s.seedsCame.pointChanged c
  else if 3 ≤ d ∧ d ≤ 10 then s.clustersUp.pointChanged (d - 3)
  else if 19 ≤ d ∧ d ≤ 22 then s.servePau ((d - 19) / 2) (mget s.eng.pauWait ((d - 19) / 2) []).length
  else s

def execPowerGood (dom : Fin 30) (s : State) : Out :=
  answer s (if (s.domain dom.val).ramping then (s.powerIsGood dom.val).opGone.after else s)

/-- The cluster of a CLC or CLE domain. -/
def domainCluster (d : Nat) : Option Nat :=
  if 3 ≤ d ∧ d ≤ 10 then some (d - 3) else if 11 ≤ d ∧ d ≤ 18 then some (d - 11) else none

/-- Alatas switches a domain by its ON bit (Table 15.10): domains 3-22 and 26-29, and a cluster's only while it does no work. -/
def State.switchable (s : State) (d : Nat) : Bool :=
  decide (3 ≤ d ∧ d ≤ 22 ∨ 26 ≤ d) &&
    (domainCluster d).all fun c => s.cst c != .serving && s.cst c != .draining && s.cst c != .testing

/-- DOMAIN_POWER (R369; 12 R286): monitors are disarmed and outputs isolated before a domain goes off. -/
def execDomainPower (dom : Fin 30) (on : Bool) (s : State) : Out :=
  answer s <|
    if !s.switchable dom.val then s
    else if on then s.rampOn dom.val (s.domain dom.val).op
    else
      let t := s.powerOff dom.val
      match domainCluster dom.val with
      | some c => t.setCst c .off
      | none => t

/-! ### Rejoin and repair (R376, R377) -/

/-- The monitor entries that a rejoin tests (R376 step 5). -/
def rejoinEntries (c : Nat) : List Nat :=
  [3 + c, 11 + c, 38 + c, 51 + c, 66 + c, 75 + c, 107 + c, 121 + c, 129 + c]
    ++ (allEntries.filter fun k => decide (148 ≤ k ∧ k ≤ 158) && (entryDomains k).contains (11 + c))

/-- Why the cluster cannot rejoin (R376 steps 1 and 2). -/
def State.rejoinBar (s : State) (c : Nat) : Option Word16 :=
  if ([0, 1, 2, 3].any fun e => ((s.arb c).engine e).oos) || mget s.tam.lowMargin c false then some stEngine
  else if !mget s.eng.seeded c false then some stEntFailed
  else none

/-- Steps 3 to 6: the PAUs of the half come first (R375). -/
def State.rejoined (s : State) (c : Nat) (testsPass : Bool) : State :=
  if !testsPass then s.setCst c .failed
  else
    let s := s.pausOn (c / 4)
    (s.tested (rejoinEntries c)).setServing c true

def runRejoin (testsPass : Bool) (o : Opnd) : V Answer := do
  let c := bodyCluster o
  turn o c
  let s ← getV
  if s.cst c = .serving then pure {}
  else
    need (s.cst c == .quiesced) stBad
    match s.rejoinBar c with
    | some st => failV st
    | none =>
      modV fun s => s.rejoined c testsPass
      need testsPass stEngine
      pure {}

def opClusterRejoin (testsPass : Bool) : MgmtOp := { op := 18, ok := clusterBodyOk, run := runRejoin testsPass }

/-! ### The rolling update (16 R396, R397) -/

/-- The update goes on with its next cluster, or the Warden pause begins. -/
def State.nextUpdate (s : State) : State :=
  match s.life.activating with
  | some (_, _, c :: _) => s.askOp (.update c)
  | some (_, _, []) => { s with life := { s.life with updatePause := true } }.raiseAll evUpdatePause
  | none => s

/-- The step of cluster c has ended. -/
def State.updated (s : State) : State :=
  match s.life.activating with
  | some (d, b, _ :: rest) => ({ s with life := { s.life with activating := some (d, b, rest) } }.opEnds).nextUpdate
  | _ => s

/-- The activation d's step on the cluster in turn: it rejoins as far as it can (R376), and the update goes on in every case. -/
def State.updateRejoin (s : State) (d : Nat) (testsPass : Bool) : State :=
  match s.pwr.current, s.life.activating with
  | some (.update c), some (e, _, _) =>
    if e ≠ d ∨ s.cst c = .draining then s
    else if s.cst c = .quiesced then
      let s := s.loadCores c
      (if (s.rejoinBar c).isNone then s.rejoined c testsPass else s).updated
    else s.updated
  | _, _ => s

/-- CLUSTER_REJOIN (R376), of the owner or of the rolling update. -/
def execClusterRejoin (d : Nat) (testsPass : Bool) (s : State) (chk : Bool := true) : Out :=
  answer s <|
    if s.stageOf d = some (.mgmtWait .updatePause {}) then (s.updateRejoin d testsPass).after
    else (s.runMgmt (opClusterRejoin testsPass) d chk).opGone.after

/-- CLUSTER_QUIESCE (R374). -/
def execClusterQuiesce (d : Nat) (s : State) (chk : Bool := true) : Out := answer s (s.runMgmt opClusterQuiesce d chk).opGone.after

/-- CLUSTER_POWER (R375). -/
def execClusterPower (d : Nat) (s : State) (chk : Bool := true) : Out := answer s (s.runMgmt opClusterPower d chk).seedsCame.opGone.after

/-- A cluster was repaired less than an hour ago. -/
def State.repairedLately (s : State) (c : Nat) : Bool :=
  mhas s.pwr.repaired c && decide (s.time.counter.toNat - (mget s.pwr.repaired c 0).toNat < 3600 * second)

/-- Power off and on at the stored point. -/
def State.cycleCluster (s : State) (c : Nat) : State :=
  let point := (mget s.pwr.stored c (true, false)).2
  let s := s.offCluster c
  let s := s.bootCluster c point
  (s.setPwr { s.pwr with cycled := true, repaired := mset s.pwr.repaired c s.time.counter }).seedsCame

/-- The repair's outcome is reported over SMBus (R377). -/
def State.repairEnds (s : State) (c : Nat) (testsPass : Bool) : State :=
  let s := if (s.rejoinBar c).isNone then s.rejoined c testsPass else s
  (s.setPwr { s.pwr with repairs := s.pwr.repairs ++ [(c, s.cst c == .serving)] }).opEnds

/-- CLUSTER_REPAIR (R377): first the power cycle; once the cluster is quiesced again, its rejoin. -/
def execClusterRepair (c : Cl) (testsPass : Bool) (s : State) : Out :=
  answer s <|
    if s.pwr.current = some (.repair c.val) && s.cst c.val = .quiesced then
      if s.pwr.cycled then (s.repairEnds c.val testsPass).after
      else if s.repairedLately c.val then s.opEnds.after
      else (s.cycleCluster c.val).after
    else s

/-! ### Firmware (16 R395 to R397) -/

def imageBit (o : Opnd) : Bool := leAt o.inp 0 1 == 1

def loadBodyOk (b : Bytes) : Bool :=
  decide (9 ≤ b.length ∧ b.length ≤ 8 + 2 ^ 20) && decide (leAt b 0 1 ≤ 1) && allZero (slice b 1 3)

def runFirmwareLoad (o : Opnd) : V Answer := do
  let b := imageBit o
  let off := leAt o.inp 4 4
  let chunk := o.inp.drop 8
  let s ← getV
  need (b != s.life.active && s.life.activating.isNone && decide (off + chunk.length ≤ 6 * 2 ^ 20)) stBad
  modV fun s =>
    let x := s.image b
    let x := { x with chunks := (off, chunk) :: x.chunks, valid := false }
    { s with life := if b then { s.life with imageB := x } else { s.life with imageA := x } }
  pure {}

def opFirmwareLoad : MgmtOp := { op := 20, ok := loadBodyOk, run := runFirmwareLoad }

def activateBodyOk (b : Bytes) : Bool := b.length == 8 && decide (leAt b 0 1 ≤ 1) && allZero (b.drop 1)

def runActivate (o : Opnd) : V Answer := do
  let b := imageBit o
  let s ← getV
  if s.life.activating.isSome then stopV (.wait (.waitSweep waitActivation))
  else if b = s.life.active then pure {}
  else
    need (s.imageOk b) stAuth
    modV fun s =>
      let s : State := { s with life := { s.life with
        imageA := if b then s.life.imageA else { s.life.imageA with valid := true },
        imageB := if b then { s.life.imageB with valid := true } else s.life.imageB,
        activating := some (o.d, b, s.serving) } }
      s.nextUpdate
    stopV (.hold (.mgmtWait .updatePause {}))

def opFirmwareActivate : MgmtOp := { op := 21, ok := activateBodyOk, run := runActivate }

/-- R397 steps 2 to 4, and R396 step 4. -/
def State.commitImage (s : State) (d : Nat) (b : Bool) : State :=
  let revoke := bit (leNat (s.imageBytes b 7 1)) 1
  let s : State := { s with life := { s.life with
    active := b, running := b, svnFloor := s.imageSvn b, key0Revoked := s.life.key0Revoked || revoke,
    activating := none, updatePause := false } }
  s.complete d stDone [] (toLE 4 s.fwVersion.toNat ++ zeros 4)

/-- FIRMWARE_ACTIVATE (R396): the command, and again in its Warden pause the commit point. -/
def execFirmwareActivate (d : Nat) (s : State) (chk : Bool := true) : Out :=
  answer s <|
    match s.life.activating with
    | some (e, b, []) => if s.life.updatePause && e == d then (s.commitImage d b).after else (s.runMgmt opFirmwareActivate d chk).after
    | _ => (s.runMgmt opFirmwareActivate d chk).after

/-- FIRMWARE_LOAD (R395). -/
def execFirmwareLoad (d : Nat) (s : State) (chk : Bool := true) : Out := answer s (s.runMgmt opFirmwareLoad d chk).after

/-! ### Monitor filters (12 R285, Table 12.1) -/

/-- Sample period, floor and maximum of a kind and instance, in ns. -/
def filterLimits (kind inst : Nat) : Nat × Nat × Nat :=
  match kind with
  | 1 => (1, 1, 20)
  | 2 => (10, 1000, 1000000)
  | 3 => (1000, 2000, 1000000)
  | 5 => (10000, 20000, 100000000)
  | 6 => (1, 100, 10000)
  | 7 => (1000, 2000, 64000)
  | 8 => if inst = 0 then (10000, 100000, 100000000) else if inst = 1 then (10000, 10000, 10000000) else (1, 0, 0)
  | 9 => (1000, 4000, 100000000)
  | 11 => (10, 1000, 1000000)
  | 12 => (10000, 20000, 100000000)
  | _ => (1, 0, 0)

def filterBodyOk (b : Bytes) : Bool := b.length == 8 && decide (1 ≤ leAt b 0 1 ∧ leAt b 0 1 ≤ 12) && leAt b 2 2 == 0

/-- The entries a kind and an instance name; 0xFF names every one. -/
def namedEntries (kind inst : Nat) : List Nat :=
  allEntries.filter fun k => (entryKind k).1 == kind && (inst == 0xFF || (entryKind k).2 == inst)

/-- A length rounded up to a whole number of sample periods. -/
def roundFilter (period len : Nat) : Nat := (len + period - 1) / period * period

def runFilter (o : Opnd) : V Answer := do
  let kind := leAt o.inp 0 1
  let len := leAt o.inp 4 4
  let ks := namedEntries kind (leAt o.inp 1 1)
  need (!ks.isEmpty && ks.all fun k =>
    let l := filterLimits kind (entryKind k).2
    decide (l.2.1 ≤ len ∧ len ≤ l.2.2)) stBad
  modV fun s =>
    let f := ks.foldl (fun m k => mset m k (roundFilter (filterLimits kind (entryKind k).2).1 len)) s.tam.filters
    s.setTam { s.tam with filters := f }
  pure {}

def opMonitorFilterSet : MgmtOp := { op := 19, ok := filterBodyOk, run := runFilter }

/-- MONITOR_FILTER_SET (R285). -/
def execMonitorFilterSet (d : Nat) (s : State) (chk : Bool := true) : Out := answer s (s.runMgmt opMonitorFilterSet d chk).after

/-! ### Time (15 R366) -/

def checkTime (o : Opnd) : V Bytes := do
  let s ← getV
  need (!s.time.lock || leNat o.inp % second == 0) stBad
  pure []

def runTimeSet (o : Opnd) : V Answer := do
  let _ ← checkTime o
  let v : Word64 := BitVec.ofNat 64 (leNat o.inp)
  let s ← getV
  modV fun s => s.setTime { s.time with setVal := v }
  if s.time.lock then
    modV fun s => s.setTime { s.time with setPending := true }
    stopV (.hold (.mgmtWait .edge {}))
  else
    modV fun s => s.loadTime v
    pure {}

def opTimeSet : MgmtOp := { op := 22, ok := fun b => b.length == 8, shared := some 1, check := checkTime, run := runTimeSet }

/-- TIME_SET (R366). -/
def execTimeSet (d : Nat) (s : State) (chk : Bool := true) : Out := answer s (s.runMgmt opTimeSet d chk).after

/-! ### The quote (16 R401, Table 16.9) -/

def State.meshFormed (s : State) : Bool := s.meshed && s.members.all fun m => s.inMap m.meshId

/-- Recipe image digests in ascending identifier. -/
def State.recipeDigests (s : State) : Bytes :=
  ((s.life.recipes.foldl (fun (m : Map Bytes) r => mset m r.id r.digest) []).flatMap (·.2))

def State.quoteHead (s : State) (nonce : Bytes) : Bytes :=
  let a := s.life.active
  toLE 4 0x54515844 ++ toLE 2 1 ++ toLE 2 (lcCode s.life.st).toNat ++ toLE 8 Config.serial.toNat ++ [0xB0, BitVec.ofNat 8 s.ownId]
    ++ toLE 2 s.tam.tally ++ s.imageBytes a 8 4 ++ toLE 2 s.life.svnFloor.toNat ++ toLE 2 (s.imageSvn a).toNat
    ++ [BitVec.ofNat 8 (b2n s.ent.ready + 2 * b2n s.ent.fail + 4 * b2n s.kr.ready + 8 * b2n s.vault.ready + 16 * b2n s.time.lock
          + 32 * b2n s.time.valid + 64 * b2n s.meshFormed), s.pwr.servingBits, s.memberMap, 0]
    ++ toLE 8 s.time.counter.toNat ++ toLE 8 s.life.cmdSeq ++ fit 32 nonce ++ s.imageBytes a 0x40 64
    ++ (s.life.ownerKey.elim (zeros 32) (shake 32)) ++ (s.mesh.roster.elim (zeros 32) fun r => fit 32 r.digest)
    ++ shake 32 s.recipeDigests ++ fit 16 s.vault.vaultId

def quoteContext : Bytes := ascii "Duelacel quote"

def quoteBodyOk (b : Bytes) : Bool := b.length == 40 && decide (leAt b 0x20 1 ≤ 1) && allZero (b.drop 0x21)

def quoteOut (b : Bytes) : Nat := if leAt b 0x20 1 = 1 then 8890 else 3565

/-- A signature of the identity key; its search for one is bounded (09 R240). -/
def identitySign (o : Opnd) (ctx msg : Bytes) : V Bytes := do
  let rnd ← random o 32
  engine o
  let s ← getV
  let seed := s.kr.wardenKey.getD []
  need (Config.mldsaAttempts seed msg rnd ≤ 500) stEngine
  pure (Config.take 3309 (Config.mldsaSign seed ctx msg rnd))

def opAttestQuote : MgmtOp :=
  { op := 23, ok := quoteBodyOk, bare := true, out := quoteOut
    run := fun o => do
      let s ← getV
      let h := s.quoteHead (o.inp.take 32)
      let sig ← identitySign o quoteContext h
      pure { out := h ++ sig ++ (if leAt o.inp 0x20 1 = 1 then Config.take 5325 Config.endorsement else []) } }

/-- ATTEST_QUOTE (R401). -/
def execAttestQuote (d : Nat) (s : State) (chk : Bool := true) : Out := answer s (s.runMgmt opAttestQuote d chk).after

/-! ### DEVICE_RESET (06 R178) -/

def opDeviceReset : MgmtOp :=
  { op := 24, ok := fun b => b.isEmpty, run := fun _ => stopV (.hold (.mgmtWait (.commit 0) {})) }

/-- DEVICE_RESET (R178): the commit of every dirty page, then the warm reset. -/
def execDeviceReset (d : Nat) (s : State) (chk : Bool := true) : Out := answer s (s.runMgmt opDeviceReset d chk).after

/-! ### Raw samples (11 R276 to R279, Table 11.6) -/

def rawAction (b : Bytes) : Nat := leAt b 0 1
def rawSources (b : Bytes) : Nat := leAt b 4 2
def rawSamples (b : Bytes) : Nat := leAt b 8 4

def rawBodyOk (b : Bytes) : Bool :=
  b.length == 28 && decide (1 ≤ rawAction b ∧ rawAction b ≤ 3) && allZero (slice b 1 3) && leAt b 6 2 == 0 && leAt b 0xC 4 == 0
    && (rawAction b != 2 ||
        (rawSources b != 0 && rawSamples b % 8 == 0 && decide (1024 ≤ rawSamples b ∧ rawSamples b ≤ 1048576)
          && leAt b 0x18 4 == popCount 16 (rawSources b) * rawSamples b / 8))

/-- The lifecycle states that take it (R276). -/
def rawAllowed : V Unit := do
  let s ← getV
  need ([Lifecycle.development, .owned, .operational, .emptied].contains s.life.st) stAccess

def opRawEnter : MgmtOp :=
  { op := 25, ok := rawBodyOk, sel := fun b => rawAction b != 2 && rawAction b != 3
    run := fun _ => do
      rawAllowed
      modV fun s => s.rawEnter
      pure {} }

def runRawCapture (o : Opnd) : V Answer := do
  rawAllowed
  let b := o.inp
  let s ← getV
  need s.ent.rawActive stBad
  need (s.hostPasses 0 false (leAt b 0x10 8) (leAt b 0x18 4) true) stAccess
  if s.ent.capture.isSome then stopV (.wait (.waitSweep waitCapture))
  else
    let c : Capture := { desc := o.d, sources := rawSources b, samples := rawSamples b, addr := leAt b 0x10 8 }
    modV fun s => s.setEnt { s.ent with capture := some c }
    stopV (.hold (.mgmtWait .capture {}))

def opRawCapture : MgmtOp := { op := 25, ok := rawBodyOk, sel := fun b => rawAction b == 2, run := runRawCapture }

/-- LEAVE outside raw mode leaves nothing (notes/assumptions/30.md). -/
def runRawLeave (o : Opnd) : V Answer := do
  rawAllowed
  let s ← getV
  if !s.ent.rawActive then pure {}
  else if s.ent.capture.isSome then stopV (.wait (.waitSweep waitCapture))
  else
    modV fun s => s.rawLeave o.d
    stopV (.hold (.mgmtWait .rawLeave {}))

def opRawLeave : MgmtOp := { op := 25, ok := rawBodyOk, sel := fun b => rawAction b == 3, run := runRawLeave }

/-- ENTROPY_RAW_ENTER (R277). -/
def execEntropyRawEnter (d : Nat) (s : State) (chk : Bool := true) : Out := answer s (s.runMgmt opRawEnter d chk).after

/-- ENTROPY_RAW_CAPTURE (R278). -/
def execEntropyRawCapture (d : Nat) (s : State) (chk : Bool := true) : Out := answer s (s.runMgmt opRawCapture d chk).after

/-- RAW_CAPTURE_DONE (R278). -/
def execRawCaptureDone (s : State) : Out := answer s s.captured.after

/-- ENTROPY_RAW_LEAVE (R279). -/
def execEntropyRawLeave (d : Nat) (s : State) (chk : Bool := true) : Out := answer s (s.runMgmt opRawLeave d chk).after

end Sys2Proof.Machine
end

