-- ==== Sys2Proof/Machine/Arbiters.lean ====
section
/-! DEFINITION. The arbiters' commands (10 R249 to R254): map commits, rotation and decisions; and core faults with the
release of their locks (R257, R258). -/

namespace Sys2Proof.Machine

/-! ### Maps (R249, R254) -/

/-- The ranks of inputs 0 to 14 are a permutation of 0 to 14. -/
def mapOk (lo : Word32) (hi : BitVec 28) : Bool :=
  (List.range 15).all fun r => (List.range 15).any fun i => rankIn lo hi i == r

/-- A map is committed: each engine's next decision still uses the old one, the decisions after it the new (notes/assumptions/31.md). -/
def Arb.commit (x : Arb) (lo : Word32) (hi : BitVec 28) : Arb :=
  { x.arrived with coming := some (lo, hi), seen := [], rotCount := 0 }

/-- MAP_COMMIT (R249). -/
def Arb.mapCommit (x : Arb) : Arb := if mapOk x.pendLo x.pendHi then x.commit x.pendLo x.pendHi else { x with mapErr := true }

/-- Rank r below 14 becomes r + 1, and 14 becomes 0. -/
def rotateRanks (ranks : List Nat) : Nat × Nat :=
  let f := fun r => (r + 1) % 15
  (((List.range 8).map fun i => at' (f (ranks.getD i 0)) (4 * i)).sum, ((List.range 7).map fun i => at' (f (ranks.getD (8 + i) 0)) (4 * i)).sum)

/-- The rotation sequencer's commit (R254): it rotates the map that is live or on its way. -/
def Arb.rotate (x : Arb) : Arb :=
  let x := x.arrived
  let (lo, hi) := rotateRanks ((List.range 15).map x.rank)
  x.commit (BitVec.ofNat 32 lo) (BitVec.ofNat 28 hi)

/-- MAP_COMMIT (R249): a write to an arbiter whose domain is off reaches nothing. -/
def execMapCommit (a : Fin 12) (s : State) : Out :=
  answer s (if s.arbUp a.val then s.setArb a.val (s.arb a.val).mapCommit else s)

/-- ROTATION_COMMIT (R254): P cycles have gone by since the last commit (notes/assumptions/31.md). -/
def execRotationCommit (a : Fin 12) (s : State) : Out :=
  answer s (if s.arbUp a.val && (s.arb a.val).rotEn then s.setArb a.val (s.arb a.val).rotate else s)

/-! ### Decisions (R248, R250 to R253) -/

/-- The oldest request of each input that requests engine e. -/
def Arb.requesting (x : Arb) (e : Nat) : List (Nat × Req) :=
  (List.range 16).filterMap fun i => (x.inputQ i e).head?.map fun q => (i, q)

/-- The one whose input holds the highest rank. -/
def Arb.top (x : Arb) (e : Nat) : Option (Nat × Req) :=
  (x.requesting e).foldl (fun (b : Option (Nat × Req)) c =>
    match b with
    | none => some c
    | some y => if x.rank y.1 < x.rank c.1 then some c else some y) none

def Req.samePage (a b : Req) : Bool := a.who == b.who && a.part == b.part && a.page == b.page

/-- Blocks are left to run; a PAU's operation has steps until it ends. -/
def Req.more (q : Req) : Bool := q.count == 0 || decide (q.done < q.count)

/-- The request of input i takes the engine: a preempted one leaves its progress register. -/
def Arb.grant (x : Arb) (e : Nat) (i : Nat) (q : Req) : Arb :=
  let x := x.setInputQ i e ((x.inputQ i e).erase q)
  let y := x.engine e
  x.setEngine e { y with owner := some (i, { q with preempted := false }), fresh := true, grants := satInc y.grants }

/-- An engine without an owner goes to the highest rank that requests. -/
def Arb.choose (x : Arb) (e : Nat) : Arb :=
  let x := x.setEngine e { x.engine e with owner := none }
  match x.top e with
  | none => x
  | some (i, q) => x.grant e i q

/-- The owner o of input j has blocks left: it keeps the engine, or gives it to a higher rank that requests (R251, R252). -/
def Arb.hold (x : Arb) (e : Nat) (j : Nat) (o : Req) : Arb :=
  let x := x.setEngine e { x.engine e with owner := some (j, o) }
  match x.top e with
  | none => x
  | some (i, q) =>
    if x.rank i ≤ x.rank j then x
    else
      let y := x.engine e
      let x := x.setEngine e { y with preempts := satInc y.preempts }
      (x.setInputQ j e ({ o with preempted := true } :: x.inputQ j e)).grant e i q

/-- The owner's request has ended. On the DGE its page keeps the engine with its next block request, where that is what the input
presents and no higher rank requests (R251). -/
def Arb.follow (x : Arb) (e : Nat) (j : Nat) (o : Req) : Arb :=
  match x.top e with
  | none => x.choose e
  | some (i, n) =>
    if e = 3 ∧ i = j ∧ n.samePage o then
      (x.setInputQ j e ((x.inputQ j e).erase n)).setEngine e { x.engine e with owner := some (j, n) }
    else x.choose e

/-- The arbiter as a decision for engine e sees it: the first after a commit still uses the old map. -/
def Arb.upTo (x : Arb) (e : Nat) : Arb := if x.seen.contains e then x.arrived else x

/-- A decision for engine e: a void grant costs its cycle, and an engine out of service takes no grants. -/
def Arb.decide (x : Arb) (e : Nat) : Arb :=
  let x := x.upTo e
  let y := x.engine e
  let x := x.setEngine e { y with voids := if y.voided then satInc y.voids else y.voids, voided := false, fresh := false }
  let x :=
    if y.oos then x.endReq e fun _ => true
    else
      match y.owner with
      | none => x.choose e
      | some (j, q) =>
        let q := { q with done := q.done + 1 }
        if q.more then x.hold e j q else x.follow e j q
  if x.coming.isSome then { x with seen := e :: x.seen } else x

/-- PROGRESS of the page or context whose block has ended (R252). -/
def State.noteProgress (s : State) (a e : Nat) : State :=
  match ((s.arb a).engine e).owner with
  | none => s
  | some (_, q) =>
    let n := BitVec.ofNat 32 (q.done + 1)
    if 8 ≤ a then
      let k := 4 * (a - 8) + q.page
      s.setCtx k { s.ctx k with progress := n }
    else if e < 3 then
      let k := pageKey a e q.part q.page
      s.setCpage k { s.cpage k with progress := n }
    else s

/-! ### The working state of a digest engine (08 R219 to R221) -/

/-- The page whose block the DGE runs. -/
def State.dgeOwner (s : State) (c : Nat) : Option Nat := ((s.arb c).engine 3).owner.map fun o => dpageKey c o.2.part o.2.page

/-- What a saved context was sealed over. -/
def DPage.saveOf (x : DPage) (seq : Word32) : SavedCtx :=
  { seq := seq, fed := BitVec.ofNat 64 (x.stream.length - x.keyed), decl := x.decl, algo := x.algo, stream := x.stream }

/-- Where page k's save area starts. -/
def DPage.area (x : DPage) : Nat := 64 * (x.saveAddr.toNat / 64)

/-- The header of a saved image (Table 8.7): the message bytes that the state has absorbed are FED. -/
def SavedCtx.head (v : SavedCtx) (k : Nat) (cls : BitVec 2) (kmac : Bool) : Bytes :=
  [BitVec.ofNat 8 v.algo.toNat, BitVec.ofNat 8 (cls.toNat + 4 * b2n kmac), BitVec.ofNat 8 (k / 256), BitVec.ofNat 8 (k / 8 % 32 + 32 * (k % 8))]
    ++ toLE 4 v.seq.toNat ++ toLE 8 v.fed.toNat ++ toLE 8 v.decl.toNat ++ zeros 8

/-- The state field before encryption: the SHA-2 or Keccak state, zero-filled to 256 bytes. -/
def SavedCtx.state (v : SavedCtx) : Bytes :=
  let n := if v.algo = 1 then 32 else if v.algo.toNat ≤ 3 then 64 else 200
  fit 256 (Config.take n (Config.digestState v.algo.toNat v.stream))

/-- The state field under the keystream of the context key and a header, and back. -/
def ctxCrypt (ck head b : Bytes) : Bytes := xorBytes b (Config.take 256 (Config.shake256 (ck ++ [0] ++ head)))

/-- TAG over a header and an encrypted state field. -/
def ctxTag (ck head enc : Bytes) : Bytes := Config.take 16 (Config.shake256 (ck ++ [1] ++ head ++ enc))

/-- The image of a save, as its area holds it (R220). -/
def savedBytes (ck : Bytes) (k : Nat) (x : DPage) (seq : Word32) : Bytes :=
  let v := x.saveOf seq
  let head := v.head k x.cls x.kmac
  let enc := ctxCrypt ck head v.state
  head ++ enc ++ ctxTag ck head enc ++ zeros 16

/-- The context key CK of page k's engine (R222). -/
def State.ck (s : State) (k : Nat) : Bytes := mget s.eng.ctxKey (k / 256) []

/-- Page k's context goes to its save area. -/
def State.saveCtx (s : State) (k : Nat) : State :=
  let x := s.dpage k
  let seq := x.saveSeq + 1
  let s := s.sramPut (x.holder - 1) x.area (savedBytes (s.ck k) k x seq)
  let s := s.setDpage k { x with saveSeq := seq, whereSt := 2 }
  let s := s.setEng { s.eng with saved := mset s.eng.saved k (x.saveOf seq) }
  s.dropContext (k / 256) (k / 8 % 32) (k % 8)

/-- The cluster's DM reads or writes page k's save area, which GATE_SRAM may refuse (R220; 13 Table 13.7). -/
def State.areaCheck (s : State) (k : Nat) (write : Bool) : State × Bool :=
  let x := s.dpage k
  s.sramCheck (65 + k / 256) (x.holder - 1) x.area 320 write (k / 8 % 32)

/-- What a refused access of a page's save area leaves: its descriptor completes ACCESS_FAULT; a page of the Warden's is in FAULT. -/
def State.areaRefused (s : State) (k : Nat) : State :=
  let d := (s.dpage k).desc
  if d = 0 then s.dpageFault k else s.finish (d - 1) stAccess

/-- The working state gives way: to a free internal context, else to its save area. A page that has absorbed nothing has none. -/
def State.workingAway (s : State) (c : Nat) : State :=
  match mget s.eng.working c none with
  | none => s
  | some p =>
    let inner := mget s.eng.inner c []
    if (s.dpage p).whereSt = 3 then s.dropContext (p / 256) (p / 8 % 32) (p % 8)
    else if inner.length < 4 then
      let s := s.setEng { s.eng with inner := mset s.eng.inner c (inner ++ [p]), working := mset s.eng.working c none }
      s.setDpage p { s.dpage p with whereSt := 1 }
    else
      match s.areaCheck p true with
      | (s, true) => s.saveCtx p
      | (s, false) => s.areaRefused p

/-- The image in page k's save area passes the checks of R221: TAG, the page's own CLUSTER, PARTITION and PAGE, SAVE_SEQ, ALGO, FED
and DECL_LEN; and what it decrypts to is the state that was saved (notes/assumptions/32.md). -/
def State.restores (s : State) (k : Nat) : Bool :=
  let x := s.dpage k
  let b := s.sramGet (x.holder - 1) x.area 320
  let head := b.take 32
  let enc := slice b 0x20 256
  match (s.eng.saved.find? fun c => c.1 == k).map (·.2) with
  | none => false
  | some v =>
    slice b 0x120 16 == ctxTag (s.ck k) head enc && head == (x.saveOf x.saveSeq).head k x.cls x.kmac && ctxCrypt (s.ck k) head enc == v.state

/-- A restore of page k that fails is an engine fault (R223): its descriptor completes ENGINE_FAULT. -/
def State.restoreFails (s : State) (c k : Nat) : State :=
  let d := (s.dpage k).desc
  let s := (s.endReq c 3 fun q => q.part == k / 8 % 32 && q.page == k % 8).dpageFault k
  let s := s.countFault (4 * c + 3)
  if d = 0 then s else s.finish (d - 1) stEngine

/-- Page k's state becomes the working state. -/
def State.works (s : State) (c k : Nat) : State :=
  let x := s.dpage k
  let s := s.setDpage k { x with whereSt := if x.whereSt = 3 then 3 else 0 }
  s.setEng { s.eng with working := mset s.eng.working c (some k), inner := mset s.eng.inner c ((mget s.eng.inner c []).erase k),
                        saved := mdel s.eng.saved k }

/-- A granted page's state becomes the working state, and the page that had it gives way (R219); a SAVE moves its own context out from
where it lies. -/
def State.workingTo (s : State) (c k : Nat) : State :=
  let saves := (s.dpage k).pend == .save && !(s.dpage k).blockBusy
  if mget s.eng.working c none = some k || saves then s
  else
    let s := s.workingAway c
    if (s.dpage k).whereSt = 2 then
      match s.areaCheck k false with
      | (s, false) => s.areaRefused k
      | (s, true) => if s.restores k then s.works c k else s.restoreFails c k
    else s.works c k

/-- ARBITER_DECISION (R250 to R253): a block ends, or an idle engine looks. -/
def execArbiterDecision (a : Fin 12) (e : Fin 4) (s : State) : Out :=
  answer s <|
    if !s.arbUp a.val || decide (8 ≤ a.val ∧ e.val ≠ 0) then s
    else
      let s := s.noteProgress a.val e.val
      let arrives := (s.arb a.val).coming.isSome && (s.arb a.val).seen.contains e.val
      let s := s.setArb a.val ((s.arb a.val).decide e.val)
      let s := if arrives && decide (a.val < 8) then s.serveAllOpens else s
      if a.val < 8 ∧ e.val = 3 then
        match s.dgeOwner a.val with
        | some k => (s.workingTo a.val k).after
        | none => s
      else s

/-! ### Core faults (R257, R258) -/

/-- Work that a core has taken up and still carries. -/
def DRec.onCore (r : DRec) : Bool :=
  match r.stage with
  | .waitDurable _ => false
  | .forwarded _ _ => false
  | .mgmt => false
  | .mgmtWait _ _ => false
  | _ => r.begun

/-- Core k is reset: its locks are released, the work it had begun completes ENGINE_FAULT, what was queued goes back to the
dispatcher (notes/assumptions/33.md). -/
def State.coreFault (s : State) (k : Nat) : State :=
  let l := (s.coreQueue k).filterMap s.desc
  let s := s.abandonCore k
  let s := s.requeue ((l.filter fun r => r.stage == .queued && !r.begun).map (·.id))
  (l.filter DRec.onCore).foldl (fun (s : State) r => s.finish r.id stEngine) s

/-- CORE_FAULT (R257). -/
def execCoreFault (core : CoreNo) (cause : CoreFaultCause) (s : State) : Out :=
  answer s <|
    if !(s.domain (3 + core.val / 8)).up then s
    else
      match cause with
      | .noRetire => if (s.coreQueue core.val).isEmpty then s else (s.coreFault core.val).after
      | .doubleException => (s.coreFault core.val).after
      | .gateRefusal => (s.coreFault core.val).after

end Sys2Proof.Machine
end

