-- ==== Sys2Proof/Machine/Attest.lean ====
section
/-! DEFINITION. Withy ports: training, flits in, link loss, and the exchange that attests a peer and makes the keys (14 R332 to
R338). -/

namespace Sys2Proof.Machine

/-! ### Members that come and go (R338, R344 to R346) -/

/-- The last 65,536 transactions are kept (R346). -/
def State.record (s : State) (t : Txn) : State :=
  let l := s.mesh.journal.filter (fun x => x.rseq != t.rseq) ++ [t]
  { s with mesh := { s.mesh with journal := l.drop (l.length - 65536) } }

/-- The key that a transaction of kind 3 transfers: the mesh key unit holds it, or takes it over the key bus from the slot that it was
written to here (R341). -/
def State.txnSecret (s : State) (t : Txn) : Bytes :=
  if txnKind t.body ≠ 3 then []
  else if mhas s.mesh.unitKeys t.rseq then mget s.mesh.unitKeys t.rseq []
  else if t.rseq ≤ s.mesh.rseq then
    let b := (txnPay t.body).drop 64
    let x := s.slot ((s.part (leAt b 0 1)).base + leAt b 2 2)
    x.key.take (algLen x.alg.toNat)
  else []

/-- A member's copy of a transaction goes out; the mesh key unit puts a transferred key behind it for another member alone (R341). -/
def State.sendTxn (s : State) (i : Nat) (t : Txn) : State :=
  s.send i 0x30 t.tag.toNat t.attempt.toNat 0 (t.body ++ if i = s.ownId then [] else s.txnSecret t)

/-- The Warden's operands for work of its own. -/
def State.wardenOpnd (s : State) : Opnd := { d := s.disp.nextId, p := 0, cl := s.wardenCluster, fam := 15, op := 0 }

/-- The Warden's own work, which changes nothing where it cannot be done now. -/
def State.wardenWork {α : Type} (s : State) (m : Opnd → V α) : Option α × State :=
  match runV (m s.wardenOpnd) s with
  | (.ok a, t) => (some a, t)
  | _ => (none, s)

/-- The members but for this one, in the map. -/
def State.peers (s : State) : List Nat := (List.range 8).filter fun i => i != s.ownId && s.inMap i

/-- The mesh root key is kept, sealed under the storage key (R345). -/
def State.keepMrk (s : State) (k : Bytes) : State :=
  { s with mesh := { s.mesh with mrk := some k, sealedMrk := s.tam.storageKey.map fun q => (q, k) } }

/-- The MRK goes to a member under its pair key (R345; notes/assumptions/21.md). -/
def State.sendMrk (s : State) (i : Nat) : State :=
  match s.mesh.mrk with
  | none => s
  | some k => s.send i 0x30 0 0 0 (txnBody 0 4 k)

/-- The first coordinator of a roster draws the MRK (R345). -/
def State.drawMrk (s : State) : State :=
  if s.coordinator != s.ownId || !s.quorum || s.mesh.resyncing || s.mesh.mrk.isSome || s.mesh.sealedMrk.isSome then s
  else
    match s.wardenWork fun o => random o 32 with
    | (some k, t) => t.peers.foldl State.sendMrk (t.keepMrk k)
    | (none, _) => s

/-- A coordinator that takes over finishes every transaction of its journal that has no TXN_DONE yet (R344). -/
def State.takeOver (s : State) : State :=
  let everyone := s.ownId :: s.peers
  (s.mesh.journal.filter fun t => !t.done).foldl (fun (s : State) t =>
    let s : State := { s with mesh := { s.mesh with
      journal := s.mesh.journal.map fun x => if x.rseq = t.rseq then { x with waiting := everyone } else x } }
    everyone.foldl (fun (s : State) i => s.sendTxn i t) s) s

/-- The origin's pending TXNs go to the coordinator again (R344). -/
def State.askAgain (s : State) : State :=
  s.mesh.asked.foldl (fun (s : State) (c : Nat × Bytes) =>
    s.send s.coordinator 0x30 (c.1 % 65536) (c.1 / 65536 % 65536) 0 c.2) s

/-- Every acknowledgement of transaction n is in: TXN_DONE goes to its origin (R343 step 4). -/
def State.txnFinished (s : State) (n : Nat) : State :=
  match s.mesh.journal.find? fun t => t.rseq == n && t.waiting.isEmpty && !t.done with
  | none => s
  | some t =>
    let s : State := { s with mesh := { s.mesh with
      journal := s.mesh.journal.map fun x => if x.rseq = n then { x with done := true } else x } }
    s.send t.origin 0x32 t.tag.toNat t.attempt.toNat n (toLE 2 stDone.toNat)

/-- Member i answered transaction n, or will not answer any more. -/
def State.txnAnswered (s : State) (n i : Nat) : State :=
  let s : State := { s with mesh := { s.mesh with
    journal := s.mesh.journal.map fun x => if x.rseq = n then { x with waiting := x.waiting.filter (· != i) } else x } }
  s.txnFinished n

/-- A quorum of the roster exists without this device, as member i's last heartbeat told. -/
def State.quorumWithout (s : State) (i : Nat) : Bool :=
  let m := (mget s.mesh.beats i {}).map
  decide (s.members.length < 2 * (s.members.filter fun x => x.meshId != s.ownId && m.getLsbD x.meshId).length)

/-- The device has come into a quorum: it catches up with the coordinator, unless it is the coordinator of a new one (R346). -/
def State.joined (s : State) : State :=
  if s.coordinator = s.ownId && !(s.peers.any s.quorumWithout) then s.drawMrk.takeOver
  else
    let s : State := { s with mesh := { s.mesh with resyncing := true, resyncTo := none, resyncBeats := 0 } }
    s.send (s.coordinatorBut s.ownId) 0x33 0 0 0 (toLE 8 s.mesh.rseq)

/-- Member i's bit in MEMBER_MAP. -/
def State.setMember (s : State) (i : Nat) (v : Bool) : State :=
  let m := BitVec.ofNat 8 (2 ^ i)
  let t : State := { s with mesh := { s.mesh with memberMap := if v then s.mesh.memberMap ||| m else s.mesh.memberMap &&& ~~~m } }
  if !t.quorum then t
  else if !s.quorum then t.joined
  else if t.coordinator = s.coordinator || t.mesh.resyncing then t
  else if t.coordinator = t.ownId then (if v then t else t.takeOver.askAgain)
  else t.askAgain

/-! ### Links (R332, R334) -/

/-- The port can train: enabled, its domain up, and used by the topology. -/
def State.trains (s : State) (p : Nat) : Bool := (s.port p).enable && (s.domain (26 + p)).up && s.portUsed p

/-- A request whose route has failed before ACCEPT goes out again, with the next attempt number (R350). -/
def State.resendFwd (s : State) (f : Fwd) : State := if (s.route f.dst f.tag).isSome then s.sendFwd f else s

/-- The link goes down: both link keys are gone, and the port trains again. -/
def State.linkFell (s : State) (p : Nat) : State :=
  let up := (s.port p).up
  let s := s.linkDown p
  let s := s.setPort p { s.port p with training := s.trains p }
  let s : State := { s with mesh := { s.mesh with hs := mdel s.mesh.hs p } }
  if !up then s
  else (s.mesh.fwds.filter fun f => !f.accepted && f.port == p).foldl State.resendFwd s

/-- LINK_DOWN (R334). -/
def execLinkDown (p : Fin 4) (s : State) : Out := answer s (if (s.port p.val).up then s.linkFell p.val else s)

/-- RETRAIN (R332; 02 Table 2.11). -/
def execRetrain (p : Fin 4) (s : State) : Out := answer s (if s.trains p.val then s.linkFell p.val else s)

/-- TRAIN_TIMEOUT (R332): training starts again. -/
def execTrainTimeout (p : Fin 4) (s : State) : Out :=
  answer s (if s.trains p.val && !(s.port p.val).up then s.setPort p.val { s.port p.val with training := true, lanes := 0 } else s)

/-! ### Flits in (R333, R334) -/

/-- One bit of CRC-64 as ECMA-182 defines it, most significant bit first. -/
def crcBit (c : BitVec 64) (b : Bool) : BitVec 64 :=
  if c.msb != b then (c <<< 1) ^^^ 0x42F0E1EBA9EA3693 else c <<< 1

def crcByte (c : BitVec 64) (b : Byte) : BitVec 64 :=
  ((List.range 8).map fun i => b.getLsbD (7 - i)).foldl crcBit c

def crc64 (b : Bytes) : BitVec 64 := b.foldl crcByte 0

def flitClass (f : Bytes) : Nat := bits (leAt f 0 1) 0 3
def flitSom (f : Bytes) : Bool := bit (leAt f 0 1) 4
def flitSeq (f : Bytes) : BitVec 12 := BitVec.ofNat 12 (leAt f 2 2)

/-- Mesh identity and port at the other end of port p, by the wiring. -/
def State.farEnd (s : State) (p : Nat) : Option (Nat × Nat) :=
  match s.mesh.roster with
  | none => none
  | some r => (r.partner r.position p).bind fun c => r.members[c.1]?.map fun m => (m.meshId, c.2)

/-- The nonce of the flit that port p receives next. -/
def State.flitNonce (s : State) (p : Nat) : Bytes :=
  match s.farEnd p with
  | none => []
  | some (i, q) => [BitVec.ofNat 8 i, BitVec.ofNat 8 q, 0, 0] ++ toBE 8 (s.port p).rxCtr.toNat

/-- The tag of a flit of classes 0 to 4. -/
def flitTagOk (key nonce f : Bytes) : Bool :=
  slice f 0x38 8 == Config.take 8 (Config.gcmTag 3 key nonce (f.take 8) (slice f 8 48))

def flitBody (key nonce f : Bytes) : Bytes := xorBytes (slice f 8 48) (Config.take 48 (Config.gcmStream 3 key nonce))

/-- Sequence numbers still to be acknowledged after ACK a. -/
def ackTrim (a : BitVec 12) (l : List (BitVec 12)) : List (BitVec 12) :=
  if l.contains a then (l.dropWhile (· != a)).drop 1 else l

/-- The acknowledgements and credits of an authenticated header. -/
def Port.control (x : Port) (f : Bytes) : Port :=
  let ack := leAt f 4 2
  let l := ackTrim (BitVec.ofNat 12 ack) x.replay
  let c := bits (leAt f 1 1) 0 3
  let k := 2 * c + bits (leAt f 1 1) 3 1
  let x := Port.resend { x with replay := l } (bit ack 12)
  let x := { x with
    credits := if 1 ≤ c ∧ c ≤ 4 then mset x.credits k (mget x.credits k (creditMax c) + bits (leAt f 1 1) 4 4) else x.credits }
  x.drain

/-- Port p receives a flit: the state, and the body of one that is accepted. -/
def State.rxFlit (s : State) (p : Nat) (f : Bytes) : State × Option Bytes :=
  let x := s.port p
  let c := flitClass f
  if !x.up || f.length != 64 then (s, none)
  else if c = 5 then (s, if (crc64 (f.take 56)).toNat = leAt f 0x38 8 then some (slice f 8 48) else none)
  else
    match x.rxKey with
    | none => (s, none)
    | some key =>
      let nonce := s.flitNonce p
      let (n, k) := nextCtr x.rxCtr (some key)
      let x := { x with rxCtr := n, rxKey := k }
      if c ≤ 4 && flitTagOk key nonce f then
        let x := { x with tagFails := 0 }
        if c = 0 then (s.setPort p (x.control f), none)
        else if flitSeq f = x.rxSeq + 1 then
          (s.setPort p ({ x with rxSeq := flitSeq f, acked := flitSeq f, nak := false }.control f), some (flitBody key nonce f))
        else (s.setPort p { x with nak := true }, none)
      else
        let s := s.setPort p { x with tagFails := x.tagFails + 1, nak := true }
        (if 8 ≤ x.tagFails + 1 then s.linkFell p else s, none)

/-- A message's first flit names a type of its class, or the message is discarded and counted (R336). -/
def State.noteType (s : State) (c : Nat) (body : Bytes) : State :=
  let t := leAt body 0 1
  let known := msgTypes.contains t && (msgClass t == c || (c == 5 && decide (0x50 ≤ t)))
  if known then s else { s with mesh := { s.mesh with unknownMsgs := satInc s.mesh.unknownMsgs } }

/-- FLIT_RECEIVE (R334, R336). -/
def execFlitReceive (p : Fin 4) (flit : Bytes) (s : State) : Out :=
  answer s <|
    match s.rxFlit p.val flit with
    | (t, some b) => if flitSom flit then t.noteType (flitClass flit) b else t
    | (t, none) => t

/-! ### The exchange (R337, R338) -/

def lowFirst (own peer : Nat) (a b : Bytes) : Bytes := if own < peer then a ++ b else b ++ a

/-- A HELLO as bytes, in the order of R337 (notes/assumptions/38.md). -/
def helloBytes (id : Nat) (serial : Word64) (lc : BitVec 4) (version : Word32) (roster owner key endorse : Bytes) (pos port : Nat)
    (enc rnd : Bytes) : Bytes :=
  [BitVec.ofNat 8 id] ++ toLE 8 serial.toNat ++ toLE 1 lc.toNat ++ toLE 4 version.toNat ++ fit 32 roster ++ fit 32 owner ++ key
    ++ endorse ++ [BitVec.ofNat 8 pos, BitVec.ofNat 8 port] ++ enc ++ rnd

def Hello.wire (h : Hello) : Bytes :=
  helloBytes h.meshId.val h.serial h.lifecycle h.version h.rosterDigest h.ownerDigest h.idKey h.endorsement h.position.val
    h.port.val h.encapKey h.random

/-- Moroafy's endorsement without the key it stands over: its 64-byte header and its signature (16 R400). -/
def ownEndorsement : Bytes :=
  let e := Config.take 5325 Config.endorsement
  e.take 64 ++ e.drop 2016

def State.rosterDigest (s : State) : Bytes := fit 32 ((s.mesh.roster.map (·.digest)).getD [])
def State.ownerDigest (s : State) : Bytes := fit 32 (s.life.ownerKey.elim [] (shake 32))

/-- The own HELLO with a fresh encapsulation key and 32 random bytes. -/
def State.ownHello (s : State) (port : Nat) (seed rnd : Bytes) : Bytes :=
  helloBytes s.ownId Config.serial (lcCode s.life.st) s.fwVersion s.rosterDigest s.ownerDigest (Config.take 1952 Config.identityPublic)
    ownEndorsement ((s.mesh.roster.map Roster.position).getD 0) port (Config.take 1184 (Config.mlkemPublic seed)) rnd

def State.setHs (s : State) (k : Nat) (x : Shake) : State := { s with mesh := { s.mesh with hs := mset s.mesh.hs k x } }

def State.shakeOf (s : State) (k : Nat) : Shake := mget s.mesh.hs k {}

/-- A handshake message of exchange k: to the neighbour at port k, whoever that is (destination 8), or end to end. -/
def State.sendShake (s : State) (k type : Nat) (b : Bytes) : State :=
  if k < 4 then
    { s with mesh := { s.mesh with sent := s.mesh.sent ++ [{ port := k, src := s.ownId, dst := 8, type := type, body := b }] } }
  else s.send (k - 8) type 0 0 0 b

/-- An exchange starts; without random it is tried again (R337). -/
def State.startShake (s : State) (k : Nat) : State :=
  match s.wardenWork fun o => random o 96 with
  | (none, _) => s.setHs k { st := .failed }
  | (some b, t) =>
    let port := if k < 4 then k else ((t.route (k - 8) 0).map (·.1)).getD 0
    let m := t.ownHello port (b.take 64) (b.drop 64)
    (t.setHs k { st := .sent, seed := b.take 64, mine := m }).sendShake k 0x50 m

/-- An exchange fails: counted, and told over SMBus. -/
def State.failShake (s : State) (k : Nat) : State :=
  { s.setHs k { st := .failed } with mesh := { (s.setHs k { st := .failed }).mesh with attestFails := satInc s.mesh.attestFails } }

/-- The checks of step 2; end to end the wiring is not one of them (R338). -/
def State.helloOk (s : State) (k : Nat) (h : Hello) : Bool :=
  match s.mesh.roster with
  | none => false
  | some r =>
    Config.mldsaVerify (Config.label 3) (Config.label 2) (h.endorsement.take 64 ++ h.idKey) (h.endorsement.drop 64)
      && r.members.any (fun m => m.meshId == h.meshId.val && m.serial == h.serial && m.idDigest == shake 32 h.idKey
          && m.meshId != s.ownId)
      && h.rosterDigest == s.rosterDigest && h.ownerDigest == s.ownerDigest
      && (h.lifecycle == 2 || h.lifecycle == 3) && decide (r.minFw.toNat ≤ h.version.toNat)
      && (decide (4 ≤ k) || r.partner r.position k == some (h.position.val, h.port.val))

/-- What a signature of step 3 covers. -/
def shakeDigest (own peer : Nat) (mine theirs ct : Bytes) : Bytes := shake 32 (lowFirst own peer mine theirs ++ ct)

/-- The context of the exchange's signatures, which the spec does not print. -/
def shakeContext : Bytes := Config.label 1

/-- Steps 2 and 3 on a peer's HELLO. -/
def State.takeHello (s : State) (k : Nat) (h : Hello) : State :=
  let s := if (s.shakeOf k).st = .sent then s else s.startShake k
  let x := s.shakeOf k
  if x.st ≠ .sent then s
  else if !s.helloOk k h then s.failShake k
  else
    match s.wardenWork fun o => do
      let rnd ← random o 32
      let ct := Config.take 1088 (Config.mlkemEncapCt h.encapKey rnd)
      let sig ← identitySign o shakeContext (shakeDigest s.ownId h.meshId.val x.mine (Hello.wire h) ct)
      pure (rnd, ct, sig) with
    | (none, _) => s.failShake k
    | (some (rnd, ct, sig), t) =>
      (t.setHs k { x with st := .helloOk, theirs := (Hello.wire h), peer := h.meshId.val, idKey := h.idKey, ct := ct,
                          secret := Config.take 32 (Config.mlkemEncapSs h.encapKey rnd) }).sendShake k 0x51 (ct ++ sig)

/-- The exchange a HELLO belongs to: on an attested port it comes end to end. -/
def State.shakeKey (s : State) (p peer : Nat) : Nat := if (s.port p).attested then 8 + peer else p

/-- HELLO (R337 steps 1 to 3). -/
def execHello (p : Fin 4) (h : Hello) (s : State) : Out :=
  answer s (if s.meshed && (s.port p.val).up then s.takeHello (s.shakeKey p.val h.meshId.val) h else s)

/-- The 96 bytes of step 4. -/
def shakeKeys (own peer : Nat) (secretOut secretIn digOut digIn : Bytes) : Bytes :=
  shake 96 (lowFirst own peer secretOut secretIn ++ lowFirst own peer digOut digIn)

/-- The port takes new link keys; FINISH is its first flit of class 4 under them (step 5). -/
def State.takeKeys (s : State) (p peer : Nat) (keys : Bytes) : State :=
  let low := keys.take 32
  let high := slice keys 32 32
  let x := s.port p
  let tx := if s.ownId < peer then low else high
  let rx := if s.ownId < peer then high else low
  s.setPort p ({ x with txKey := some tx, rxKey := some rx, txCtr := 0, rxCtr := 0, txSeq := 0, rxSeq := 0, acked := 0, replay := [],
                        waiting := [], credits := [] }.putFlit 4 0)

/-- Steps 3 and 4 on a peer's ciphertext and signature. -/
def State.takeKem (s : State) (k : Nat) (ct sig : Bytes) : State :=
  let x := s.shakeOf k
  let digIn := shakeDigest s.ownId x.peer x.mine x.theirs ct
  if !Config.mldsaVerify x.idKey shakeContext digIn sig || ct.length != 1088 then s.failShake k
  else
    let keys := shakeKeys s.ownId x.peer x.secret (Config.take 32 (Config.mlkemDecap x.seed ct))
      (shakeDigest s.ownId x.peer x.mine x.theirs x.ct) digIn
    let s := s.setHs k { x with st := .keyed, keys := keys, seed := [], secret := [] }
    (if k < 4 then s.takeKeys k x.peer keys else s).sendShake k 0x52 []

/-- The end-to-end exchange whose peer signed a ciphertext. -/
def State.kemOwner (s : State) (ct sig : Bytes) : Option Nat :=
  (List.range 8).map (8 + ·) |>.find? fun k =>
    let x := s.shakeOf k
    x.st == .helloOk && Config.mldsaVerify x.idKey shakeContext (shakeDigest s.ownId x.peer x.mine x.theirs ct) sig

/-- KEM (R337 steps 3, 4). End to end, one that no peer signed fails every exchange that waits for one. -/
def execKem (p : Fin 4) (ct sig : Bytes) (s : State) : Out :=
  answer s <|
    if (s.port p.val).attested then
      match s.kemOwner ct sig with
      | some k => s.takeKem k ct sig
      | none => ((List.range 8).map (8 + ·)).foldl (fun (s : State) k => if (s.shakeOf k).st = .helloOk then s.failShake k else s) s
    else if (s.shakeOf p.val).st = .helloOk then s.takeKem p.val ct sig
    else s

/-- An exchange is done: its pair key stands, and the member is in the map once its heartbeat has come too (R338). -/
def State.paired (s : State) (k : Nat) : State :=
  let x := s.shakeOf k
  let s := s.setHs k { st := .done, peer := x.peer }
  let s : State := { s with mesh := { s.mesh with
    pairKeys := mset s.mesh.pairKeys x.peer (slice x.keys 64 32), pairCtr := mset s.mesh.pairCtr x.peer 0 } }
  if mhas s.mesh.beats x.peer then s.setMember x.peer true else s

/-- Members that no port of this device connects to. -/
def State.farMembers (s : State) : List Nat :=
  let near := (List.range 4).filterMap fun p => (s.farEnd p).map (·.1)
  (s.members.map (·.meshId)).filter fun i => i != s.ownId && !near.contains i

/-- Exchanges with members that are not neighbours start over the attested links. -/
def State.pairFar (s : State) : State :=
  (s.farMembers.filter fun i => !mhas s.mesh.pairKeys i && ((s.shakeOf (8 + i)).st == .idle || (s.shakeOf (8 + i)).st == .failed)
      && (s.route i 0).isSome).foldl (fun (s : State) i => s.startShake (8 + i)) s

/-- FINISH (R337 step 5): it comes in a flit that passes its tag. -/
def execFinish (p : Fin 4) (flit : Bytes) (s : State) : Out :=
  answer s <|
    match s.rxFlit p.val flit with
    | (t, none) => t
    | (t, some b) =>
      if flitClass flit ≠ 4 ∨ leAt b 0 1 ≠ 0x52 then t
      else if (t.port p.val).attested then
        let k := 8 + bits (leAt b 1 1) 0 3
        if (t.shakeOf k).st = .keyed then t.paired k else t
      else if (t.shakeOf p.val).st = .keyed then
        let peer := (t.shakeOf p.val).peer
        ((t.paired p.val).setPort p.val { t.port p.val with attested := true, peerId := peer }).pairFar
      else t

/-- ATTEST_RETRY (R337): 1 s after a failure. -/
def execAttestRetry (p : Fin 4) (s : State) : Out :=
  answer s <|
    if !s.meshed || !(s.port p.val).up then s
    else if (s.port p.val).attested then s.pairFar
    else if (s.shakeOf p.val).st = .failed then s.startShake p.val
    else s

/-- LINK_TRAIN (R329, R330, R332): the port is up, and the exchange starts. -/
def execLinkTrain (p : Fin 4) (lanes : Fin 5) (s : State) : Out :=
  answer s <|
    if !s.trains p.val || (s.port p.val).up || !(lanes.val == 1 || lanes.val == 2 || lanes.val == 4) then s
    else
      let s := s.setPort p.val { s.port p.val with up := true, training := false, lanes := lanes.val }
      if s.meshed then s.startShake p.val else s

end Sys2Proof.Machine
end

