-- ==== Sys2Proof/Machine/KeyBus.lean ====
section
/-! DEFINITION. How a core reaches its pages and context (07 R187, R188; 08 R209; 09 R228), their OPEN and CLOSE, and the
key fetches that fill key registers (03 R70 to R74; 07 R189). -/

namespace Sys2Proof.Machine

/-! ### Pages held -/

/-- Who reaches the engines of cluster c: the cores of its half, and the Warden (01 R17). -/
def reachesCl (who c : Nat) : Bool := who == 64 || who / 32 == c / 4

/-- The key of the page that who holds and names. -/
def State.heldPage (s : State) (a : PageAddr) : Option Nat :=
  (s.tagOf a.who.val).bind fun t =>
    let k := pageKey a.cl.val (engNo a.eng) t.1 a.page.val
    if reachesCl a.who.val a.cl.val && (s.cpage k).holder == a.who.val + 1 then some k else none

def State.heldDpage (s : State) (a : DgeAddr) : Option Nat :=
  (s.tagOf a.who.val).bind fun t =>
    let k := dpageKey a.cl.val t.1 a.page.val
    if reachesCl a.who.val a.cl.val && (s.dpage k).holder == a.who.val + 1 then some k else none

/-- The context who holds. -/
def State.heldCtx (s : State) (who : Nat) : Option Nat :=
  (s.eng.ctxs.find? fun c => c.2.holder == who + 1).map (·.1)

/-- Parts of a page key: cluster, engine, partition, page. -/
def pkCl (k : Nat) : Nat := k / 768
def pkEng (k : Nat) : Nat := k / 256 % 3
def pkPart (k : Nat) : Nat := k / 8 % 32
def pkPage (k : Nat) : Nat := k % 8
def dkCl (k : Nat) : Nat := k / 256

/-- The operands of work on a page or context held for desc (0 for the Warden): random comes from the holder's own
cluster. -/
def State.pageOpnd (s : State) (who desc p : Nat) : Opnd :=
  { d := if desc = 0 then s.disp.nextId else desc - 1, p := p, cl := if who = 64 then s.wardenCluster else who / 8, fam := 0, op := 0 }

/-! ### OPEN and CLOSE (07 R188; 08 R209) -/

/-- Who holds a page on engine e of cluster c, or waits for one. -/
def State.opened (s : State) (who c e : Nat) : Bool :=
  s.eng.opens.any (fun o => o.who == who && o.cl == c && o.eng == e)
    || (if e = 3 then s.eng.dpages.any fun x => x.2.holder == who + 1 && dkCl x.1 == c
        else s.eng.pages.any fun x => x.2.holder == who + 1 && pkCl x.1 == c && pkEng x.1 == e)

/-- An OPEN for n pages enters the arbiter; a holder's further OPEN is ignored (notes/assumptions/34.md). -/
def State.openPages (s : State) (who c e n : Nat) : State :=
  match s.tagOf who with
  | none => s
  | some (p, _) =>
    if !reachesCl who c || s.opened who c e then s
    else
      let s := s.setEng { s.eng with
        opens := s.eng.opens ++ [{ who := who, part := p, cl := c, eng := e, count := n }],
        openRes := mdel s.eng.openRes (openKey who c e),
        pageSet := if e = 3 then mdel s.eng.pageSet (who * 8 + c) else s.eng.pageSet }
      s.serveEngine c e p

/-- ENGINE_OPEN (07 R188). -/
def execEngineOpen (who : Who) (cl : Cl) (eng : Eng) (s : State) : Out := answer s (s.openPages who.val cl.val (engNo eng) 1)

/-- ENGINE_CLOSE (07 R188). -/
def execEngineClose (a : PageAddr) (s : State) : Out :=
  answer s <|
    match s.heldPage a with
    | some k => s.dropPage (pkCl k) (pkEng k) (pkPart k) (pkPage k) false
    | none => s

/-- DGE_OPEN (08 R209): COUNT 0 acts as 1; a word with other bits set, or COUNT above 4, opens nothing
(notes/assumptions/34.md). -/
def execDgeOpen (who : Who) (cl : Cl) (w : Word32) (s : State) : Out :=
  answer s (if 4 < w.toNat then s else s.openPages who.val cl.val 3 (max 1 w.toNat))

/-- DGE_CLOSE (08 R209). -/
def execDgeClose (a : DgeAddr) (s : State) : Out :=
  answer s <|
    match s.heldDpage a with
    | some k => s.dropDpage (dkCl k) (pkPart k) (pkPage k) false
    | none => s

/-! ### Fetches (03 R70; 07 R189, Table 7.3) -/

/-- What a write of a GEN field names: partition, descriptor + 1, ROLE and ALGSET; none where who does not hold it. -/
def State.fetchSource (s : State) (t : KeyTarget) : Option (Nat × Nat × Word16 × Word32) :=
  match t with
  | .cipher a kb => (s.heldPage a).map fun k =>
      let x := s.cpage k
      (pkPart k, x.desc, if kb then x.roleB else x.roleA, if kb then x.algsetB else x.algsetA)
  | .digest a => (s.heldDpage a).map fun k => (pkPart k, (s.dpage k).desc, (s.dpage k).roleA, (s.dpage k).algsetA)
  | .pau w => (s.heldCtx w.val).map fun k => ((s.ctx k).part, (s.ctx k).desc, (s.ctx k).roleA, (s.ctx k).algsetA)

/-- A key register takes a value; a refused fetch shows its status in KSTAT. -/
def State.putKey (s : State) (t : KeyTarget) (v : KeyReg1) : State :=
  let st : Word16 → Word16 := fun old => match v with
    | .refused st => st
    | _ => old
  match t with
  | .cipher a kb =>
    match s.heldPage a with
    | some k =>
      let x := s.cpage k
      s.setCpage k (if kb then { x with kb := v, kstat := st x.kstat } else { x with ka := v, kstat := st x.kstat })
    | none => s
  | .digest a =>
    match s.heldDpage a with
    | some k => s.setDpage k { s.dpage k with ka := v, kstat := st (s.dpage k).kstat }
    | none => s
  | .pau w =>
    match s.heldCtx w.val with
    | some k => s.setCtx k { s.ctx k with ka := v, kstat := st (s.ctx k).kstat }
    | none => s

/-- The index fields that a write of the GEN word leaves in the page. -/
def State.putIndex (s : State) (t : KeyTarget) (w : Word32) : State :=
  match t with
  | .cipher a kb =>
    match s.heldPage a with
    | some k => s.setCpage k (if kb then { s.cpage k with indexB := w } else { s.cpage k with indexA := w })
    | none => s
  | .digest a =>
    match s.heldDpage a with
    | some k => s.setDpage k { s.dpage k with indexA := w }
    | none => s
  | .pau x =>
    match s.heldCtx x.val with
    | some k => s.setCtx k { s.ctx k with indexA := w }
    | none => s

/-- KEY_FETCH_ISSUE (07 R189): the key register is in flight, and the key bus takes the fetch in order. -/
def execKeyFetchIssue (t : KeyTarget) (w : Word32) (s : State) : Out :=
  answer s <|
    match s.fetchSource t with
    | none => s
    | some (p, d, role, algs) =>
      let f : Fetch := { tgt := t, part := p, index := bits w.toNat 0 16, trans := bit w.toNat 16, gen := BitVec.ofNat 8 (bits w.toNat 24 8),
                         role := role, algset := algs, desc := if d = 0 then none else some (d - 1) }
      let s := (s.putIndex t w).putKey t .inFlight
      { s with kr := { s.kr with fetches := (s.kr.fetches.filter fun g => g.tgt != t) ++ [f] } }

/-- The class that the engine of a key register may fetch (01 Table 1.6). -/
def targetClass : KeyTarget → Nat
  | .cipher a _ => if a.eng = .kce then 0 else 1
  | .digest _ => 1
  | .pau _ => 2

/-- The algorithms an engine computes under: cipher engines AES and TDES (07 Table 7.1). -/
def targetAlg (t : KeyTarget) (alg : Nat) : Bool :=
  match t with
  | .cipher _ _ => decide (1 ≤ alg ∧ alg ≤ 5)
  | _ => true

/-- What a fetch requires: class of the engine, ROLE bits and ALGSET; the family bits do not bind the Warden (03 R70). -/
def Fetch.req (f : Fetch) : KeyReq :=
  { cls := [targetClass f.tgt], fam := 0, mode := if f.desc.isNone then f.role.toNat / 512 * 512 else f.role.toNat,
    algs := (List.range 32).filter fun i => f.algset.getLsbD i && targetAlg f.tgt i }

def targetWho : KeyTarget → Nat
  | .cipher a _ => a.who.val
  | .digest a => a.who.val
  | .pau w => w.val

/-- The slot a fetch names: a handle's, or one of the descriptor's transient slots by number. -/
def State.fetchKey (s : State) (f : Fetch) : KeySel :=
  if f.trans then .trans ((f.desc.bind s.desc).bind fun r => r.trans[f.index]?)
  else .handle (f.index + at' f.gen.toNat 24)

/-- A fetch's checks, as a computation that may have to wait for a vault page (03 R85). -/
def State.runFetch (s : State) (f : Fetch) : Except Stop (Nat × Slot) × State :=
  runV (fetchNow (s.pageOpnd (targetWho f.tgt) (f.desc.elim 0 (· + 1)) f.part) (s.fetchKey f) f.req) s

end Sys2Proof.Machine
end

