-- ==== Sys2Proof/Machine/CipherPages.lean ====
section
/-! DEFINITION. Cipher engine pages (07 R187 to R204): the requests of Table 7.5 as written to OP, when they enter the
arbiter, and what each leaves when its checked blocks have run. -/

namespace Sys2Proof.Machine

/-! ### The OP word (Table 7.3) -/

def OpReq.kb (q : OpReq) : Bool := q.word.getLsbD 8
def OpReq.last (q : OpReq) : Bool := q.word.getLsbD 9
def OpReq.src (q : OpReq) : Nat := bits q.word.toNat 10 2
def OpReq.dst (q : OpReq) : Nat := bits q.word.toNat 12 2
def OpReq.boff (q : OpReq) : Nat := bits q.word.toNat 14 2

/-- The operations that take COUNT; the others are one block (notes/assumptions/35.md). -/
def countedOps : List Nat := [0x10, 0x11, 0x12, 0x13, 0x21, 0x32, 0x33]

/-- Blocks of the request: COUNT, where 0 means 65,536. -/
def OpReq.count (q : OpReq) : Nat :=
  if countedOps.contains q.code.toNat then (if bits q.word.toNat 16 16 = 0 then 65536 else bits q.word.toNat 16 16) else 1

/-- A chain's running data and key register. -/
def Chain.reg : Chain → List Bool
  | .none => []
  | .mac kb _ => [kb]
  | .gcm _ kb _ _ _ => [kb]

def Chain.isMac : Chain → Bool
  | .mac .. => true
  | _ => false

def Chain.isGcm : Chain → Bool
  | .gcm .. => true
  | _ => false

def defaultOps : List Nat :=
  [0x10, 0x11, 0x12, 0x13, 0x14, 0x15, 0x16, 0x17, 0x20, 0x21, 0x22, 0x23, 0x30, 0x31, 0x32, 0x33, 0x34, 0x35, 0x40, 0x41, 0x42, 0x43, 0x44]

/-- The request is one its engine runs (Tables 7.3, 7.5, 7.8; R190): anything else ends in FAULT. -/
def OpReq.formOk (q : OpReq) (e : Nat) (x : CPage) : Bool :=
  let c := q.code.toNat
  if !defaultOps.contains c then false
  else if e = 2 ∧ 0x30 ≤ c then false
  else if c = 0x10 ∨ c = 0x11 then q.src != 3 && (e != 2 || decide (2 ≤ q.dst))
  else if c = 0x12 then decide (q.dst ≤ 1 ∧ q.count ≤ 4)
  else if c = 0x13 then decide (q.src ≤ 1 ∧ q.count ≤ 4)
  else if c = 0x20 then decide (x.macalg.toNat ≤ 1 ∨ x.macalg.toNat = 2 ∧ e ≠ 2)
  else if c = 0x21 then q.src != 3 && x.chain.isMac
  else if c = 0x22 ∨ c = 0x23 then x.chain.isMac
  else if c = 0x32 then q.src != 3 && x.chain.isGcm
  else if c = 0x33 then decide (q.src ≤ 1 ∧ q.dst ≤ 1) && x.chain.isGcm
  else if c = 0x34 then decide (q.dst ≤ 1) && x.chain.isGcm
  else if c = 0x35 then x.chain.isGcm
  else true

/-- The key registers a request needs, by KB (R189). -/
def OpReq.needs (q : OpReq) (x : CPage) : List Bool :=
  let c := q.code.toNat
  if c = 0x14 ∨ c = 0x17 then []
  else if c = 0x16 then [false]
  else if (0x21 ≤ c ∧ c ≤ 0x23) ∨ (0x32 ≤ c ∧ c ≤ 0x35) then x.chain.reg
  else [q.kb]

def CPage.reg (x : CPage) (kb : Bool) : KeyReg1 := if kb then x.kb else x.ka

/-! ### A page's state -/

/-- The page ends its request in FAULT: its key buffer and PINF are zeroed (R195). -/
def CPage.faulted (x : CPage) : CPage :=
  { x with state := .fault, req := none, entered := false, kbuf := [], pinf := none, result := [], chain := .none }

/-- The request ends in REFUSED with a status. -/
def CPage.refused (x : CPage) (st : Word16) : CPage :=
  { x with state := .refused, req := none, entered := false, kstat := st }

def State.pageFault (s : State) (k : Nat) : State := s.setCpage k (s.cpage k).faulted

/-- Misuse of an engine: FAULT, and the descriptor completes ENGINE_FAULT (R190, Tables 7.5, 7.8; notes/assumptions/65.md). -/
def State.pageMisuse (s : State) (k : Nat) : State :=
  let d := (s.cpage k).desc
  let s := s.pageFault k
  if d = 0 then s else s.endWith (d - 1) stEngine

def State.pageRefused (s : State) (k : Nat) (st : Word16) : State := s.setCpage k ((s.cpage k).refused st)

/-- The page's holder. -/
def CPage.who (x : CPage) : Nat := x.holder - 1

/-- The request enters its input of the cluster's arbiter (10 R247). -/
def State.enterPage (s : State) (k : Nat) (q : OpReq) : State :=
  let x := s.cpage k
  let s := s.setCpage k { x with state := .busy, entered := true }
  s.enterReq (pkCl k) (pkEng k) x.who (s.fwdMark x.who) { who := x.who, part := pkPart k, page := pkPage k, count := q.count }

/-- GCM encryption and GMAC generation consume an invocation counter (R199): a GMAC chain at its end (notes/assumptions/88.md). -/
def OpReq.takesNonce (q : OpReq) (x : CPage) : Bool := q.code == 0x30 || (q.code == 0x22 && x.macalg == 2)

/-- Why the slot that a register's key came from no longer passes the checks of its fetch (03 R74). -/
def State.nonceRefusal (s : State) (p : Nat) (x : Slot) (role : Word16) (i : Nat) : Option Word16 :=
  let y := s.slot i
  if y.gen ≠ x.gen ∨ y.alg ≠ x.alg then some stStale
  else
    match s.fetchStatus y p none { cls := [1], fam := 0, mode := role.toNat, algs := [x.alg.toNat] } with
    | .error st => some st
    | .ok _ => none

/-- A request that takes an invocation counter (R199, R201; 03 R74): it enters, or ends REFUSED, or waits for the reserve or for the
slot's vault page. -/
def State.startNonce (s : State) (k : Nat) (q : OpReq) : State :=
  let x := s.cpage k
  match x.reg ((q.needs x).headD q.kb) with
  | .held y role i _ =>
    match s.nonceRefusal (pkPart k) y role i with
    | some st => s.pageRefused k st
    | none =>
      match runV (takeNonce i) s with
      | (.ok n, t) =>
        let b := nonceBytes t (pkPart k) (2 * pkCl k + pkEng k) n
        (t.setCpage k { t.cpage k with nonce := b, nonceLocked := true }).enterPage k q
      | (.error (.fail st _), t) => t.pageRefused k st
      | (.error (.park l n), _) => (s.setCpage k { x with state := .wait }).want l n
      | (.error _, _) => (s.raiseReserve i ((s.slot i).nonce.toNat + 1)).setCpage k { x with state := .wait }
  | _ => s.pageMisuse k

/-- The request goes as far as its keys and its input let it (R189; 10 R247): it waits for a fetch in flight, ends REFUSED where a key
it needs was refused, and in FAULT where a register holds none; BUF_UNWRAP waits for the block behind its IV. -/
def State.tryStart (s : State) (k : Nat) : State :=
  let x := s.cpage k
  match x.req with
  | none => s
  | some q =>
    if x.entered || x.state != .busy then s
    else
      let regs := (q.needs x).map x.reg
      match regs.findSome? (fun r => match r with | .refused st => some st | _ => none) with
      | some st => s.pageRefused k st
      | none =>
        if regs.any (· == .inFlight) then s
        else if !regs.all KeyReg1.filled then s.pageMisuse k
        else if q.code = 0x13 ∧ q.src = 0 ∧ x.feed = [] then s
        else if q.takesNonce x then s.startNonce k q
        else s.enterPage k q

/-- OP is written (R189, R191): ignored while BUSY or WAIT; results read as not ready from here on. -/
def State.writeOp (s : State) (a : PageAddr) (code : Byte) (w : Word32) : State :=
  match s.heldPage a with
  | none => s
  | some k =>
    let x := s.cpage k
    if x.state = .busy ∨ x.state = .wait then s
    else
      let q : OpReq := { code := code, word := w }
      let x := { x with state := .busy, req := some q, entered := false, first := x.din, feed := [], result := [], verdict := 0,
                        vcheck := 0, progress := 0 }
      if q.formOk (pkEng k) x then ((s.setCpage k x).tryStart k).after else ((s.setCpage k x).pageMisuse k).after

/-! ### Input and output of a request -/

/-- The request's input in blocks of n bytes; none while it has not all come. The last block of a chain's last request
has TAIL bytes (Table 7.3; notes/assumptions/35.md). -/
def CPage.input (x : CPage) (q : OpReq) (n : Nat) (dm : Bytes) : Option Bytes :=
  let full := n * q.count
  let len := if q.last ∧ x.tail ≠ 0 ∧ 0x20 ≤ q.code.toNat then full - n + min n x.tail.toNat else full
  let src := if q.src = 1 then dm else if q.src = 2 then (fit 64 x.kbuf).drop (16 * q.boff)
    else if q.code = 0x13 then x.feed else fit n x.first ++ x.feed
  if src.length < len then none else some (src.take len)

/-- A key buffer with bytes written from block boff on. -/
def CPage.fillBuf (x : CPage) (boff : Nat) (b : Bytes) : CPage := { x with kbuf := putAt (fit 64 x.kbuf) (16 * boff) b }

/-- Bytes fit into the key buffer from block boff on. -/
def bufFits (boff len : Nat) : Bool := decide (16 * boff + len ≤ 64)

/-- Misuse of an engine ends the request in FAULT. -/
def misuse {α : Type} : V α := failV stEngine

/-- The input, while there is one; input past the key buffer is misuse. -/
def pageInput (x : CPage) (q : OpReq) (n : Nat) (dm : Bytes) : V Bytes := do
  if q.src = 2 ∧ !bufFits q.boff (n * q.count) then misuse
  else
    match x.input q n dm with
    | some b => pure b
    | none => stopV (.wait .queued)

/-- Output to DST (Table 7.3). -/
def pageOutput (x : CPage) (q : OpReq) (n : Nat) (b : Bytes) : V CPage := do
  if q.dst = 0 then pure { x with result := b.drop (b.length - min n b.length) }
  else if q.dst = 1 then pure { x with dm := b }
  else if q.dst = 2 then do
    if bufFits q.boff b.length then pure (x.fillBuf q.boff b) else misuse
  else pure x

/-- VERDICT and VCHECK (R197). -/
def CPage.judge (x : CPage) (equal : Bool) : CPage :=
  { x with verdict := if equal then 0x9669 else 0x3CC3, vcheck := if equal then 0x6996 else 0xC33C }

/-- The verdict of MAC_VER or GCM_TAG_VER: equal, it lets unwrapped material be stored (R196). -/
def CPage.proved (x : CPage) (equal : Bool) : CPage := { x.judge equal with unproved := x.unproved && !equal }

/-- The key of a register: algorithm, bytes, slot and role. -/
def keyOf (r : KeyReg1) : V (Nat × Bytes × Nat × Word16) :=
  match r with
  | .held x role slot _ => pure (x.alg.toNat, x.key, slot, role)
  | _ => misuse

/-- The slot and image of a register's key. -/
def sourceOf (r : KeyReg1) : V (Nat × Slot) :=
  match r with
  | .held x _ slot _ => pure (slot, x)
  | _ => misuse

/-! ### MACs (R193, Table 7.5) -/

/-- The whole MAC of a chain: CMAC, ISO 9797-1 algorithm 3 by PAD, or GMAC under the page's nonce. -/
def chainMac (x : CPage) (alg : Nat) (key data : Bytes) : Bytes :=
  if x.macalg = 0 then Config.take (algBlock alg) (Config.cmac alg key data)
  else if x.macalg = 1 then Config.take 8 (Config.retailMac x.pad.toNat key data)
  else gcmTag alg key x.nonce data [] 16

/-- The chain's MAC, and the page with the chain ended. -/
def endMac (x : CPage) : V (CPage × Bytes) := do
  match x.chain with
  | .mac kb data =>
    let (alg, key, _, _) ← keyOf (x.reg kb)
    let m := chainMac x alg key data
    if m.length < x.tlen.toNat then misuse else pure ({ x with chain := .none }, m.take x.tlen.toNat)
  | _ => misuse

/-- The chain's GCM tag, and the page with the chain ended. -/
def endGcm (x : CPage) : V (CPage × Bytes) := do
  match x.chain with
  | .gcm _ kb nonce aad ct =>
    let (alg, key, _, _) ← keyOf (x.reg kb)
    if 16 < x.tlen.toNat then misuse else pure ({ x with chain := .none }, gcmTag alg key nonce aad ct x.tlen.toNat)
  | _ => misuse

/-! ### The operations, each from its page to its page -/

def runBlockOp (enciph : Bool) (x : CPage) (q : OpReq) (dm : Bytes) : V CPage := do
  let (alg, key, _, _) ← keyOf (x.reg q.kb)
  let n := algBlock alg
  let b ← pageInput x q n dm
  pageOutput x q n (if enciph then ecbEnc alg key b else ecbDec alg key b)

def runBufWrap (x : CPage) (q : OpReq) : V CPage := do
  let (alg, key, _, _) ← keyOf (x.reg q.kb)
  let n := algBlock alg
  if !bufFits q.boff (n * q.count) then misuse
  else pageOutput x q n (cbcEnc alg key (fit n x.first) (slice (fit 64 x.kbuf) (16 * q.boff) (n * q.count)))

def runBufUnwrap (x : CPage) (q : OpReq) (dm : Bytes) : V CPage := do
  let (alg, key, _, _) ← keyOf (x.reg q.kb)
  let n := algBlock alg
  let b ← pageInput x q n dm
  if !bufFits q.boff b.length then misuse
  else pure { x.fillBuf q.boff (cbcDec alg key (fit n x.first) b) with unproved := true }

/-- From the byte DIN byte 0 names on, as many as DIN byte 15 says (notes/assumptions/35.md). -/
def runBufRandom (o : Opnd) (x : CPage) (q : OpReq) : V CPage := do
  let off := (byteAt x.first 0).toNat
  let n := (byteAt x.first 15).toNat
  if 16 < off + n then misuse
  else
    let r ← random o n
    pure { x with kbuf := putAt (fit 64 x.kbuf) (16 * q.boff + off) r }

/-- Only a key whose fetch required EXPORTABLE enters the buffer. -/
def runBufLoad (x : CPage) (q : OpReq) : V CPage := do
  let (alg, key, _, role) ← keyOf (x.reg q.kb)
  let b := fit (algLen alg) key
  if !role.getLsbD 15 || !bufFits q.boff b.length then misuse else pure (x.fillBuf q.boff b)

def runBufXor (x : CPage) (q : OpReq) : V CPage :=
  pure (x.fillBuf q.boff (xorBytes (slice (fit 64 x.kbuf) (16 * q.boff) 16) (fit 16 x.first)))

/-- The operands of a store that 16 bytes declare: a persistent index, or bit 15 of DEST set and one of the descriptor's transient
slots. A CLASS that its ALG does not permit refuses the write (03 R63); class SIGN is the Warden's to write, in clear (04 R92). -/
def declaredDest (o : Opnd) (warden : Bool) (decl : Bytes) : V Opnd := do
  let (dest, d) := keyDecl (fit 16 decl)
  let s ← getV
  let held := ((s.desc o.d).map (·.trans)).getD []
  let o := if bit dest 15 then { o with keyOut := held[dest % 8]? } else o
  if leAt (fit 16 decl) 12 4 ≠ 0 ∨ (bit dest 15 ∧ o.keyOut.isNone) then misuse
  else
    need (classPermitted d.alg d.cls) stUsage
    if d.cls = 2 ∧ !warden then misuse else pure o

/-- The key declared in 16 bytes goes to its slot, linked to the source that the register's key was fetched from (R196; 08 R216; 09
R233). -/
def storeDeclared (o : Opnd) (src : KeyReg1) (warden : Bool) (decl key : Bytes) : V Unit := do
  let (dest, d) := keyDecl (fit 16 decl)
  let o ← declaredDest o warden decl
  let a ← storeKey o dest (← sourceOf src) d key
  if a.durable then modV fun s => s.modDesc o.d fun r => { r with durable := true } else pure ()

/-- The result of a digest context goes to its slot: linked to its source, or, from an operation without a source key, under the
partition's anchor (09 R233). -/
def storeResult (o : Opnd) (src : KeyReg1) (warden : Bool) (decl key : Bytes) : V Unit := do
  if src ≠ .empty then storeDeclared o src warden decl key
  else
    let (dest, d) := keyDecl (fit 16 decl)
    let o ← declaredDest o warden decl
    let a ← storeUnlinked o dest d (fit (algLen d.alg) key)
    if a.durable then modV fun s => s.modDesc o.d fun r => { r with durable := true } else pure ()

def runBufStore (o : Opnd) (x : CPage) : V CPage := do
  if x.unproved then failV stAuth
  else
    storeDeclared o x.ka (x.who == 64) x.first (fit 64 x.kbuf)
    pure x

def runMacInit (x : CPage) (q : OpReq) : V CPage := do
  let (alg, _, _, _) ← keyOf (x.reg q.kb)
  if x.macalg = 2 ∧ 3 < alg then misuse else pure { x with chain := .mac q.kb [] }

def runMacUpdate (x : CPage) (q : OpReq) (dm : Bytes) : V CPage := do
  match x.chain with
  | .mac kb data =>
    let (alg, _, _, _) ← keyOf (x.reg kb)
    let b ← pageInput x q (algBlock alg) dm
    pure { x with chain := .mac kb (data ++ b) }
  | _ => misuse

def runMacGen (x : CPage) : V CPage := do
  let (x, m) ← endMac x
  pure { x with result := m }

def runMacVer (x : CPage) : V CPage := do
  let (x, m) ← endMac x
  pure (x.proved (m == x.first.take x.tlen.toNat))

def runGcmInit (enciph : Bool) (x : CPage) (q : OpReq) : V CPage := do
  let (alg, _, _, _) ← keyOf (x.reg q.kb)
  if 3 < alg then misuse
  else pure { x with chain := .gcm enciph q.kb (fit 12 x.nonce) [] [], aadBytes := 0, textBytes := 0 }

def runGcmAad (x : CPage) (q : OpReq) (dm : Bytes) : V CPage := do
  match x.chain with
  | .gcm e kb nonce aad ct =>
    let b ← pageInput x q 16 dm
    pure { x with chain := .gcm e kb nonce (aad ++ b) ct, aadBytes := x.aadBytes + BitVec.ofNat 64 b.length }
  | _ => misuse

/-- Text blocks; at most 2^32 - 2 in a chain (R202). -/
def runGcmText (x : CPage) (q : OpReq) (dm : Bytes) : V CPage := do
  match x.chain with
  | .gcm e kb nonce aad ct =>
    let (alg, key, _, _) ← keyOf (x.reg kb)
    let b ← pageInput x q 16 dm
    if 2 ^ 32 - 2 < (ct.length + b.length + 15) / 16 then misuse
    else
      let out := (gcmCrypt alg key nonce (zeros ct.length ++ b)).drop ct.length
      let x := { x with chain := .gcm e kb nonce aad (ct ++ if e then out else b), textBytes := x.textBytes + BitVec.ofNat 64 b.length }
      pageOutput x q 16 out
  | _ => misuse

def runGcmTagGen (x : CPage) (q : OpReq) : V CPage := do
  let (x, t) ← endGcm x
  pageOutput x q 16 t

def runGcmTagVer (x : CPage) : V CPage := do
  let (x, t) ← endGcm x
  pure (x.proved (t == x.first.take x.tlen.toNat))

/-- A PIN format that exists and whose blocks the key's algorithm enciphers (04 Table 4.3). -/
def pinFmtOk (fmt alg : Nat) : Bool := (fmt == 0 || fmt == 1 || fmt == 3 || fmt == 4) && pinBlockSize fmt == algBlock alg

def runPinOpen (x : CPage) (q : OpReq) : V CPage := do
  let (alg, key, _, _) ← keyOf (x.reg q.kb)
  let f := x.pinIn.toNat
  if !pinFmtOk f alg then misuse
  else
    let field := openField f alg key (fit (pinBlockSize f) x.first) (fit 16 x.pan)
    pure ({ x with pinf := some field }.judge (pinOfField f (nibbles field)).isSome)

/-- The digits of the PIN field that PINF holds. -/
def heldPin (x : CPage) : V (List Nat) :=
  match x.pinf.bind fun f => pinOfField x.pinIn.toNat (nibbles f) with
  | some d => pure d
  | none => misuse

def runPinSeal (o : Opnd) (x : CPage) (q : OpReq) : V CPage := do
  let (alg, key, _, _) ← keyOf (x.reg q.kb)
  let f := x.pinOut.toNat
  if !pinFmtOk f alg then misuse
  else
    let d ← heldPin x
    let rnd ← if fmtRandom f then random o 8 else pure []
    pure { x with result := sealField f alg key (buildField f d rnd) (fit 16 x.pan), pinf := none }

def runPinRef (x : CPage) (q : OpReq) : V CPage := do
  let (alg, key, _, _) ← keyOf (x.reg q.kb)
  if 3 < alg then misuse
  else
    let d ← heldPin x
    pure (x.fillBuf 0 (refValue alg key d (fit 16 x.pan)))

/-- The PIN reference record of the page's reference key and account number (06 R161). -/
def pageRef (o : Opnd) (x : CPage) (q : OpReq) : V (Nat × Option Nat) := do
  let (_, _, i, _) ← keyOf (x.reg q.kb)
  let r ← findRef { o with inp := fit 16 x.pan } i
  pure (i, r)

def runRefVer (o : Opnd) (x : CPage) (q : OpReq) : V CPage := do
  let (_, r) ← pageRef o x q
  match r with
  | none => failV stMissing
  | some r =>
    let b ← getRec (r / 32) (r % 32)
    pure { x.judge (slice b 0x30 16 == (fit 64 x.kbuf).take 16) with pinf := none }

def runRefPut (o : Opnd) (x : CPage) (q : OpReq) : V CPage := do
  let (i, r) ← pageRef o x q
  let s ← getV
  let b := refBytes o.p i (s.slot i).gen.toNat (fit 16 x.pan) ((fit 64 x.kbuf).take 16)
  match r with
  | some r => putRecV (r / 32) (r % 32) b
  | none =>
    let _ ← newIndexed o.p 2 (toLE 2 i ++ fit 16 x.pan) b
    pure ()
  modV fun s => s.modDesc o.d fun r => { r with durable := true }
  pure { x with pinf := none }

/-- What a request makes of its page. -/
def runOp (o : Opnd) (x : CPage) (q : OpReq) (dm : Bytes) : V CPage :=
  match q.code.toNat with
  | 0x10 => runBlockOp true x q dm
  | 0x11 => runBlockOp false x q dm
  | 0x12 => runBufWrap x q
  | 0x13 => runBufUnwrap x q dm
  | 0x14 => runBufRandom o x q
  | 0x15 => runBufLoad x q
  | 0x16 => runBufStore o x
  | 0x17 => runBufXor x q
  | 0x20 => runMacInit x q
  | 0x21 => runMacUpdate x q dm
  | 0x22 => runMacGen x
  | 0x23 => runMacVer x
  | 0x30 => runGcmInit true x q
  | 0x31 => runGcmInit false x q
  | 0x32 => runGcmAad x q dm
  | 0x33 => runGcmText x q dm
  | 0x34 => runGcmTagGen x q
  | 0x35 => runGcmTagVer x
  | 0x40 => runPinOpen x q
  | 0x41 => runPinSeal o x q
  | 0x42 => runPinRef x q
  | 0x43 => runRefVer o x q
  | 0x44 => runRefPut o x q
  | _ => misuse

/-! ### The end of a request -/

def Req.ofPage (k : Nat) (q : Req) : Bool := q.part == pkPart k && q.page == pkPage k

/-- The arbiter runs a block of page k's request, or has run one. -/
def State.granted (s : State) (k : Nat) : Bool :=
  (s.cpage k).progress != 0 || ((s.arb (pkCl k)).engine (pkEng k)).owner.any fun o => o.2.ofPage k

/-- A failed check (R195): FAULT, counted, and the descriptor completes ENGINE_FAULT. -/
def State.checkFails (s : State) (k : Nat) : State :=
  let d := (s.cpage k).desc
  let s := s.endReq (pkCl k) (pkEng k) fun q => q.ofPage k
  let s := ((s.pageFault k).countBlocks (pkCl k) (pkEng k) ((s.cpage k).progress.toNat + 1)).countFault (4 * pkCl k + pkEng k)
  if d = 0 then s else s.finish (d - 1) stEngine

/-- The blocks have run and their checks have passed: the page's outcome. -/
def State.requestEnds (s : State) (k : Nat) (q : OpReq) (dm : Bytes) : State :=
  let x := s.cpage k
  match runV (runOp (s.pageOpnd x.who x.desc (pkPart k)) x q dm) s with
  | (.ok y, t) =>
    let t := t.endReq (pkCl k) (pkEng k) fun q => q.ofPage k
    (t.setCpage k { y with state := .ready, req := none, entered := false, revoked := (t.cpage k).revoked }).countBlocks
      (pkCl k) (pkEng k) q.count
  | (.error (.fail st _), t) =>
    let t := (t.endReq (pkCl k) (pkEng k) fun q => q.ofPage k).countBlocks (pkCl k) (pkEng k) q.count
    if st = stEngine then t.pageMisuse k
    else if st = stAuth then
      let t := t.pageFault k
      if x.desc = 0 then t else t.endWith (x.desc - 1) stAuth
    else t.pageRefused k st
  | (.error (.park l n), _) => s.want l n
  | (.error _, _) => s

/-- ENGINE_REQUEST_DONE (R193 to R195): dm is what the DM streamed in. -/
def execEngineRequestDone (a : PageAddr) (dm : Bytes) (chk : Bool) (s : State) : Out :=
  answer s <|
    match s.heldPage a with
    | none => s
    | some k =>
      let x := s.cpage k
      match x.req with
      | none => s
      | some q =>
        if x.state != .busy || !x.entered then s
        else if !chk then (if s.granted k then (s.checkFails k).after else s)
        else if x.progress.toNat < q.count then s
        else (s.requestEnds k q dm).after

/-! ### Waits for the nonce reserve (R201) -/

def execNonceWaitResume (a : PageAddr) (s : State) : Out :=
  answer s <|
    match s.heldPage a with
    | none => s
    | some k =>
      match (s.cpage k).req with
      | some q => if (s.cpage k).state = .wait then (s.startNonce k q).after else s
      | none => s

def execNonceWaitTimeout (a : PageAddr) (s : State) : Out :=
  answer s <|
    match s.heldPage a with
    | none => s
    | some k => if (s.cpage k).state = .wait then s.pageRefused k stPageTimeout else s

/-! ### The rows of Table 7.5: each writes its code to OP -/

def execEnc (a : PageAddr) (w : Word32) (s : State) : Out := answer s (s.writeOp a 0x10 w)
def execDec (a : PageAddr) (w : Word32) (s : State) : Out := answer s (s.writeOp a 0x11 w)
def execBufWrap (a : PageAddr) (w : Word32) (s : State) : Out := answer s (s.writeOp a 0x12 w)
def execBufUnwrap (a : PageAddr) (w : Word32) (s : State) : Out := answer s (s.writeOp a 0x13 w)
def execBufRandom (a : PageAddr) (w : Word32) (s : State) : Out := answer s (s.writeOp a 0x14 w)
def execBufLoad (a : PageAddr) (w : Word32) (s : State) : Out := answer s (s.writeOp a 0x15 w)
def execBufStore (a : PageAddr) (w : Word32) (s : State) : Out := answer s (s.writeOp a 0x16 w)
def execBufXor (a : PageAddr) (w : Word32) (s : State) : Out := answer s (s.writeOp a 0x17 w)
def execMacInit (a : PageAddr) (w : Word32) (s : State) : Out := answer s (s.writeOp a 0x20 w)
def execMacUpdate (a : PageAddr) (w : Word32) (s : State) : Out := answer s (s.writeOp a 0x21 w)
def execMacGen (a : PageAddr) (w : Word32) (s : State) : Out := answer s (s.writeOp a 0x22 w)
def execMacVer (a : PageAddr) (w : Word32) (s : State) : Out := answer s (s.writeOp a 0x23 w)
def execGcmInitEnc (a : PageAddr) (w : Word32) (s : State) : Out := answer s (s.writeOp a 0x30 w)
def execGcmInitDec (a : PageAddr) (w : Word32) (s : State) : Out := answer s (s.writeOp a 0x31 w)
def execGcmAad (a : PageAddr) (w : Word32) (s : State) : Out := answer s (s.writeOp a 0x32 w)
def execGcmText (a : PageAddr) (w : Word32) (s : State) : Out := answer s (s.writeOp a 0x33 w)
def execGcmTagGen (a : PageAddr) (w : Word32) (s : State) : Out := answer s (s.writeOp a 0x34 w)
def execGcmTagVer (a : PageAddr) (w : Word32) (s : State) : Out := answer s (s.writeOp a 0x35 w)
def execPinOpen (a : PageAddr) (w : Word32) (s : State) : Out := answer s (s.writeOp a 0x40 w)
def execPinSeal (a : PageAddr) (w : Word32) (s : State) : Out := answer s (s.writeOp a 0x41 w)
def execPinRef (a : PageAddr) (w : Word32) (s : State) : Out := answer s (s.writeOp a 0x42 w)
def execRefVer (a : PageAddr) (w : Word32) (s : State) : Out := answer s (s.writeOp a 0x43 w)
def execRefPut (a : PageAddr) (w : Word32) (s : State) : Out := answer s (s.writeOp a 0x44 w)

end Sys2Proof.Machine
end

