-- ==== Sys2Proof/Machine/Gates.lean ====
section
/-! DEFINITION. Commits of the gates' regions and fences (13 R316, R317, R321, R322, R327). -/

namespace Sys2Proof.Machine

/-! ### Commits (R316, R317, R321, R327) -/

/-- Identity 80's mask bits read 0 outside Blank. -/
def State.dbgMask (s : State) (m : BitVec 128) : BitVec 128 :=
  if s.life.st = .blank then m else m &&& ~~~(BitVec.ofNat 128 (2 ^ 80))

/-- The region that a write of CTRL commits with the staged copy. -/
def State.committed (s : State) (g r : Nat) (ctrl : Word32) : Region :=
  let st : Region := mget (s.gateOf g).staged r {}
  let x : Region := { sizeExp := BitVec.ofNat 6 ctrl.toNat, valid := ctrl.getLsbD 8, base := st.base,
                      rd := g == 0 && ctrl.getLsbD 10, wr := g == 0 && ctrl.getLsbD 11,
                      rmask := if g = 0 then 0 else s.dbgMask st.rmask, wmask := if g = 0 then 0 else s.dbgMask st.wmask }
  { x with bad := x.malformed }

/-- Regions of gate g: 256 of GATE_HOST, 64 of the others. -/
def gateRegions (g : Nat) : Nat := if g = 0 then 256 else 64

def State.regionCommit (s : State) (g r : Nat) (ctrl : Word32) : State :=
  if gateRegions g ≤ r then s
  else
    let x := s.committed g r ctrl
    let y := s.gateOf g
    s.setGate g { y with regions := mset y.regions r x, epoch := y.epoch + 1, ruleErr := y.ruleErr || x.bad }

/-- REGION_COMMIT (R316, R321). -/
def execRegionCommit (g : Fin 6) (r : Byte) (ctrl : Word32) (s : State) : Out := answer s (s.regionCommit g.val r.toNat ctrl)

/-! ### Fences (R322) -/

/-- FENCE_GO samples EPOCH; one written during a fence extends it. -/
def execFenceGo (g : Fin 6) (s : State) : Out :=
  let x := s.gateOf g.val
  answer s (s.setGate g.val { x with fenceBusy := true, fenceEpoch := x.epoch })

/-- FENCE_DONE: every access checked under an earlier EPOCH has retired. -/
def execFenceDone (g : Fin 6) (s : State) : Out := answer s (s.setGate g.val { s.gateOf g.val with fenceBusy := false })

end Sys2Proof.Machine
end

