-- ==== Sys2Proof/Machine/Board.lean ====
section
/-! DEFINITION. The board controller's requests over SMBus (18 R422, Table 18.5), and the virtual functions the host enables
through SR-IOV (02 R56). A response's fields stand in the order of its row, little-endian (notes/assumptions/40.md). -/

namespace Sys2Proof.Machine

/-- The interface is served from the end of boot step 1 on. -/
def State.smbServed (s : State) : Bool := s.life.mainPower && s.life.sysRstN

/-- A request's response; reading clears the item's new bit. -/
def State.respond (s : State) (code : Nat) (b : Bytes) : State :=
  if !s.smbServed then s
  else
    { s with host := { s.host with smbResp := b },
             life := { s.life with newItems := s.life.newItems &&& ~~~(BitVec.ofNat 8 (2 ^ code)) } }

def State.identity (s : State) : Bytes :=
  toLE 8 Config.serial.toNat ++ [0xB0] ++ toLE 4 s.fwVersion.toNat
    ++ [BitVec.ofNat 8 (lcCode s.life.st).toNat, BitVec.ofNat 8 s.life.straps.toNat, BitVec.ofNat 8 (b2n s.life.fwNone)]

def execSmbIdentity (s : State) : Out := answer s (s.respond 1 s.identity)

/-- The nine TEMP sensors, as the board reads them now. -/
def execSmbTemperatures (temps : List Word16) (s : State) : Out :=
  answer s (s.respond 2 (fit 18 ((temps.take 9).flatMap fun t => toLE 2 t.toNat)))

def execSmbTally (s : State) : Out := answer s (s.respond 3 (toLE 2 s.tam.tally ++ [BitVec.ofNat 8 (b2n s.tam.pending)]))

/-- A log entry (12 Table 12.6). -/
def LogEntry.bytes (l : LogEntry) : Bytes :=
  let e := l.ev
  let b := toLE 4 l.seq.toNat ++ toLE 2 e.kinds.toNat
    ++ toLE 2 (e.cls.toNat + 16 * b2n e.onCell + 32 * b2n e.cellLost + 64 * b2n e.debug + 128 * b2n e.escalation + 256 * e.late.toNat)
    ++ [e.firstKind, e.firstInst] ++ toLE 2 (e.tbit.getD 0x1FFF) ++ toLE 4 (l.lcBefore.toNat + 16 * l.lcAfter.toNat)
    ++ toLE 8 (if e.onCell || e.cellLost then 0 else e.time.toNat)
  b ++ shake 8 b

/-- Entry i, 0 the newest; there is none beyond those kept. -/
def execSmbLog (i : Nat) (s : State) : Out := answer s (s.respond 4 ((s.tam.log[i]?).elim [] LogEntry.bytes))

def execSmbFreq (s : State) : Out := answer s (s.respond 5 s.freqReport)

/-- Code of a cluster state (15 Table 15.10). -/
def cstateCode : CState → Nat
  | .off => 0
  | .powering => 1
  | .testing => 3
  | .quiesced => 2
  | .serving => 4
  | .draining => 5
  | .failed => 6

def State.health (s : State) : Bytes :=
  [BitVec.ofNat 8 (b2n s.ent.fail), BitVec.ofNat 8 s.ent.failSrc.toNat, BitVec.ofNat 8 s.ent.failTest.toNat]
    ++ (List.range 36).flatMap (fun k => toLE 4 (mget s.eng.faults k 0).toNat)
    ++ (List.range 32).flatMap (fun p => toLE 4 (mget s.kr.corrupt p 0).toNat)
    ++ (List.range 8).flatMap (fun c => [BitVec.ofNat 8 (cstateCode (s.cst c)), BitVec.ofNat 8 (b2n (mget s.tam.lowMargin c false))])
    ++ toLE 2 s.pwr.repairs.length
    ++ s.pwr.repairs.flatMap (fun (r : Nat × Bool) => [BitVec.ofNat 8 r.1, BitVec.ofNat 8 (b2n r.2)])
    ++ toLE 4 s.vault.discards.toNat
    ++ (List.range 6).flatMap (fun g => toLE 4 (s.gateOf g).faults.toNat ++ toLE 4 (s.gateOf g).dbgFaults.toNat)
    ++ toLE 4 s.mesh.attestFails.toNat ++ toLE 4 s.life.tokenFails.toNat ++ [BitVec.ofNat 8 (b2n s.mesh.stale)]

def execSmbHealth (s : State) : Out := answer s (s.respond 6 s.health)

/-- SMB_ALERT_N: low while any new bit is set. -/
def State.smbAlertN (s : State) : Bool := s.life.newItems == 0

/-- The new bits of the other codes; reading clears nothing. -/
def execSmbAlerts (s : State) : Out :=
  answer s (if s.smbServed then { s with host := { s.host with smbResp := [BitVec.ofNat 8 s.life.newItems.toNat] } } else s)

/-! ### SR-IOV (02 R27, R56) -/

/-- A virtual function appears, with FN_READY 1 once the device has booted. -/
def State.vfAppears (s : State) (n : Nat) : State :=
  if (s.func n).present then s else s.setFunc n { s.func n with present := true, fnReady := s.life.boot == .done }

/-- A virtual function is removed. -/
def State.vfGoes (s : State) (n : Nat) : State :=
  if !(s.func n).present then s
  else (s.flr n).setFunc n { (s.flr n).func n with present := false, fnReady := false }

/-- SRIOV_VF_ENABLE: virtual functions 1 to n are enabled, and none beyond. -/
def execSriovVfEnable (n : Fn) (s : State) : Out :=
  answer s (((List.range 31).foldl (fun (s : State) i => if i + 1 ≤ n.val then s.vfAppears (i + 1) else s.vfGoes (i + 1)) s).after)

end Sys2Proof.Machine
end

