-- ==== Sys2Proof/Machine/DigestPages.lean ====
section
/-! DEFINITION. Digest pages (08): configuration and INIT, feeding, key absorption, FINAL and the delivery of its result,
the comparator, SAVE, and the end of each block. -/

namespace Sys2Proof.Machine

/-! ### Algorithms (Table 8.1) -/

def dgeBlock (algo : Nat) : Nat := ([0, 64, 128, 128, 136, 72, 168, 136] : List Nat).getD algo 0
def dgeOut (algo : Nat) : Nat := ([0, 32, 48, 64, 32, 64, 0, 0] : List Nat).getD algo 0

/-- Bytes of the result: OUT_LEN, or the full output. -/
def DPage.outBytes (x : DPage) : Nat := if x.outLen = 0 then dgeOut x.algo.toNat else x.outLen.toNat

def DPage.who (x : DPage) : Nat := x.holder - 1

/-! ### Requests to the engine (R211; 10 R247) -/

/-- The request of page k is no longer waiting, and all its blocks but the one that ends now have run. -/
def State.dgeRan (s : State) (k : Nat) : Bool :=
  let x := s.arb (dkCl k)
  let mine := fun q : Req => q.part == pkPart k && q.page == pkPage k
  (List.range 16).all (fun i => !(x.inputQ i 3).any mine)
    && (x.engine 3).owner.all fun o => !mine o.2 || decide (o.2.count ≤ o.2.done + 1)

/-- Its owner is done with the request: the next decision finds nothing more of it, and the core's next request enters. -/
def State.dgeSpent (s : State) (k : Nat) : State :=
  let x := s.arb (dkCl k)
  let y := x.engine 3
  match y.owner with
  | some (i, q) =>
    if q.part == pkPart k && q.page == pkPage k then s.setArb (dkCl k) (x.setEngine 3 { y with owner := some (i, { q with done := q.count }) })
    else s
  | none => s

/-- After the end of a block of page k: where the page asks for none itself, another page of its holder's takes the turn. -/
def State.turnOver (s : State) (k : Nat) : State := s.nextDge (dkCl k) (s.dpage k).who

/-! ### INIT (R210) -/

/-- The configuration is one INIT accepts. R210 refuses DEST 6 with SECRET 0, and R235 (09) sends a PAU context's digest from such a page:
mu says that the page's holder holds a context (DEDUCED, notes/assumptions/90.md). -/
def DPage.configOk (x : DPage) (mu : Bool) : Bool :=
  let full := dgeOut x.algo.toNat
  let n := x.outBytes
  x.algo != 0 && x.src != 3
    && !(x.algo.toNat ≤ 5 && decide (full < x.outLen.toNat)) && !(6 ≤ x.algo.toNat && x.outLen == 0)
    && !(x.dest == 0 && decide (64 < n))
    && !((x.dest == 2 || x.dest == 3) && (x.cmpLen == 0 || decide (64 < x.cmpLen.toNat) || decide (n < x.cmpLen.toNat)))
    && !((x.dest == 5 || x.dest == 6 && !mu) && !x.secret) && x.dest != 7
    && decide (x.saveAddr.toNat / 64 * 64 + 320 ≤ 2 ^ 18)

/-- A fresh context. -/
def DPage.fresh (x : DPage) : DPage :=
  { x with fed := 0, trunc := false, overrun := false, verdict := 0, vcheck := 0, cls := if x.secret then 2 else 0, whereSt := 3,
           saveSeq := x.saveSeq + 1, stream := [], keyed := 0, kmac := false, buf := [], result := [], blockBusy := false,
           pend := .none, entered := false, link := none, dm := [], waits := 0 }

/-- INIT accepts page k's configuration. -/
def State.initOk (s : State) (k : Nat) : Bool := (s.dpage k).configOk (s.heldCtx (s.dpage k).who).isSome

def State.dgeInit (s : State) (k : Nat) : State :=
  let x := s.dpage k
  if x.state = .busy then s
  else if x.state = .feeding then s.dpageMisuse k
  else
    let s := s.dropContext (dkCl k) (pkPart k) (pkPage k)
    let y := x.fresh
    if s.initOk k then s.setDpage k { y with state := .feeding } else (s.setDpage k y).dpageMisuse k

/-- DGE_INIT. -/
def execDgeInit (a : DgeAddr) (s : State) : Out := answer s ((s.heldDpage a).elim s fun k => s.dgeInit k)

/-! ### Feeding (R211, R212) -/

/-- Message bytes still wanted; a PAU's input ends when the PAU says so. -/
def DPage.wanted (x : DPage) : Nat := x.decl.toNat - x.fed.toNat

/-- One word taken into the buffer, cut at DECL_LEN. -/
def DPage.take (x : DPage) (b : Bytes) : DPage :=
  let b := b.take x.wanted
  let buf := x.buf ++ b
  { x with buf := buf, fed := x.fed + BitVec.ofNat 64 b.length, blockBusy := x.blockBusy || decide (dgeBlock x.algo.toNat ≤ buf.length) }

/-- A word for a page that accepts one: past DECL_LEN it is discarded and sets TRUNC. A full buffer requests the engine. -/
def State.feedWord (s : State) (k : Nat) (b : Bytes) : State :=
  let x := s.dpage k
  if x.wanted = 0 then s.setDpage k { x with trunc := true }
  else
    let y := x.take b
    let s := s.setDpage k y
    if y.blockBusy && !x.blockBusy then s.enterDge k 1 else s

/-- DGE_DATA_WRITE (R211): a core's word while BUSY is 1 is discarded and sets OVERRUN; the DM waits on BUSY itself. -/
def execDgeDataWrite (a : DgeAddr) (w : Word32) (s : State) : Out :=
  answer s <|
    match s.heldDpage a with
    | none => s
    | some k =>
      let x := s.dpage k
      if x.state = .feeding ∧ !x.blockBusy then
        if 2 ≤ x.src.toNat then s else (s.feedWord k (toLE 4 w.toNat)).after
      else if x.src = 0 then s.setDpage k { x with overrun := true }
      else s

/-! ### Keys (R213, R214) -/

/-- right_encode and left_encode lengths of SP 800-185 (values below 2^16). -/
def leftEncode (v : Nat) : Bytes := if v < 256 then [1, BitVec.ofNat 8 v] else 2 :: toBE 2 v

def encodeString (b : Bytes) : Bytes := leftEncode (8 * b.length) ++ b

/-- bytepad of SP 800-185. -/
def bytepad (b : Bytes) (w : Nat) : Bytes :=
  let z := leftEncode w ++ b
  z ++ zeros ((w - z.length % w) % w)

/-- The bytes a key puts at the head of the stream (Table 8.6); none for a reserved framing, and for KMAC over an algorithm
that is no SHAKE (notes/assumptions/36.md). -/
def DPage.framedKey (x : DPage) (key : Bytes) : Option Bytes :=
  let n := dgeBlock x.algo.toNat
  if x.frame = 0 then some ((fit n key).map (· ^^^ x.padc))
  else if x.frame = 1 then
    if x.algo.toNat < 6 then none
    else some (bytepad (encodeString (ascii "KMAC") ++ encodeString []) n ++ bytepad (encodeString key) n)
  else if x.frame = 2 then some key
  else none

/-- The release class after the key (R214). -/
def DPage.keyedClass (x : DPage) (role : Word16) : BitVec 2 :=
  if (x.frame = 1 ∨ (x.frame = 0 ∧ x.padc = 0x5C)) ∧ role.getLsbD 11 then 1 else 2

/-- A whole block is in the buffer. -/
def DPage.full (x : DPage) : Bool := decide (dgeBlock x.algo.toNat ≤ x.buf.length)

/-- The framed key enters at the head of the stream; its bytes do not count in FED. -/
def DPage.takeKey (x : DPage) (y : Slot) (role : Word16) : DPage :=
  let b := (x.framedKey (fit (algLen y.alg.toNat) y.key)).getD []
  { x with buf := b, keyed := b.length, kmac := x.frame == 1, cls := x.keyedClass role }

/-- The page's buffer holds a block: one request absorbs it. Without one, KEY_ABSORB is over. -/
def State.absorbNext (s : State) (k : Nat) : State :=
  let x := s.dpage k
  if x.full then (s.setDpage k { x with blockBusy := true }).enterDge k 1
  else if x.pend = .keyAbsorb then s.setDpage k { x with state := .feeding, pend := .none }
  else s

/-- KEY_ABSORB goes on when its fetch has ended. -/
def State.tryAbsorb (s : State) (k : Nat) : State :=
  let x := s.dpage k
  if x.pend ≠ .keyAbsorb ∨ x.keyed ≠ 0 then s
  else
    match x.ka with
    | .inFlight => s
    | .refused st => s.setDpage k { x with state := .refused, pend := .none, kstat := st }
    | .empty => s.dpageMisuse k
    | .held y role _ _ => (s.setDpage k (x.takeKey y role)).absorbNext k

/-- KEY_ABSORB: only with SECRET 1 and FED 0, and only as the context's first key. -/
def State.keyAbsorb (s : State) (k : Nat) : State :=
  let x := s.dpage k
  if x.state = .busy then s
  else if x.state ≠ .feeding ∨ !x.secret ∨ x.fed ≠ 0 ∨ x.keyed ≠ 0 ∨ x.blockBusy ∨ (x.framedKey []).isNone then s.dpageMisuse k
  else (s.setDpage k { x with state := .busy, pend := .keyAbsorb, entered := false }).tryAbsorb k

def execKeyAbsorb (a : DgeAddr) (s : State) : Out := answer s ((s.heldDpage a).elim s fun k => (s.keyAbsorb k).after)

/-! ### FINAL (R212, R215) -/

/-- Blocks that FINAL takes: the padded rest, and one for each further block squeezed. -/
def DPage.finalBlocks (x : DPage) : Nat :=
  let n := dgeBlock x.algo.toNat
  let tail := if x.algo.toNat ≤ 3 then (if n < x.buf.length + 1 + (if x.algo = 1 then 8 else 16) then 2 else 1) else 1
  tail + (x.outBytes - 1) / n

/-- The class allows the destination (Table 8.5); DEST 5 needs a key or a PAU's secret in the context (R216). -/
def DPage.destAllowed (x : DPage) : Bool :=
  if x.dest = 0 ∨ x.dest = 1 then x.cls != 2 else if x.dest = 5 then x.cls != 0 && (x.keyed != 0 || x.link.isSome) else true

/-- FINAL's own checks: OVERRUN, a short message, and the destination. -/
def DPage.finalOk (x : DPage) : Bool := !x.overrun && (x.src == 2 || decide (x.decl.toNat ≤ x.fed.toNat)) && x.destAllowed

def State.dgeFinal (s : State) (k : Nat) : State :=
  let x := s.dpage k
  if x.state = .busy then s
  else if x.state ≠ .feeding ∨ !x.finalOk then s.dpageMisuse k
  else
    let s := (s.setDpage k { x with state := .busy, pend := .final }).breakChains 8 k
    if x.blockBusy then s else s.enterDge k x.finalBlocks

/-- DGE_FINAL: the request that pads, finishes and delivers. -/
def execDgeFinal (a : DgeAddr) (s : State) : Out := answer s ((s.heldDpage a).elim s fun k => (s.dgeFinal k).after)

/-- The result of the whole stream: cSHAKE padding after a KMAC key, the algorithm's own otherwise. -/
def DPage.value (x : DPage) : Bytes :=
  let m := x.stream ++ x.buf
  Config.take x.outBytes (if x.kmac then Config.framed (32 + x.algo.toNat) [] m else Config.digest x.algo.toNat m)

/-- Verdict of the comparator (R217). -/
def DPage.judge (x : DPage) (equal : Bool) : DPage :=
  { x with state := .ready, pend := .none, verdict := if equal then 0x9669 else 0x3CC3, vcheck := if equal then 0x6996 else 0xC33C }

/-- Chained bytes go into the peer while it accepts them (R215); the page is READY when all are delivered. A secret result for a PLAIN
context puts both pages in FAULT (R214). -/
def State.chainTo (s : State) (k : Nat) : Nat → Bytes → State
  | 0, b => s.setDpage k { s.dpage k with pend := .chain b }
  | f + 1, b =>
    let m := sibling k (s.dpage k).peer.toNat
    let y := s.dpage m
    if b.isEmpty then s.setDpage k { s.dpage k with state := .ready, pend := .none, result := [] }
    else if y.state ≠ .feeding ∨ m = k then s.dpageMisuse k
    else if (s.dpage k).cls = 2 ∧ !y.secret then (s.dpageMisuse m).dpageMisuse k
    else if y.blockBusy then s.setDpage k { s.dpage k with pend := .chain b }
    else (s.feedWord m (b.take 4)).chainTo k f (b.drop 4)

/-! ### PAU contexts that a page's result goes to (09 R234, R235, R241, R243) -/

/-- The operation is over: its request leaves the PAU's arbiter. -/
def State.ctxEnds (s : State) (k : Nat) (st : XState) : State :=
  let s := s.endReq (8 + k / 4) 0 fun q => q.page == k % 4
  s.setCtx k { s.ctx k with state := st, entered := false, xofWait := false, waitRandom := false }

/-- A context in FAULT is zeroed (R241). -/
def State.ctxFault (s : State) (k : Nat) : State :=
  let s := s.ctxEnds k .fault
  let x := s.ctx k
  s.setCtx k { state := .fault, holder := x.holder, desc := x.desc, part := x.part, kstat := x.kstat }

/-- A context that waits for a bound page or for a digest leaves the datapath without a decision (R243). -/
def State.ctxYields (s : State) (k : Nat) : State := s.endReq (8 + k / 4) 0 fun q => q.page == k % 4

/-- What it waited for has come: it competes again at the head of its input, with the steps it has done. -/
def State.ctxReturns (s : State) (k : Nat) : State :=
  let x := s.ctx k
  let a := s.arb (8 + k / 4)
  let w := x.holder - 1
  let i := arbInput (8 + k / 4) w (s.fwdMark w)
  if (a.inputQ i 0).any (fun q => q.page == k % 4) || (a.engine 0).owner.any (fun o => o.2.page == k % 4) then s
  else s.setArb (8 + k / 4) (a.setInputQ i 0
    ({ who := w, part := x.part, page := k % 4, count := 0, done := x.progress.toNat, preempted := true } :: a.inputQ i 0))

/-- Bytes of the digest a context takes (R235). -/
def Ctx.digestLen (x : Ctx) : Nat :=
  if x.op = 0x02 ∨ x.op = 0x03 then 64 else if x.p384 then 48 else 32

/-- Digest input for a PAU context (R235): it takes it, or goes to FAULT where the length is wrong. -/
def State.digestInput (s : State) (k : Nat) (b : Bytes) : State :=
  let x := s.ctx k
  if b.length ≠ x.digestLen then s.ctxFault k
  else
    let s := s.setCtx k { x with digest := some b, state := if x.state = .await then .busy else x.state }
    if x.state = .await then s.ctxReturns k else s

/-- Bytes of the holder's SRAM read by PAU DMA, master 79 (R229); the Warden has no local SRAM, and its operands are read as
zeros (notes/assumptions/37.md). -/
def State.pauRead (s : State) (k off n : Nat) : State × Option Bytes :=
  let x := s.ctx k
  if n = 0 then (s, some [])
  else if x.holder - 1 = 64 then (s, some (zeros n))
  else
    let (s, ok) := s.sramCheck 79 (x.holder - 1) off n false x.part
    (s, if ok then some (s.sramGet (x.holder - 1) off n) else none)

def State.pauWrite (s : State) (k off : Nat) (b : Bytes) : State × Bool :=
  let x := s.ctx k
  if b.isEmpty || x.holder - 1 == 64 then (s, true)
  else
    let (s, ok) := s.sramCheck 79 (x.holder - 1) off b.length true x.part
    (if ok then s.sramPut (x.holder - 1) off b else s, ok)

/-- A refused access of the PAU's DMA (13 Table 13.7). -/
def State.dmaRefused (s : State) (k : Nat) : State :=
  let d := (s.ctx k).desc
  let s := s.ctxFault k
  if d = 0 then s else s.finish (d - 1) stEngine

/-- The bound page's result comes back to its context: tr of a signature goes to OUT_OFF, with TR_READY (R235). -/
def State.xofResult (s : State) (k : Nat) (v : Bytes) : State :=
  let x := s.ctx k
  if !x.xofWait then s
  else
    let s := s.setCtx k { x with xofWait := false }
    if x.op = 0x02 ∨ x.op = 0x03 then
      match s.pauWrite k x.outOff.toNat v with
      | (s, true) => (s.setCtx k { s.ctx k with trReady := true }).ctxReturns k
      | (s, false) => s.dmaRefused k
    else s.ctxReturns k

/-- The two pages of a comparison name each other with one CMP_LEN. -/
def DPage.pairs (x y : DPage) (k m : Nat) : Bool :=
  x.dest == 3 && y.dest == 3 && sibling k x.peer.toNat == m && sibling m y.peer.toNat == k && x.cmpLen == y.cmpLen && k != m

/-- The result goes to its destination. -/
def State.deliverDigest (s : State) (k : Nat) (v : Bytes) : State :=
  let x := s.dpage k
  match x.dest.toNat with
  | 0 => s.setDpage k { x with state := .ready, pend := .none, result := v }
  | 1 => s.setDpage k { x with state := .ready, pend := .none, dm := v }
  | 2 => s.setDpage k (x.judge (v.take x.cmpLen.toNat == (fit 64 x.expect).take x.cmpLen.toNat))
  | 3 =>
    let m := sibling k x.peer.toNat
    let y := s.dpage m
    if !x.pairs y k m || !(y.state == .feeding || y.state == .busy) then s.dpageMisuse k
    else if y.pend = .peer then
      let e := v.take x.cmpLen.toNat == y.result.take x.cmpLen.toNat
      (s.setDpage k (x.judge e)).setDpage m { y.judge e with result := [] }
    else s.setDpage k { x with pend := .peer, result := v }
  | 4 =>
    s.chainTo k (v.length + 1) v
  | 5 =>
    let o := s.pageOpnd x.who x.desc (pkPart k)
    match runV (storeResult o (x.link.getD x.ka) (x.who == 64) (fit 64 x.expect) v) s with
    | (.ok _, t) => t.setDpage k { t.dpage k with state := .ready, pend := .none }
    | (.error (.fail st _), t) =>
      if st = stEngine then t.dpageMisuse k else t.setDpage k { t.dpage k with state := .refused, pend := .none, kstat := st }
    | (.error (.park l n), _) => (s.setDpage k { x with result := v, pend := .final }).want l n
    | (.error _, _) => s.setDpage k { x with result := v, pend := .final }
  | _ =>
    match s.heldCtx x.who with
    | some c =>
      let s := s.setDpage k { x with state := .ready, pend := .none }
      if (s.ctx c).xofEn && (s.ctx c).xofPage.toNat == pkPage k then s.xofResult c v else s.digestInput c v
    | none => s.dpageMisuse k

/-- Pages that wait to pass a chained result to page m go on. -/
def State.resumeChains (s : State) (m : Nat) : State :=
  (List.range 8).foldl (fun (s : State) i =>
    let k := sibling m i
    match (s.dpage k).pend with
    | .chain b => if sibling k (s.dpage k).peer.toNat = m then s.chainTo k (b.length + 1) b else s
    | _ => s) s

/-! ### SAVE (R220) -/

def State.dgeSave (s : State) (k : Nat) : State :=
  let x := s.dpage k
  if x.state = .busy then s
  else if x.state ≠ .feeding then s.dpageMisuse k
  else
    let s := (s.setDpage k { x with state := .busy, pend := .save }).breakChains 8 k
    if x.blockBusy then s else s.enterDge k 1

/-- DGE_SAVE. -/
def execDgeSave (a : DgeAddr) (s : State) : Out := answer s ((s.heldDpage a).elim s fun k => (s.dgeSave k).after)

/-- The save, from wherever the context lies (R219); one that is out already, or has absorbed nothing, has nothing to move
(notes/assumptions/32.md). -/
def State.saveEnds (s : State) (k : Nat) : State :=
  let x := s.dpage k
  let kept := fun (s : State) => s.setDpage k { s.dpage k with state := .feeding, pend := .none }
  if 2 ≤ x.whereSt.toNat then kept s
  else
    match s.areaCheck k true with
    | (s, true) => kept (s.saveCtx k)
    | (s, false) => s.areaRefused k

/-! ### The end of a block (R211, R223) -/

/-- The buffered block is absorbed. -/
def DPage.absorbed (x : DPage) : DPage :=
  let n := dgeBlock x.algo.toNat
  { x with stream := x.stream ++ x.buf.take n, buf := x.buf.drop n, blockBusy := false, whereSt := 0 }

def State.blockEnds (s : State) (k : Nat) : State :=
  let s := s.dgeSpent k
  let x := s.dpage k
  let s := s.setDpage k { x with entered := false }
  if x.blockBusy then
    let s := s.setDpage k { x with entered := false }.absorbed
    if (s.dpage k).full then s.absorbNext k
    else
      match x.pend with
      | .final => s.enterDge k (s.dpage k).finalBlocks
      | .save => s.enterDge k 1
      | _ => ((s.absorbNext k).turnOver k).resumeChains k
  else
    match x.pend with
    | .save => (s.saveEnds k).turnOver k
    | .final =>
      let v := if x.result.isEmpty then x.value else x.result
      let s := s.dropContext (dkCl k) (pkPart k) (pkPage k)
      ((s.setDpage k { x with entered := false, whereSt := 3, stream := [], buf := [], result := [] }).deliverDigest k v).turnOver k
    | _ => s.turnOver k

/-- A failed check of the digest engine (R223): FAULT, counted, and the descriptor completes ENGINE_FAULT. -/
def State.dgeFails (s : State) (k : Nat) : State :=
  let d := (s.dpage k).desc
  let s := s.endReq (dkCl k) 3 fun q => q.part == pkPart k && q.page == pkPage k
  let s := ((s.dpageFault k).countFault (4 * dkCl k + 3)).turnOver k
  if d = 0 then s else s.finish (d - 1) stEngine

/-- DGE_BLOCK_DONE. -/
def execDgeBlockDone (a : DgeAddr) (chk : Bool) (s : State) : Out :=
  answer s <|
    match s.heldDpage a with
    | none => s
    | some k =>
      let x := s.dpage k
      if x.pend = .final ∧ !x.entered ∧ !x.result.isEmpty then (s.blockEnds k).after
      else if !x.entered || !s.dgeRan k then s
      else if chk then (s.blockEnds k).after
      else (s.dgeFails k).after

end Sys2Proof.Machine
end

