-- ==== Sys2Proof/Machine/PauContexts.lean ====
section
/-! DEFINITION. PAU contexts (09): OPEN and CLOSE, the operations of Table 9.4 as written to OP, their public checks, digest
input, results and sinks; the delivery of key fetches (03 R71), and core reads of results (07 R191; 08 R218; 09 R229). -/

namespace Sys2Proof.Machine

/-! ### OPEN and CLOSE (R228) -/

def execPauOpen (who : Who) (s : State) : Out :=
  answer s <|
    let w := who.val
    let h := halfOf w
    let q := mget s.eng.pauWait h []
    if (s.tagOf w).isNone || (s.heldCtx w).isSome || q.contains w then s
    else
      let s := s.setEng { s.eng with pauWait := mset s.eng.pauWait h (q ++ [w]), pauRes := mdel s.eng.pauRes w }
      s.servePau h (q.length + 1)

def execPauClose (who : Who) (s : State) : Out := answer s ((s.heldCtx who.val).elim s fun k => s.dropCtx k false)

/-! ### Operations (Table 9.4) -/

def Ctx.who (x : Ctx) : Nat := x.holder - 1

def wardenOps : List Nat := [0x01, 0x11, 0x21, 0x31]
def keyedOps : List Nat := [0x02, 0x13, 0x22, 0x32, 0x35]
def secretOps : List Nat := [0x01, 0x11, 0x12, 0x13, 0x21, 0x24, 0x31, 0x34, 0x35]
/-- They expand or sample over a digest page (R234). -/
def xofOps : List Nat := [0x01, 0x02, 0x03, 0x11, 0x12, 0x13, 0x34, 0x35]
/-- They take a digest under R235. -/
def digestOps : List Nat := [0x02, 0x03, 0x22, 0x23]
def pauOps : List Nat := [0x01, 0x02, 0x03, 0x11, 0x12, 0x13, 0x21, 0x22, 0x23, 0x24, 0x31, 0x32, 0x33, 0x34, 0x35]

def Ctx.k (x : Ctx) : Nat := 32 * x.size.toNat
def Ctx.point (x : Ctx) : Nat := if x.p384 then 97 else 65
def Ctx.scalar (x : Ctx) : Nat := if x.p384 then 48 else 32

/-- Input bytes of an operation. -/
def Ctx.inBytes (x : Ctx) (op : Nat) : Nat :=
  match op with
  | 0x03 => 5261
  | 0x12 => 1184
  | 0x13 => 1088
  | 0x23 => x.point + 2 * x.scalar
  | 0x24 => x.point
  | 0x32 => x.k
  | 0x33 => 2 * x.k
  | 0x34 => x.k
  | 0x35 => x.k
  | _ => 0

/-- Output bytes at OUT_OFF: a signature follows its tr (notes/assumptions/37.md). -/
def Ctx.outSize (x : Ctx) (op : Nat) : Nat :=
  match op with
  | 0x01 => 1952
  | 0x02 => 64 + 3309
  | 0x03 => 64
  | 0x11 => 1184
  | 0x12 => 1088
  | 0x21 => x.point
  | 0x22 => 2 * x.scalar
  | 0x24 => x.point
  | 0x31 => x.k
  | 0x32 => x.k
  | 0x33 => x.k
  | 0x34 => x.k
  | _ => 0

/-- The sinks an operation can use: SINK 1 for made keys, SINK 2 for agreed secrets (Table 9.4). -/
def sinkOk (op : Nat) (sink : Nat) : Bool :=
  if !secretOps.contains op then true
  else if op = 0x12 ∨ op = 0x13 then sink == 1 || sink == 2
  else if op = 0x24 then sink == 2
  else sink == 1

/-- The DGE page a context names, on the holder's own cluster; the Warden's on the cluster that serves it. -/
def State.boundPage (s : State) (x : Ctx) (n : Nat) : Nat :=
  dpageKey (if x.who = 64 then s.wardenCluster else x.who / 8) x.part n

/-- The bound page is set up as R234 lays down. -/
def State.xofOk (s : State) (x : Ctx) (unit op : Nat) : Bool :=
  let y := s.dpage (s.boundPage x x.xofPage.toNat)
  x.xofEn && y.holder == x.holder && y.src == 2 && y.dest == 6 && b2n (y.peer.getLsbD 0) == unit
    && (y.secret || !(keyedOps.contains op || secretOps.contains op))

/-- What an operation's registers must be (R228, R230, R233, R234). -/
def State.pauFormOk (s : State) (k op : Nat) : Bool :=
  let x := s.ctx k
  pauOps.contains op && (!wardenOps.contains op || x.who == 64) && sinkOk op x.sink.toNat
    && decide (x.prefixLen.toNat ≤ 64 ∧ x.suffixLen.toNat ≤ 64)
    && (!xofOps.contains op || s.xofOk x (k / 4 % 2) op)
    && (decide (op < 0x31) || decide (8 ≤ x.size.toNat ∧ x.size.toNat ≤ 16))
    && decide (x.outSize op ≤ x.outCap.toNat)

/-- The group orders of P-256 and P-384 (FIPS 186). -/
def ecOrder (p384 : Bool) : Nat :=
  if p384 then 0xFFFFFFFFFFFFFFFFFFFFFFFFFFFFFFFFFFFFFFFFFFFFFFFFC7634D81F4372DDF581A0DB248B0A77AECEC196ACCC52973
  else 0xFFFFFFFF00000000FFFFFFFFFFFFFFFFBCE6FAADA7179E84F3B9CAC2FC632551

/-- The public checks of R232 on the input. -/
def Ctx.publicOk (x : Ctx) (op : Nat) (b : Bytes) : Bool :=
  let sc := fun (v : Bytes) => decide (1 ≤ beNat v ∧ beNat v < ecOrder x.p384)
  x.inBytes op == b.length &&
    match op with
    | 0x03 => Config.mldsaSigOk (b.drop 1952)
    | 0x12 => Config.mlkemKeyOk b
    | 0x23 => Config.ecPointOk x.p384 (b.take x.point) && sc (slice b x.point x.scalar) && sc (b.drop (x.point + x.scalar))
    | 0x24 => Config.ecPointOk x.p384 b
    | 0x33 => decide (beNat (b.drop x.k) < beNat (b.take x.k))
    | _ => true

/-! ### How an operation ends -/

def State.ctxRefused (s : State) (k : Nat) (st : Word16) : State :=
  let s := s.ctxEnds k .refused
  s.setCtx k { s.ctx k with kstat := st }

/-! ### OP (R229, R230, R232, R235, R237) -/

/-- The digest of the bound page that an operation starts with: algorithm, output bytes, and the input where the operation's public
operands or its public key give it (R234; FIPS 203, FIPS 204, MGF1; notes/assumptions/91.md). -/
def Ctx.xofFirst (x : Ctx) : Nat × Nat × Option Bytes :=
  match x.op.toNat with
  | 0x02 => (7, 64, some (match x.ka with
      | .held y _ _ _ => Config.take 1952 (Config.mldsaPublic y.key)
      | _ => []))
  | 0x03 => (7, 64, some (x.operands.take 1952))
  | 0x12 => (4, 32, some x.operands)
  | 0x01 => (7, 128, none)
  | 0x34 => (1, 32, none)
  | 0x35 => (1, 32, none)
  | _ => (5, 64, none)

/-- The PAU drives its bound page (R234): it sets ALGO and OUT_LEN, issues INIT, and absorbs and finishes the input it has; the
operation waits for that result. -/
def State.xofStart (s : State) (k : Nat) : State :=
  let x := s.ctx k
  if !xofOps.contains x.op.toNat then s
  else
    let (algo, n, b) := x.xofFirst
    let j := s.boundPage x x.xofPage.toNat
    let s := s.dropContext (dkCl j) (pkPart j) (pkPage j)
    let y := { s.dpage j with algo := BitVec.ofNat 3 algo, outLen := BitVec.ofNat 13 n }.fresh
    match b with
    | none => s.setDpage j { y with state := .feeding }
    | some b =>
      let s := (s.setDpage j { y with state := .busy, pend := .final, buf := b, fed := BitVec.ofNat 64 b.length }).setCtx k { x with xofWait := true }
      if (s.dpage j).full then s.absorbNext j else s.enterDge j (s.dpage j).finalBlocks

/-- A new piece of work of the descriptor that a page or context is held for. -/
def State.anewOf (s : State) (desc : Nat) : State := if desc = 0 then s else s.anew (desc - 1)

/-- The operation goes as far as its key lets it: then it enters the PAU's arbiter. -/
def State.tryOp (s : State) (k : Nat) : State :=
  let x := s.ctx k
  if x.state ≠ .busy ∨ x.entered then s
  else
    let enter := fun (s : State) =>
      let s := s.setCtx k { s.ctx k with entered := true }
      (s.enterReq (8 + k / 4) 0 x.who (s.fwdMark x.who) { who := x.who, part := x.part, page := k % 4, count := 0 }).xofStart k
    if !keyedOps.contains x.op.toNat then enter s
    else
      match x.ka with
      | .inFlight => s
      | .refused st => s.ctxRefused k st
      | .empty => s.ctxFault k
      | .held y _ _ _ =>
        let want := if x.op = 0x02 then 8 else if x.op = 0x13 then 9 else if x.op = 0x22 then (if x.p384 then 11 else 10) else 12
        if y.alg.toNat = want then enter s else s.ctxFault k

/-- OP is written: ignored while BUSY or AWAIT; public operands are read and checked first, and the operation runs on what was checked. -/
def State.writePau (s : State) (who : Nat) (op : Byte) : State :=
  match s.heldCtx who with
  | none => s
  | some k =>
    let x := s.ctx k
    if x.state = .busy ∨ x.state = .await then s
    else
      let s := s.setCtx k { x with state := .busy, op := op, entered := false, trReady := false, verdict := 0, vcheck := 0, progress := 0,
                                   resultLen := 0, digest := none, operands := [], xofWait := false, waitRandom := false }
      if !s.pauFormOk k op.toNat then s.ctxFault k
      else
        match s.pauRead k x.inOff.toNat (x.inBytes op.toNat) with
        | (s, none) => s.dmaRefused k
        | (s, some b) =>
          if (x.inBytes op.toNat ≠ 0 ∧ x.inLen.toNat ≠ b.length) ∨ !x.publicOk op.toNat b then s.ctxEnds k .invalid
          else ((s.setCtx k { s.ctx k with operands := b }).anewOf x.desc).tryOp k

/-! ### Results -/

/-- A secret goes to its sink (R233); made says that the operation has no KA. -/
def sinkSecret (o : Opnd) (x : Ctx) (made : Bool) (secret : Bytes) : V Unit := do
  if x.sink = 1 then
    storeResult o (if made then .empty else x.ka) (x.who == 64) x.decl secret
  else if x.sink = 2 then
    let s ← getV
    let j := s.boundPage x x.sinkPage.toNat
    let y := s.dpage j
    if y.holder ≠ x.holder ∨ y.state ≠ .feeding ∨ !y.secret ∨ y.src ≠ 2 then do
      modV fun s => if y.holder = x.holder then s.dpageMisuse j else s
      misuse
    else
      let b := (fit 64 x.pre).take x.prefixLen.toNat ++ secret ++ (fit 64 x.suf).take x.suffixLen.toNat
      modV fun s =>
        let s := s.setDpage j { y with buf := y.buf ++ b, fed := y.fed + BitVec.ofNat 64 b.length, cls := 2,
                                       link := some (if made then .empty else x.ka) }
        if y.blockBusy then s else s.absorbNext j
  else misuse

/-- A private key that RSA_KEYGEN or EC_KEYGEN with P384 seals: its records, and the record key in the declared slot (R238). -/
def sinkSealed (o : Opnd) (x : Ctx) (alg : Nat) (priv : Bytes) : V Unit := do
  let (dest, d) := keyDecl (fit 16 x.decl)
  need (classPermitted d.alg d.cls) stUsage
  if x.sink ≠ 1 ∨ bit dest 15 ∨ d.alg ≠ alg ∨ d.cls ≠ 2 then misuse
  else
    noSweep o.p
    let i ← destCheck o.p dest
    let rk ← random o 32
    let num ← newSealed o.p alg rk priv
    clearWrite o.p i d rk num

/-- The private key in KA, opened where it is sealed (R237, R238). -/
def ctxKey (o : Opnd) (x : Ctx) : V Bytes :=
  match x.ka with
  | .held y _ _ _ => privateKey o.p y x.size.toNat
  | _ => misuse

/-- How an operation that ran to its end leaves its context. -/
inductive PauEnd where
  | ready (out : Bytes) (verdict : Option Bool)
  | invalid
  | exhausted
  deriving DecidableEq, Repr

/-- What an operation makes of its operands: input b, digest dg, random drawn as Table 9.4 gives. -/
def runPau (o : Opnd) (x : Ctx) (b dg : Bytes) : V PauEnd := do
  match x.op.toNat with
  | 0x01 =>
    let seed ← random o 32
    sinkSecret o x true seed
    pure (.ready (Config.take 1952 (Config.mldsaPublic seed)) none)
  | 0x02 =>
    let seed ← ctxKey o x
    let rnd ← random o 32
    if 500 < Config.mldsaAttempts seed dg rnd then pure .exhausted
    else pure (.ready (Config.take 3309 (Config.mldsaSignMu seed dg rnd)) none)
  | 0x03 => pure (.ready [] (some (Config.mldsaVerifyMu (b.take 1952) dg (b.drop 1952))))
  | 0x11 =>
    let seed ← random o 32
    sinkSecret o x true seed
    pure (.ready (Config.take 1184 (Config.mlkemPublic seed)) none)
  | 0x12 =>
    let rnd ← random o 32
    sinkSecret o x true (Config.take 32 (Config.mlkemEncapSs b rnd))
    pure (.ready (Config.take 1088 (Config.mlkemEncapCt b rnd)) none)
  | 0x13 =>
    let seed ← ctxKey o x
    sinkSecret o x false (Config.take 32 (Config.mlkemDecap seed b))
    pure (.ready [] none)
  | 0x21 =>
    let alg := if x.p384 then 11 else 10
    let rnd ← random o (pairRandom alg)
    let (priv, pub) := makePair alg 0 rnd
    if x.p384 then sinkSealed o x alg priv else sinkSecret o x true priv
    pure (.ready pub none)
  | 0x22 =>
    let d ← ctxKey o x
    let rnd ← random o (if x.p384 then 56 else 40)
    pure (.ready (Config.take (2 * x.scalar) (Config.ecdsaSign x.p384 d dg rnd)) none)
  | 0x23 => pure (.ready [] (some (Config.ecdsaVerify x.p384 (b.take x.point) dg (b.drop x.point))))
  | 0x24 =>
    let rnd ← random o (if x.p384 then 56 else 40)
    let e := Config.take x.scalar (Config.ecPrivate x.p384 rnd)
    sinkSecret o x true (Config.take x.scalar (Config.ecdh x.p384 e b))
    pure (.ready (Config.take x.point (Config.ecPublic x.p384 e)) none)
  | 0x31 =>
    let rnd ← random o (pairRandom 12)
    if !Config.rsaFound x.size.toNat rnd then pure .exhausted
    else
      let (priv, pub) := makePair 12 x.size.toNat rnd
      sinkSealed o x 12 priv
      pure (.ready pub none)
  | 0x32 =>
    let priv ← ctxKey o x
    if beNat (slice priv 4 x.k) ≤ beNat b then pure .invalid else pure (.ready (Config.take x.k (Config.rsaRaw priv b)) none)
  | 0x33 => pure (.ready (Config.take x.k (Config.rsaPublicOp (b.take x.k) (b.drop x.k))) none)
  | 0x34 =>
    let n := algLen (keyDecl (fit 16 x.decl)).2.alg
    let transit ← random o n
    let seed ← random o 32
    sinkSecret o x true transit
    pure (.ready (Config.take x.k (Config.oaepWrap b transit seed)) none)
  | 0x35 =>
    let priv ← ctxKey o x
    let n := algLen (keyDecl (fit 16 x.decl)).2.alg
    if beNat (slice priv 4 x.k) ≤ beNat b ∨ !Config.oaepOk priv b ∨ Config.oaepLen priv b ≠ n then pure .invalid
    else
      sinkSecret o x false (Config.take n (Config.oaepUnwrap priv b))
      pure (.ready [] none)
  | _ => misuse

/-- The context is READY: output behind the tr of a signature, RESULT_LEN and the verdict (R229, R235). -/
def State.ctxReady (s : State) (k : Nat) (out : Bytes) (v : Option Bool) : State :=
  let x := s.ctx k
  let tr := if x.op = 0x02 ∨ x.op = 0x03 then 64 else 0
  match s.pauWrite k (x.outOff.toNat + tr) out with
  | (s, false) => s.dmaRefused k
  | (s, true) =>
    let s := s.ctxEnds k .ready
    s.setCtx k { s.ctx k with
      resultLen := BitVec.ofNat 32 (tr + out.length),
      verdict := v.elim 0 fun e => if e then 0x9669 else 0x3CC3
      vcheck := v.elim 0 fun e => if e then 0x6996 else 0xC33C }

/-- The mask material of a private operation (R236): blocks of the PAU's own generator, how many a free value (notes/assumptions/89.md). -/
def State.pauMasked (s : State) (k : Nat) : State :=
  let op := (s.ctx k).op.toNat
  if keyedOps.contains op || secretOps.contains op then s.pauBlocks (k / 4) (Config.freeNat 15 (s.disp.nextId * 64 + op) % 4096) else s

/-- The bound page goes with its operation: the PAU has read all it drives it for. -/
def State.xofEnds (s : State) (k : Nat) : State :=
  let x := s.ctx k
  let j := s.boundPage x x.xofPage.toNat
  if xofOps.contains x.op.toNat && (s.dpage j).holder == x.holder then
    (s.dropContext (dkCl j) (pkPart j) (pkPage j)).setDpage j { s.dpage j with state := .ready, pend := .none, stream := [], buf := [], result := [], whereSt := 3 }
  else s

/-- The operation ran to its end with its checks passed. It yields the datapath where its bound page's result, or the digest it
needs (AWAIT), has not come (R235, R243); where it waits for random it keeps what it has drawn (R93, R236, R243). -/
def State.pauOpEnds (s : State) (k : Nat) : State :=
  let x := s.ctx k
  if x.xofWait then s.ctxYields k
  else if digestOps.contains x.op.toNat ∧ x.digest = none then (s.setCtx k { x with state := .await }).ctxYields k
  else
    let o := s.pageOpnd x.who x.desc x.part
    let s := (s.setCtx k { x with waitRandom := false }).rewind o.d
    match runV (runPau o x x.operands (x.digest.getD [])) s with
    | (.ok (.ready out v), t) => ((t.xofEnds k).pauMasked k).ctxReady k out v
    | (.ok .invalid, t) => (t.xofEnds k).ctxEnds k .invalid
    | (.ok .exhausted, t) => (t.xofEnds k).ctxEnds k .exhausted
    | (.error (.fail st _), t) => if st = stEngine then (t.xofEnds k).ctxFault k else (t.xofEnds k).ctxRefused k st
    | (.error (.park l n), _) => s.want l n
    | (.error (.wait .waitRandom), t) => (s.keepWork t o.d).setCtx k { s.ctx k with waitRandom := true }
    | (.error _, _) => s

/-- A failed check (R241). -/
def State.pauFails (s : State) (k : Nat) : State :=
  let d := (s.ctx k).desc
  let s := (s.ctxFault k).countFault (32 + k / 4)
  if d = 0 then s else s.finish (d - 1) stEngine

/-- PAU_OP_DONE (R241): of the operation that owns the PAU; a preempted one ends only when it runs again (R243). -/
def execPauOpDone (u : Fin 4) (c : Fin 4) (chk : Bool) (s : State) : Out :=
  answer s <|
    let k := 4 * u.val + c.val
    let x := s.ctx k
    let granted := ((s.arb (8 + u.val)).engine 0).owner.any fun o => o.2.page == c.val
    if x.state != .busy || !x.entered || !granted then s
    else if chk then (s.pauOpEnds k).after
    else (s.pauFails k).after

/-! ### The rows of Table 9.4 -/

def execMldsaKeygen (who : Who) (s : State) : Out := answer s (s.writePau who.val 0x01).after
def execMldsaSign (who : Who) (s : State) : Out := answer s (s.writePau who.val 0x02).after
def execMldsaVerify (who : Who) (s : State) : Out := answer s (s.writePau who.val 0x03).after
def execMlkemKeygen (who : Who) (s : State) : Out := answer s (s.writePau who.val 0x11).after
def execMlkemEncap (who : Who) (s : State) : Out := answer s (s.writePau who.val 0x12).after
def execMlkemDecap (who : Who) (s : State) : Out := answer s (s.writePau who.val 0x13).after
def execEcKeygen (who : Who) (s : State) : Out := answer s (s.writePau who.val 0x21).after
def execEcdsaSign (who : Who) (s : State) : Out := answer s (s.writePau who.val 0x22).after
def execEcdsaVerify (who : Who) (s : State) : Out := answer s (s.writePau who.val 0x23).after
def execEcdhEph (who : Who) (s : State) : Out := answer s (s.writePau who.val 0x24).after
def execRsaKeygen (who : Who) (s : State) : Out := answer s (s.writePau who.val 0x31).after
def execRsaSign (who : Who) (s : State) : Out := answer s (s.writePau who.val 0x32).after
def execRsaPublic (who : Who) (s : State) : Out := answer s (s.writePau who.val 0x33).after
def execRsaOaepWrap (who : Who) (s : State) : Out := answer s (s.writePau who.val 0x34).after
def execRsaOaepUnwrap (who : Who) (s : State) : Out := answer s (s.writePau who.val 0x35).after

/-! ### Key fetches that end (03 R71, R73) -/

/-- What waited for the key register goes on. -/
def State.keyCame (s : State) (t : KeyTarget) : State :=
  match t with
  | .cipher a _ => (s.heldPage a).elim s s.tryStart
  | .digest a => (s.heldDpage a).elim s s.tryAbsorb
  | .pau w => (s.heldCtx w.val).elim s s.tryOp

/-- A fetch with, for a PAU, the record page of a sealed key: it is in the vault cache before the operation needs it (R237). -/
def State.fetchAll (s : State) (f : Fetch) : Except Stop (Nat × Slot) × State :=
  match s.runFetch f, f.tgt with
  | (.ok (i, x), t), .pau _ =>
    if (x.alg = 0x0B ∨ x.alg = 0x0C) ∧ x.nonce ≠ 0 then
      match runV (needObj 0 (bits x.nonce.toNat 5 29)) t with
      | (.error (.park l n), _) => (.error (.park l n), s)
      | (_, t) => (.ok (i, x), t)
    else (.ok (i, x), t)
  | r, _ => r

/-- A refused fetch: KSTAT shows its status; a refusal by class, usage or family ends the descriptor KEY_USAGE_DENIED (01 R19). -/
def State.fetchRefused (s : State) (f : Fetch) (st : Word16) : State :=
  let s : State := { s with kr := { s.kr with fetches := s.kr.fetches.erase f } }
  let s := (s.putKey f.tgt (.refused st)).keyCame f.tgt
  match f.desc with
  | some d => if st = stUsage then s.endWith d stUsage else s
  | none => s

/-- The fetch waits for a vault object (06 R172). -/
def State.fetchWaits (s : State) (f : Fetch) (l n : Nat) : State :=
  let s : State := { s with kr := { s.kr with fetches := s.kr.fetches.map fun g => if g = f then { g with waits := some (l, n) } else g } }
  s.want l n

/-- The first fetch in order that needs no vault page ends: a key delivered, or a status. -/
def State.fetchEnds (s : State) : List Fetch → State
  | [] => s
  | f :: r =>
    match f.failed with
    | some st => s.fetchRefused f st
    | none =>
      match s.fetchAll f with
      | (.ok (i, x), t) =>
        let t : State := { t with kr := { t.kr with fetches := t.kr.fetches.erase f } }
        (t.putKey f.tgt (.held x f.role i f.trans)).keyCame f.tgt
      | (.error (.fail st _), t) => t.fetchRefused f st
      | (.error (.park l n), _) => (s.fetchWaits f l n).fetchEnds r
      | (.error _, _) => s.fetchEnds r

/-- KEY_FETCH: the key bus ends a fetch, once it is ready (03 R61). -/
def execKeyFetch (s : State) : Out := answer s (if s.kr.ready && s.kr.bus != .halted then (s.fetchEnds s.kr.fetches).after else s)

/-! ### Reads of results (07 R188, R191; 08 R218; 09 R229) -/

/-- Word i of a byte string, lowest byte first. -/
def wordOf (b : Bytes) (i : Nat) : Word32 := BitVec.ofNat 32 (leAt (fit (4 * i + 4) b) (4 * i) 4)

def State.reads (s : State) (v : Word32) : State := { s with host := { s.host with readData := v } }

/-- Word i of a cipher page's RESULT (07 R191), of a digest page's (08 R218), and a context's RESULT_LEN (09 R229): the not-ready
pattern until there is one. -/
def CPage.resultWord (x : CPage) (i : Nat) : Word32 := if x.state = .ready then wordOf x.result i else notReady

def DPage.resultWord (x : DPage) (i : Nat) : Word32 := if x.state = .ready ∧ x.dest = 0 then wordOf x.result i else notReady

def Ctx.resultLenWord (x : Ctx) : Word32 := if x.state = .ready then x.resultLen else notReady

/-- RESULT_READ: the value when it is ready; else the not-ready pattern, and EARLY_READ on the holder's own page. -/
def execResultRead (r : ResultReg) (s : State) : Out :=
  answer s <|
    match r with
    | .cipher a i =>
      match s.heldPage a with
      | none => s.reads notReady
      | some k =>
        let x := s.cpage k
        (if x.state = .ready then s else s.setCpage k { x with earlyRead := true }).reads (x.resultWord i.val)
    | .digest a i =>
      match s.heldDpage a with
      | none => s.reads notReady
      | some k =>
        let x := s.dpage k
        (if x.state = .ready ∧ x.dest = 0 then s else s.setDpage k { x with earlyRead := true }).reads (x.resultWord i.val)
    | .pauLen w =>
      match s.heldCtx w.val with
      | none => s.reads notReady
      | some k =>
        let x := s.ctx k
        (if x.state = .ready then s else s.setCtx k { x with earlyRead := true }).reads x.resultLenWord

end Sys2Proof.Machine
end

