-- ==== Sys2Proof/Machine/MeshMsgs.lean ====
section
/-! DEFINITION. The messages of the mesh (14 Table 14.6): forwarded work at its origin and its home (R350 to R353), replicated
transactions (R341 to R346), heartbeats and dead members (R338, R355), and the time (R356). -/

namespace Sys2Proof.Machine

/-! ### What reaches this device (R336, R337) -/

/-- A message that is not for this device goes on towards its destination. -/
def State.relay (s : State) (m : Msg) (type : Nat) : State :=
  s.emit { port := m.port.val, src := m.src.val, dst := m.dst.val, type := type, tag := m.tag.toNat, attempt := m.attempt.toNat,
           part := m.part.val, hops := m.hops.val + 1, aux := m.aux.toNat, body := m.body }

/-- A KEY message is one that the mesh key unit opens under the pair key it has with the sender (R338). -/
def State.opens (s : State) (m : Msg) (type : Nat) : Bool :=
  msgClass type != 3 || m.src.val == s.ownId || mhas s.mesh.pairKeys m.src.val

/-- A message of a type: from the device itself, or over an attested port. -/
def State.onMsg (s : State) (m : Msg) (type : Nat) (f : State → State) : State :=
  if !s.meshed || s.tam.felledState || s.mesh.stale then s
  else if m.src.val = s.ownId then (if m.dst.val = s.ownId then f s else s)
  else if !(s.port m.port.val).attested then s
  else if m.dst.val ≠ s.ownId then s.relay m type
  else if !s.opens m type then s
  else f s

/-! ### Forwarded work at its home (R350 to R353) -/

/-- FWD (R350). -/
def execFwd (m : Msg) (s : State) : Out := answer s ((s.onMsg m 0x10 fun s => s.takeFwd m).after)

/-- The next input segment of a request held here (R352). -/
def State.takeData (s : State) (m : Msg) : State :=
  match s.mesh.held.find? fun h => h.is m.src.val m.tag.toNat && h.attempt == m.attempt with
  | none => s
  | some h =>
    match s.heldDesc h with
    | none => s
    | some r =>
      let data := m.body.drop 8
      if leAt m.body 0 8 ≠ h.got ∨ r.inLen < h.got + data.length then s
      else
        let (s, ok) := s.receive r.core m.port.val h.got data r.fn
        if !ok then s.refuseHeld h 3
        else
          let h := { h with body := h.body ++ data, got := h.got + data.length }
          ((s.setHeld h).askMore h r.inLen).1

/-- FWD_DATA (R352). -/
def execFwdData (m : Msg) (s : State) : Out := answer s ((s.onMsg m 0x23 fun s => s.takeData m).after)

/-! ### Forwarded work at its origin -/

/-- The live request a reply names, where the reply's attempt is the expected one. -/
def State.replyTo (s : State) (m : Msg) : Option Fwd :=
  s.mesh.fwds.find? fun f => f.dst == m.src.val && f.tag == m.tag.toNat && f.attempt == m.attempt

/-- A reply that fits no live request is discarded and counted at its port (R350). -/
def State.late (s : State) (m : Msg) : State :=
  let p := m.port.val
  s.setPort p { s.port p with lateReplies := satInc (s.port p).lateReplies }

def State.onReply (s : State) (m : Msg) (f : State → Fwd → State) : State :=
  match s.replyTo m with
  | none => s.late m
  | some x => f s x

def State.setFwd (s : State) (f : Fwd) : State :=
  { s with mesh := { s.mesh with fwds := s.mesh.fwds.map fun g => if g.dst = f.dst ∧ g.tag = f.tag then f else g } }

def State.endFwd (s : State) (f : Fwd) : State :=
  { s with mesh := { s.mesh with fwds := s.mesh.fwds.filter fun g => g.dst != f.dst || g.tag != f.tag } }

/-- ACCEPT (R350): the attempt it names is the one to expect. -/
def execAccept (m : Msg) (s : State) : Out :=
  answer s <| s.onMsg m 0x20 fun s => s.onReply m fun s f =>
    s.setFwd { f with accepted := true, attempt := BitVec.ofNat 16 m.aux.toNat }

/-- The counter that a forwarded step presented has been accepted at its home (05 R147): its image names it. -/
def State.noteCounter (s : State) (f : Fwd) : State :=
  match s.desc f.desc with
  | none => s
  | some r =>
    let q := { r with bytes := fit 64 (f.body.take 64) }
    match verbForm q.family q.operation with
    | none => s
    | some v =>
      s.modDesc r.id fun x => { x with accepted := (s.ksnMark (withHandles q v (q.opnd true))).toList ++ x.accepted }

/-- The home's answer is the request's end: its output is written as it streams back, FORWARDED is added, and a failure makes the
zero writes here (R353; 05 Table 5.10). -/
def State.takeResult (s : State) (f : Fwd) (b : Bytes) : State :=
  let st := BitVec.ofNat 16 (leAt b 0 2)
  let fl := setFlag (BitVec.ofNat 15 (leAt b 2 2)) cfForwarded
  let inl := slice b 8 8
  let out := slice b 16 (leAt b 4 4)
  let s := s.endFwd f
  match s.desc f.desc with
  | none => s
  | some r =>
    if r.run.isSome then (if bit (leAt b 2 2) 15 then s.noteCounter f else s).stepResult r.id st fl inl out
    else
      let s := s.modDesc r.id fun q => { q with flags := q.flags ||| fl }
      if succeeded st then s.complete r.id st out inl else (s.putOut r out).finish r.id st

/-- RESULT (R353). -/
def execResult (m : Msg) (s : State) : Out :=
  answer s ((s.onMsg m 0x21 fun s => s.onReply m fun s f => s.takeResult f m.body).after)

/-- The request cannot run at the member it went to: MESH_UNREACHABLE (R353, R355). -/
def State.unreachable (s : State) (f : Fwd) : State := (s.endFwd f).endWith f.desc stMesh

/-- A refusal for want of entropy sends the request to another member that has it, if there is one (R349, R353). -/
def State.takeRefuse (s : State) (f : Fwd) (why : Nat) : State :=
  let b := mget s.mesh.beats f.dst {}
  let t : State := { s with mesh := { s.mesh with beats := mset s.mesh.beats f.dst { b with entReady := false } } }
  if why = 1 ∧ s.ent.fail ∧ t.randomHome ≠ [] then
    let t := t.endFwd f
    ((f.step.elim t fun x => t.saveRun f.desc x.1)).unwait f.desc
  else s.unreachable f

/-- REFUSE (R353). -/
def execRefuse (m : Msg) (s : State) : Out :=
  answer s ((s.onMsg m 0x22 fun s => s.onReply m fun s f => s.takeRefuse f m.aux.toNat).after)

/-- The input of a forwarded request. -/
def State.fwdInput (s : State) (f : Fwd) : Bytes :=
  match f.step with
  | some x => x.2
  | none => (s.desc f.desc).elim [] s.inputOf

/-- FWD_MORE (R352): the next segment is read and sent. -/
def execFwdMore (m : Msg) (s : State) : Out :=
  answer s <| s.onMsg m 0x43 fun s => s.onReply m fun s f =>
    let off := leAt m.body 0 8
    let data := slice (s.fwdInput f) off 4096
    let s := s.setFwd { f with sent := max f.sent (off + data.length) }
    s.send f.dst 0x23 f.tag f.attempt.toNat 0 (toLE 8 off ++ data) f.part

/-! ### Replicated transactions (R341 to R346) -/

/-- The replicated management operations (R342), and the transfer of R341. -/
def sharedOps : List MgmtOp :=
  [opPartitionCreate, opPartitionDestroy, opQuotaSet, opMasterGenerate, opSlotClear, opAnchorAdvance, opCustodianSet, opRecipeLoad,
   opRecipeRevoke, opRecipeKeyRegister, opTimeSet]

/-- Why a run of a check refuses; what waits or parks refuses nothing. -/
def refusalOf {α : Type} (m : V α) (s : State) : Option Word16 :=
  match (runV m s).1 with
  | .error (.fail st _) => some st
  | _ => none

/-- The coordinator's check of an operation against its own state (R343 step 2). -/
def State.txnRefusal (s : State) (body : Bytes) (attempt : Word16) : Option Word16 :=
  let b := txnPay body
  match txnKind body with
  | 0 =>
    let n := s.mesh.rseq + 1
    let t := s.beginTxn { rseq := n, origin := s.ownId, tag := 0, attempt := attempt, body := body }
    match t.desc s.disp.nextId with
    | none => none
    | some r =>
      match verbForm r.family r.operation with
      | none => some stBad
      | some f => refusalOf (verbWork r f true) t
  | 2 => none
  | _ =>
    match sharedOps.find? fun o => o.op == leAt b 0 1 with
    | none => some stBad
    | some o => refusalOf (o.check { s.wardenOpnd with op := o.op, inp := b.drop 64 }) s

/-- The key of MASTER_GENERATE is drawn by the coordinator (R341). -/
def State.txnKey (s : State) (body : Bytes) : Option Bytes × State :=
  if txnKind body = 3 then s.wardenWork fun o => random o (algLen (genAlg (slice body 73 16))) else (some [], s)

/-- A key that is transferred goes to the mesh key unit. -/
def State.keepKey (s : State) (n : Nat) (k : Bytes) : State :=
  if k = [] then s else { s with mesh := { s.mesh with unitKeys := mset s.mesh.unitKeys n k } }

/-- A TXN's body without the key behind it, which stays in the mesh key unit, and that key. -/
def splitKey (b : Bytes) : Bytes × Bytes := if txnKind b = 3 then (b.take 89, b.drop 89) else (b, [])

/-- The highest RSEQ given. -/
def State.lastRseq (s : State) : Nat := (s.mesh.journal.map (·.rseq)).foldl max s.mesh.rseq

/-- The coordinator takes up an origin's transaction (R343 step 2); one that its journal holds already is not numbered again, and one
that is done is answered (R344). -/
def State.number (s : State) (m : Msg) : State :=
  if s.coordinator != s.ownId || !s.quorum || s.mesh.resyncing then s
  else
    match s.mesh.journal.find? fun t => t.origin == m.src.val && t.tag == m.tag && t.attempt == m.attempt
        && txnKind t.body == txnKind m.body && (txnPay m.body).isPrefixOf (txnPay t.body) with
    | some t =>
      if t.done then s.send m.src.val 0x32 m.tag.toNat m.attempt.toNat t.rseq (toLE 2 stDone.toNat) else s
    | none =>
      match s.txnRefusal m.body m.attempt with
      | some st => s.send m.src.val 0x32 m.tag.toNat m.attempt.toNat 0 (toLE 2 st.toNat)
      | none =>
        match s.txnKey m.body with
        | (none, _) =>
          s.send m.src.val 0x32 m.tag.toNat m.attempt.toNat 0 (toLE 2 (if s.ent.fail then stEntFailed else stEntNotReady).toNat)
        | (some k, s) =>
          let n := s.lastRseq + 1
          let everyone := s.ownId :: s.peers
          let t : Txn := { rseq := n, origin := m.src.val, tag := m.tag, attempt := m.attempt,
                           body := txnBody n (txnKind m.body + 16 * m.src.val) (txnPay m.body), waiting := everyone }
          everyone.foldl (fun (s : State) i => s.sendTxn i t) ((s.record t).keepKey n k)

/-- A numbered transaction at a member: applied in order, or acknowledged where it has been (R343 step 3, R344). -/
def State.takeTxn (s : State) (m : Msg) : State :=
  let n := txnRseq m.body
  if n ≤ s.mesh.rseq then s.ackTxn n
  else
    let (b, k) := splitKey m.body
    let s := if s.mesh.journal.any fun t => t.rseq == n then s
      else s.record { rseq := n, origin := txnOrigin m.body, tag := m.tag, attempt := m.attempt, body := b }
    let s := s.keepKey n k
    s.txnPump (s.mesh.journal.length + 1)

/-- TXN (R343, R345). -/
def execTxn (m : Msg) (s : State) : Out :=
  answer s <| State.after <| s.onMsg m 0x30 fun s =>
    if txnRseq m.body ≠ 0 then s.takeTxn m
    else if txnKind m.body = 4 then (if m.src.val = s.coordinatorBut s.ownId then s.keepMrk (txnPay m.body) else s)
    else s.number m

/-- TXN_ACK (R343 step 4). -/
def execTxnAck (m : Msg) (s : State) : Out :=
  answer s <| s.onMsg m 0x31 fun s => s.txnAnswered m.aux.toNat m.src.val

/-- The descriptor whose transaction a TXN_DONE ends. -/
def State.txnOf (s : State) (tag : Nat) : Option (DRec × Result) :=
  s.disp.descs.findSome? fun r =>
    match r.stage with
    | .mgmtWait (.txn d) x => if d % 65536 = tag then some (r, x) else none
    | _ => none

/-- The replicated operation ends at its origin with st. -/
def State.txnEnds (s : State) (r : DRec) (x : Result) (st : Word16) : State :=
  let s : State := { s with mesh := { s.mesh with asked := mdel s.mesh.asked r.id } }
  if r.run.isSome then s.stepResult r.id (if succeeded st then flaggedStatus stDone x.flags else st) x.flags x.inl x.out
  else if !succeeded st then s.endWith r.id st
  else if r.durable then
    if s.vault.pgFault then s.finish r.id stPageTimeout else s.modDesc r.id fun q => { q with stage := .waitDurable x }
  else s.complete r.id x.status x.out x.inl

/-- TXN_DONE (R343 step 4). -/
def execTxnDone (m : Msg) (s : State) : Out :=
  answer s <| State.after <| s.onMsg m 0x32 fun s =>
    let s : State := { s with mesh := { s.mesh with
      journal := s.mesh.journal.map fun t => if t.rseq = m.aux.toNat then { t with done := true } else t } }
    match s.txnOf m.tag.toNat with
    | none => s
    | some (r, x) => s.txnEnds r x (BitVec.ofNat 16 (leAt m.body 0 2))

/-- The recipe store, and the highest recipe versions, as RECIPE_SYNC carries them (notes/assumptions/38.md). -/
def State.recipeBody (s : State) : Bytes :=
  toLE 2 s.life.rversions.length ++ s.life.rversions.flatMap (fun (c : Nat × Nat) => toLE 4 c.1 ++ toLE 4 c.2)
    ++ s.life.recipes.flatMap fun q =>
      toLE 4 q.id ++ toLE 4 q.rversion ++ toLE 1 q.part ++ toLE 1 q.signer ++ fit 32 q.digest ++ toLE 4 q.image.length ++ q.image

/-- Recipes read back from it. -/
def recipesIn : Nat → Bytes → List Recipe
  | 0, _ => []
  | f + 1, b =>
    if b.length < 46 then []
    else
      let n := leAt b 42 4
      { id := leAt b 0 4, rversion := leAt b 4 4, part := leAt b 8 1, signer := leAt b 9 1, digest := slice b 10 32,
        image := slice b 46 n } :: recipesIn f (b.drop (46 + n))

/-- RESYNC (R346): every later transaction and the recipe store, or nothing where the journal no longer reaches back. -/
def execResync (m : Msg) (s : State) : Out :=
  answer s <| s.onMsg m 0x33 fun s =>
    let k := leAt m.body 0 8
    if s.coordinatorBut m.src.val != s.ownId || s.mesh.resyncing then s
    else if s.lastRseq ≤ k || s.mesh.journal.any fun t => t.rseq == k + 1 then
      let s := s.sendMrk m.src.val
      let s := (s.mesh.journal.filter fun t => decide (k < t.rseq)).foldl (fun (s : State) t => s.sendTxn m.src.val t) s
      s.send m.src.val 0x42 0 0 s.lastRseq s.recipeBody
    else s

/-- RECIPE_SYNC (R346). -/
def execRecipeSync (m : Msg) (s : State) : Out :=
  answer s <| s.onMsg m 0x42 fun s =>
    if !s.mesh.resyncing then s
    else
      let n := leAt m.body 0 2
      let vs := (List.range n).map fun i => (leAt m.body (2 + 8 * i) 4, leAt m.body (6 + 8 * i) 4)
      let s : State := { s with life := { s.life with
        recipes := recipesIn 128 (m.body.drop (2 + 8 * n))
        rversions := vs.foldl (fun (t : Map Nat) c => mset t c.1 c.2) s.life.rversions } }
      if m.aux.toNat ≤ s.mesh.rseq then { s with mesh := { s.mesh with resyncing := false, resyncTo := none } }
      else { s with mesh := { s.mesh with resyncTo := some m.aux.toNat } }

/-! ### Heartbeats (R338, R355) -/

/-- Descriptors read and not completed. -/
def State.queuedWork (s : State) : Nat := s.disp.descs.length

def State.beatBody (s : State) : Bytes :=
  [BitVec.ofNat 8 (lcCode s.life.st).toNat, BitVec.ofNat 8 (b2n s.ent.ready + 2 * b2n s.vault.ready)] ++ toLE 2 s.queuedWork
    ++ [s.memberMap]

/-- HEARTBEAT_SEND (R355). -/
def execHeartbeatSend (s : State) : Out :=
  answer s <|
    if !s.meshed || s.tam.felledState then s
    else ((s.members.map (·.meshId)).filter (· != s.ownId)).foldl (fun (s : State) i => s.send i 0x40 0 0 0 s.beatBody) s

/-- A joining device that its coordinator does not answer has fallen behind the journal (R346; notes/assumptions/38.md). -/
def State.countBeat (s : State) (i : Nat) : State :=
  if !s.mesh.resyncing || s.mesh.resyncTo.isSome || i != s.coordinatorBut s.ownId then s
  else if s.mesh.resyncBeats < 9 then { s with mesh := { s.mesh with resyncBeats := s.mesh.resyncBeats + 1 } }
  else { s with mesh := { s.mesh with stale := true, resyncing := false, memberMap := 0 } }

/-- HEARTBEAT (R338). -/
def execHeartbeat (m : Msg) (s : State) : Out :=
  answer s <| State.after <| s.onMsg m 0x40 fun s =>
    let i := m.src.val
    let b := m.body
    let x : Beat := { fresh := true, lifecycle := BitVec.ofNat 4 (leAt b 0 1), entReady := bit (leAt b 1 1) 0,
                      vaultReady := bit (leAt b 1 1) 1, queued := leAt b 2 2, map := byteAt b 4 }
    let s : State := { s with mesh := { s.mesh with beats := mset s.mesh.beats i x } }
    if mhas s.mesh.pairKeys i then ((s.setMember i true).countBeat i).drawMrk else s

/-- A member is dead: what was sent to it, its place in the map and in the journal's waiting lists (R355). -/
def State.dead (s : State) (i : Nat) : State :=
  let s : State := { s with mesh := { s.mesh with
    pairKeys := mdel s.mesh.pairKeys i, hs := mdel s.mesh.hs (8 + i), beats := mdel s.mesh.beats i
    waitFwd := s.mesh.waitFwd.filter fun m => m.src.val != i } }
  let s := (s.mesh.fwds.filter fun f => f.dst == i).foldl State.unreachable s
  let s := (s.mesh.journal.filter fun t => t.waiting.contains i).foldl (fun (s : State) t => s.txnAnswered t.rseq i) s
  if s.mesh.memberMap.getLsbD i then s.setMember i false else s

/-- MEMBER_DEAD (R355). -/
def execMemberDead (i : Fin 8) (s : State) : Out :=
  answer s (if s.meshed && i.val != s.ownId then (s.dead i.val).after else s)

/-! ### Time (R356) -/

/-- TIME_SYNC_SEND: a member without LOCK asks the coordinator. -/
def execTimeSyncSend (s : State) : Out :=
  answer s <|
    if !s.meshed || s.tam.felledState || s.time.lock || s.coordinator = s.ownId then s
    else s.send s.coordinator 0x41 0 0 0 (toLE 8 s.time.counter.toNat ++ zeros 24)

/-- The correction over one second, through the trim (notes/assumptions/38.md). -/
def trimFor (lastF ns : Int) : Word32 := clampTrim (lastF + roundDiv (ns * 4294967296) 100000000)

/-- TIME_SYNC: the coordinator adds its stamps; the member corrects by ((t2 − t1) − (t4 − t3)) ÷ 2. -/
def execTimeSync (m : Msg) (s : State) : Out :=
  answer s <| s.onMsg m 0x41 fun s =>
    let now := s.time.counter.toNat
    if s.coordinator = s.ownId then s.send m.src.val 0x41 0 0 0 (m.body.take 8 ++ toLE 8 now ++ toLE 8 now ++ zeros 8)
    else if m.src.val ≠ s.coordinator ∨ s.time.lock then s
    else
      let t := fun i => (leAt m.body (8 * i) 8 : Int)
      s.setTime { s.time with trim := trimFor s.time.lastF.toInt (((t 1 - t 0) - ((now : Int) - t 2)) / 2) }

end Sys2Proof.Machine
end

