-- ==== Sys2Proof/Machine/Tokens.lean ====
section
/-! DEFINITION. The debug block: its token buffer, the tokens of 16 Table 16.4 and what they do (16 R381, R383 to R389). -/

namespace Sys2Proof.Machine

/-! ### The buffer (Table 16.3) -/

def State.setLife (s : State) (l : Life) : State := { s with life := l }

/-- A write to the debug block comes through the debug port, so DBG_EN is high (notes/assumptions/39.md). -/
def State.portLive (s : State) : State := s.setLife { s.life with dbgEn := true }

/-- One word is appended; a full buffer of 16 KiB ignores it. -/
def execTokenData (w : Word32) (s : State) : Out :=
  let s' := s.portLive
  answer s (if s.life.token.length + 4 ≤ 16384 then s'.setLife { s'.life with token := s'.life.token ++ toLE 4 w.toNat } else s')

/-- TOKEN_CMD 2. -/
def execTokenEmpty (s : State) : Out := answer s (s.portLive.setLife { s.portLive.life with token := [] })

/-! ### Layout (Table 16.4) -/

def tokKind (b : Bytes) : Nat := leAt b 4 1
def tokOwnerSigned (b : Bytes) : Bool := bit (leAt b 5 1) 0
def tokBodyLen (b : Bytes) : Nat := leAt b 0x40 4
def tokBody (b : Bytes) : Bytes := slice b 0x60 (tokBodyLen b)

/-- Moroafy's key and signature stand behind the body. -/
def State.tokVendor (s : State) (b : Bytes) : Bool := (tokKind b == 1 && s.life.st != .development) || tokKind b == 3

/-- The owner's signature stands last. -/
def State.tokOwner (s : State) (b : Bytes) : Bool :=
  (tokKind b == 1 && s.life.st != .development) || tokKind b == 2 || (tokKind b == 3 && tokOwnerSigned b)

/-- MAGIC, KIND, reserved fields, and the length its layout gives. -/
def State.tokFormOk (s : State) (b : Bytes) : Bool :=
  decide (0x60 ≤ b.length) && leAt b 0 4 == 0x4E4B5444 && decide (1 ≤ tokKind b ∧ tokKind b ≤ 3)
    && (if tokKind b = 3 then decide (leAt b 5 1 ≤ 1) else leAt b 5 1 == 0)
    && leAt b 6 2 == 0 && allZero (slice b 0x12 14) && allZero (slice b 0x44 28)
    && (if tokKind b = 2 then decide (1952 ≤ tokBodyLen b) else tokBodyLen b == 0)
    && b.length == 0x60 + tokBodyLen b + (if s.tokVendor b then 5261 else 0) + (if s.tokOwner b then 3309 else 0)

/-- SERIAL, TALLY and DEV_NONCE are this device's. -/
def State.tokBound (s : State) (b : Bytes) : Bool :=
  leAt b 8 8 == Config.serial.toNat && leAt b 0x10 2 == s.tam.tally && slice b 0x20 32 == s.life.devNonce

def tokenContext : Bytes := ascii "Duelacel token"

/-- Every signature the token must carry verifies, over its bytes up to the end of its body (R383). -/
def State.tokSigned (s : State) (b : Bytes) : Bool :=
  let n := 0x60 + tokBodyLen b
  let m := b.take n
  let key := slice b n 1952
  let o := if s.tokVendor b then n + 5261 else n
  (!s.tokVendor b || (shake 32 key == Config.moroafyKey 2 && Config.mldsaVerify key tokenContext m (slice b (n + 1952) 3309)))
    && (!s.tokOwner b
      || (if tokKind b = 2 then some ((tokBody b).take 1952) else s.life.ownerKey).any fun k =>
          Config.mldsaVerify k tokenContext m (slice b o 3309))

/-- The KIND is allowed in the present state (Table 16.2; R386, R387). -/
def State.tokAllowed (s : State) (b : Bytes) : Bool :=
  match tokKind b with
  | 1 => true
  | 2 => s.life.st == .blank || (s.life.st == .development && s.life.ownerKey.isNone)
  | _ => s.life.st == .quarantined
      || ((s.life.st == .owned || s.life.st == .operational || s.life.st == .emptied) && tokOwnerSigned b)

/-! ### Rosters (14 R329, Table 14.1; 16 R388) -/

/-- A roster block as its members; its digest covers the whole block. -/
def rosterOf (b : Bytes) : Roster :=
  let f := leAt b 5 1
  { topology := bits f 0 2, secondRing := bit f 2, serve := bit f 3, minFw := BitVec.ofNat 32 (leAt b 8 4)
    members := (List.range (leAt b 4 1)).map fun k =>
      let o := 0x10 + 0x30 * k
      { meshId := leAt b o 1, serial := BitVec.ofNat 64 (leAt b (o + 8) 8), idDigest := slice b (o + 16) 32 }
    digest := shake 32 b }

/-- The block has the layout of Table 14.1 and keeps its two rules. -/
def rosterFormOk (b : Bytes) : Bool :=
  let n := leAt b 4 1
  let r := rosterOf b
  leAt b 0 4 == 0x52545357 && decide (1 ≤ n ∧ n ≤ 8) && b.length == 0x10 + 0x30 * n && r.topology != 3
    && bits (leAt b 5 1) 4 4 == 0 && leAt b 6 2 == 0 && leAt b 0xC 4 == 0
    && (List.range n).all (fun k => allZero (slice b (0x11 + 0x30 * k) 7))
    && decide ((r.members.map (·.meshId)).Pairwise (· < ·)) && r.members.all (fun m => decide (m.meshId < 8))
    && (r.topology != 2 || n == 8)

/-- This device's own entry carries its serial, ID_DIGEST and straps. -/
def State.rosterHasUs (s : State) (r : Roster) : Bool :=
  r.members.any fun m => m.serial == Config.serial && m.meshId == s.ownId && m.idDigest == shake 32 (Config.take 1952 Config.identityPublic)

/-! ### What a token does -/

/-- OPEN_SESSION (R386): the device is felled, and SESSION becomes 1. -/
def State.openSession (s : State) : State := s.debugFell.setLife { s.debugFell.life with session := true }

/-- ENROL (R388). -/
def State.enrol (s : State) (body key : Bytes) : State :=
  { s with
    vault := { s.vault with rootSlots := [], active := none, started := false, ready := false }
    tam := { s.tam with storageKey := some key, canary := .valid }
    mesh := { s.mesh with roster := some (rosterOf (body.drop 1952)), slotHome := [], rseq := 0, journal := [] }
    life := { s.life with ownerKey := some (body.take 1952), cmdSeq := 0, recipes := [],
                          st := if s.life.st = .blank then .owned else s.life.st } }

/-- RECOVER (R389), before its warm reset. -/
def State.erased (s : State) : State :=
  { s with
    vault := { s.vault with rootSlots := [], parts := [(0, { live := true })] }
    tam := { s.tam with storageKey := none, canary := .emptied, filters := [] }
    mesh := { s.mesh with roster := none, slotHome := [], sealedMrk := none, mrk := none, rseq := 0, journal := [], unitKeys := [] }
    pwr := { s.pwr with stored := [] }
    life := { s.life with ownerKey := none, cmdSeq := 0, recipes := [], st := .blank } }

/-- The buffer is emptied, DEV_NONCE renewed and TOKEN_RESULT written; a refusal is counted (R384). -/
def State.tokenEnds (s : State) (st : Word16) : State :=
  let s := if s.ent.ready then s.newNonce else s
  s.setLife { s.life with token := [], tokenResult := st, tokenFails := if st = stDone then s.life.tokenFails else satInc s.life.tokenFails }

/-- Why the buffer is refused as a token (R384, R388). -/
def State.tokenRefusal (s : State) (b : Bytes) : Option Word16 :=
  firstFail [(s.ent.ready, stEntNotReady), (s.tokFormOk b, stBad), (s.tokBound b && s.tokSigned b, stAuth), (s.tokAllowed b, stAccess),
    (tokKind b != 2 || (rosterFormOk ((tokBody b).drop 1952) && s.rosterHasUs (rosterOf ((tokBody b).drop 1952))), stBad)]

/-- TOKEN_CMD 1: the buffer is checked and applied (R384). -/
def State.applyToken (s : State) : State :=
  let b := s.life.token
  match s.tokenRefusal b with
  | some st => s.tokenEnds st
  | none =>
    match tokKind b with
    | 1 => (s.tokenEnds stDone).openSession
    | 2 =>
      match s.wardenWork fun o => random o 32 with
      | (some k, t) => (t.enrol (tokBody b) k).tokenEnds stDone
      | (none, _) => s.tokenEnds stEntNotReady
    | _ => (s.tokenEnds stDone).erased.warm

/-- OPEN_SESSION: TOKEN_CMD 1 with anything in the buffer but the other two kinds. -/
def execOpenSession (s : State) : Out :=
  answer s (if tokKind s.life.token = 2 ∨ tokKind s.life.token = 3 then s else s.portLive.applyToken)

/-- ENROL: TOKEN_CMD 1 with an ENROL token in the buffer. -/
def execEnrol (s : State) : Out := answer s (if tokKind s.life.token = 2 then s.portLive.applyToken else s)

/-- RECOVER: TOKEN_CMD 1 with a RECOVER token in the buffer. -/
def execRecover (s : State) : Out := answer s (if tokKind s.life.token = 3 then s.portLive.applyToken else s)

/-- DEBUG_SESSION_END (R386; 18 R424): DBG_EN goes low; with a session open the device warm-resets. -/
def execDebugSessionEnd (s : State) : Out :=
  let t := s.setLife { s.life with dbgEn := false }
  answer s (if s.life.session then t.warm else t)

end Sys2Proof.Machine
end

