-- ==== Sys2Proof/Machine/Registers.lean ====
section
/-! DEFINITION. REGISTER_WRITE: a 32-bit write by any master at a fabric address (00 R7, R8; 02 R25, R29, R30; 13 R313 to R323),
decoded into the set-up registers of BAR0, the Warden's registers, the engine windows, the PAU ports and local SRAM. A register
with a behaviour of its own does what its own command does. -/

namespace Sys2Proof.Machine

/-! ### Words of wider registers -/

def setLo (x : Word64) (v : Word32) : Word64 := x.extractLsb' 32 32 ++ v
def setHi (x : Word64) (v : Word32) : Word64 := v ++ x.extractLsb' 0 32

/-- Word i of a 128-bit mask. -/
def setMaskWord (x : BitVec 128) (i : Nat) (v : Word32) : BitVec 128 :=
  (x &&& ~~~(0xFFFFFFFF#128 <<< (32 * i))) ||| (v.setWidth 128 <<< (32 * i))

/-- Word i of a byte string of n bytes. -/
def setBytes (n : Nat) (x : Bytes) (i : Nat) (v : Word32) : Bytes := putAt (fit n x) (4 * i) (toLE 4 v.toNat)

/-! ### BAR0 (02 Tables 2.4, 2.8 to 2.12) -/

/-- Ring set-up: locked while ENABLED. -/
def Ring.write (x : Ring) (off : Nat) (v : Word32) : Ring :=
  if x.enabled then x
  else
    match off with
    | 0x00 => { x with sqBase := setLo x.sqBase v }
    | 0x04 => { x with sqBase := setHi x.sqBase v }
    | 0x08 => { x with cqBase := setLo x.cqBase v }
    | 0x0C => { x with cqBase := setHi x.cqBase v }
    | 0x10 => { x with piAddr := setLo x.piAddr v }
    | 0x14 => { x with piAddr := setHi x.piAddr v }
    | 0x18 => { x with ciAddr := setLo x.ciAddr v }
    | 0x1C => { x with ciAddr := setHi x.ciAddr v }
    | 0x20 => { x with log2 := v.extractLsb' 0 5, pollMax := v.extractLsb' 8 6 }
    | _ => x

/-- Vault set-up: locked while PG_ENABLED. -/
def Vault.write (x : Vault) (off : Nat) (v : Word32) : Vault :=
  if x.pgEnabled then x
  else
    match off with
    | 0x00 => { x with prqBase := setLo x.prqBase v }
    | 0x04 => { x with prqBase := setHi x.prqBase v }
    | 0x08 => { x with psqBase := setLo x.psqBase v }
    | 0x0C => { x with psqBase := setHi x.psqBase v }
    | 0x10 => { x with psqPi := setLo x.psqPi v }
    | 0x14 => { x with psqPi := setHi x.psqPi v }
    | 0x18 => { x with prqCi := setLo x.prqCi v }
    | 0x1C => { x with prqCi := setHi x.prqCi v }
    | 0x20 => { x with pgLog2 := v.extractLsb' 0 5 }
    | 0x28 => { x with pbufBase := setLo x.pbufBase v }
    | 0x2C => { x with pbufBase := setHi x.pbufBase v }
    | 0x30 => { x with pbufCount := v.extractLsb' 0 13 }
    | _ => x

/-- Function status, +0x04: every flag is W1C. -/
def Func.clearStatus (f : Func) (v : Word32) : Func :=
  { f with overcommit := f.overcommit && !v.getLsbD 0, ciInvalid := f.ciInvalid && !v.getLsbD 1,
           ringFault := f.ringFault && !v.getLsbD 2, mboxBusy := f.mboxBusy && !v.getLsbD 3,
           ringMask := f.ringMask &&& ~~~(v.extractLsb' 8 8) }

/-- A write to CMD (02 R31, Table 2.6). -/
def State.writeCmd (s : State) (n : Nat) (v : Word32) : State :=
  let code := bits v.toNat 0 8
  s.mailbox n code fun s =>
    match code with
    | 1 => s.enableRing n (bits v.toNat 8 3)
    | 2 => s.disableRing n (bits v.toNat 8 3)
    | 3 => s.enablePaging n
    | _ => s.mboxEnd n code stBad

/-- Interrupt set-up (02 Table 2.9): PENDING is 0 while the ring's interrupts are off (R53). -/
def State.writeIrq (s : State) (n off : Nat) (v : Word32) : State :=
  let f := s.func n
  if off < 0x80 then
    let x := f.ring (off / 16)
    match off % 16 with
    | 0 =>
      let y : Ring := { x with vector := v.extractLsb' 0 4, irqEn := v.getLsbD 8 }
      s.setRing n (off / 16) (if y.irqOff then { y with pend := 0 } else y)
    | 4 => s.setRing n (off / 16) { x with count := v.extractLsb' 0 8, timer := v.extractLsb' 16 16 }
    | _ => s
  else if off = 0x80 then s.setFunc n { f with evtStat := f.evtStat &&& ~~~(v.extractLsb' 0 9) }
  else if off = 0x84 then s.setFunc n { f with evtMask := v.extractLsb' 0 9 }
  else if off = 0x88 ∧ n = 0 then { s with host := { s.host with pgCount := v.extractLsb' 0 8, pgTimer := v.extractLsb' 16 16 } }
  else s

/-- A pending vector is sent once its entry is no longer masked. -/
def State.unmasked (s : State) (n i : Nat) : State :=
  let f := s.func n
  if mget f.pba i false && !(mget f.msix i {}).mask then (s.setFunc n { f with pba := mset f.pba i false }).sendVector n i else s

/-- The MSI-X table, as PCIe defines it: address, data, mask (02 R53; notes/assumptions/9.md). -/
def State.writeMsix (s : State) (n off : Nat) (v : Word32) : State :=
  let i := off / 16
  let f := s.func n
  let x : MsixEntry := mget f.msix i {}
  let y : MsixEntry :=
    match off % 16 with
    | 0 => { x with addr := setLo x.addr (v &&& 0xFFFFFFFC) }
    | 4 => { x with addr := setHi x.addr v }
    | 8 => { x with data := v }
    | _ => { x with mask := v.getLsbD 0 }
  if i < 10 then (s.setFunc n { f with msix := mset f.msix i y }).unmasked n i else s

/-- Withy set-up (02 Table 2.11): a port switched off goes down, one switched on trains. -/
def State.writeWithy (s : State) (off : Nat) (v : Word32) : State :=
  let p := off / 16 - 1
  if off < 0x10 ∨ 0x50 ≤ off ∨ off % 16 ≠ 0 then s
  else
    let x := s.port p
    let s := s.setPort p { x with enable := v.getLsbD 0 }
    if x.enable != v.getLsbD 0 then s.linkFell p
    else if v.getLsbD 1 && s.trains p then s.linkFell p
    else s

/-- BAR0 of function n (02 R29, R30). A virtual function decodes 16 KiB; on the physical function in Blank its own blocks ignore
writes. -/
def State.writeBar (s : State) (n off : Nat) (v : Word32) : State :=
  if !(s.func n).present then s
  else if off = 0x104 then s.setFunc n ((s.func n).clearStatus v)
  else if off = 0x110 then s.writeCmd n v
  else if 0x1000 ≤ off ∧ off < 0x1200 then
    let r := (off - 0x1000) / 0x40
    s.setRing n r ((s.ring n r).write (off % 0x40) v)
  else if 0x2000 ≤ off ∧ off < 0x3000 then s.writeIrq n (off - 0x2000) v
  else if 0x3000 ≤ off ∧ off < 0x30A0 then s.writeMsix n (off - 0x3000) v
  else if n ≠ 0 ∨ s.life.st = .blank then s
  else if 0x4000 ≤ off ∧ off < 0x5000 then s.setVault (s.vault.write (off - 0x4000) v)
  else if 0x5000 ≤ off ∧ off < 0x6000 then s.writeWithy (off - 0x5000) v
  else if off = 0x6008 then s.setTime { s.time with ppsEn := v.getLsbD 0, ppsFalling := v.getLsbD 1 }
  else s

/-! ### The Warden's registers -/

/-- An arbiter (10 Table 10.7). -/
def Arb.write (x : Arb) (off : Nat) (v : Word32) : Arb :=
  match off with
  | 0x00 => { x with pendLo := v }
  | 0x04 => { x with pendHi := v.extractLsb' 0 28 }
  | 0x08 => if v.getLsbD 0 then x.mapCommit else x
  | 0x0C => { x with rotP := v.extractLsb' 0 16, rotEn := v.getLsbD 16 }
  | 0x10 => { x with mapErr := x.mapErr && !v.getLsbD 16 }
  | _ => x

/-- The time registers (15 Table 15.9). -/
def State.writeTime (s : State) (off : Nat) (v : Word32) : State :=
  let t := s.time
  match off with
  | 0x00 => s.setTime { t with trim := clampTrim v.toInt }
  | 0x08 => s.setTime { t with setVal := setLo t.setVal v }
  | 0x0C => s.setTime { t with setVal := setHi t.setVal v }
  | 0x10 =>
    if v.getLsbD 0 then s.loadTime t.setVal else if v.getLsbD 1 then s.setTime { t with setPending := true } else s
  | _ => s

/-- CSTATE by its code (15 Table 15.7); code 7 names no state and is not taken (notes/assumptions/41.md). -/
def cstateOf (code : Nat) : Option CState :=
  ([CState.off, .powering, .quiesced, .testing, .serving, .draining, .failed] : List CState)[code]?

/-- A domain's word: ON switches it, OP is its operating point (15 Table 15.10). -/
def State.writeDomain (s : State) (d : Nat) (v : Word32) : State :=
  let s := if 3 ≤ d ∧ d ≤ 18 then s.setDomain d { s.domain d with op := v.getLsbD 4 } else s
  if !s.switchable d then s
  else if v.getLsbD 0 then s.rampOn d (s.domain d).op
  else if (s.domain d).on then
    match domainCluster d with
    | some c => (s.powerOff d).setCst c .off
    | none => s.powerOff d
  else s

/-- The power registers (15 Table 15.10). -/
def State.writePower (s : State) (off : Nat) (v : Word32) : State :=
  if off < 4 * 30 then s.writeDomain (off / 4) v
  else if off = 0x100 then s.setPwr { s.pwr with servingBits := v.extractLsb' 0 8 }
  else if 0x104 ≤ off ∧ off < 0x124 then (cstateOf (bits v.toNat 0 3)).elim s fun c => s.setCst ((off - 0x104) / 4) c
  else s

/-- The tamper registers (12 Table 12.9): DROOP_MV of the CLC and CLE domains is clamped (R311). -/
def State.writeTamper (s : State) (off : Nat) (v : Word32) : State :=
  if off = 0 then
    let s := s.setTam { s.tam with testEntry := v.extractLsb' 0 8 }
    if v.getLsbD 8 && !s.tam.testBusy && s.testable (bits v.toNat 0 8) then s.startTest (bits v.toNat 0 8) else s
  else if 0x10C ≤ off ∧ off ≤ 0x148 then
    let d := (off - 0x100) / 4
    let c := (d - 3) % 8
    s.setTam { s.tam with droop := mset s.tam.droop d (BitVec.ofNat 8 (max (sentConst c 2) (min (sentConst c 3) (bits v.toNat 0 8)))) }
  else s

/-- The staged copy of a region (13 Table 13.4, R325). -/
def Region.stage (x : Region) (host : Bool) (off : Nat) (v : Word32) : Region :=
  if off = 0x08 then { x with base := setLo x.base v }
  else if off = 0x0C then { x with base := setHi x.base (if host then v else v &&& 0xFF) }
  else if host then x
  else if 0x10 ≤ off ∧ off < 0x20 then { x with rmask := setMaskWord x.rmask ((off - 0x10) / 4) v }
  else if 0x20 ≤ off ∧ off < 0x30 then { x with wmask := setMaskWord x.wmask ((off - 0x20) / 4) v }
  else x

/-- Gate g's registers (13 Tables 13.4, 13.8): a write of CTRL commits. -/
def State.writeGate (s : State) (g off : Nat) (v : Word32) : State :=
  let x := s.gateOf g
  if off = 0x004 then (if v.getLsbD 0 then s.setGate g { x with fenceBusy := true, fenceEpoch := x.epoch } else s)
  else if off = 0x008 then s.setGate g { x with ruleErr := x.ruleErr && !v.getLsbD 1 }
  else if off = 0x020 then s.setGate g { x with faultValid := x.faultValid && !v.getLsbD 15 }
  else if 0x1000 ≤ off ∧ off < 0x1000 + 0x40 * gateRegions g then
    let r := (off - 0x1000) / 0x40
    if off % 0x40 = 0 then s.regionCommit g r v
    else s.setGate g { x with staged := mset x.staged r ((mget x.staged r {}).stage (g == 0) (off % 0x40) v) }
  else s

/-- The debug block (16 Table 16.3). -/
def State.writeDebug (s : State) (off : Nat) (v : Word32) : State :=
  if off = 0x004 then
    (if bits v.toNat 0 8 = 1 then s.applyToken else if bits v.toNat 0 8 = 2 then s.setLife { s.life with token := [] } else s)
  else if off = 0x030 then
    (if s.life.token.length + 4 ≤ 16384 then s.setLife { s.life with token := s.life.token ++ toLE 4 v.toNat } else s)
  else if 0x040 ≤ off ∧ off < 0x800 ∧ s.life.session then s.setLife { s.life with runControl := mset s.life.runControl off v }
  else s

/-- A margin sentinel (07 R206, Table 7.10): a change of ADVANCE clears its counters. -/
def State.writeSentinel (s : State) (k off : Nat) (v : Word32) : State :=
  let x := s.sentinel (k / 2) (k % 2)
  if off ≠ 0 ∨ !(s.domain (11 + k / 2)).up then s
  else if x.advance = v.extractLsb' 0 4 then s.setSentinel (k / 2) (k % 2) { x with en := v.getLsbD 8 }
  else s.setSentinel (k / 2) (k % 2) { advance := v.extractLsb' 0 4, en := v.getLsbD 8 }

/-- The Warden's 16 MiB (13 Table 13.3; 10 R260; 12 R312; 13 R316; 15 R379). The entropy registers are read only. The
sentinels' address is not given: FCE f of cluster c has its own 64 bytes from 0x0E0C_0000 + 0x40 · (2 c + f) (DESIGN CHOICE,
notes/assumptions/41.md). -/
def State.writeWarden (s : State) (off : Nat) (v : Word32) : State :=
  if off < 0xC0000 then
    let a := off / 0x10000
    if s.arbUp a then s.setArb a ((s.arb a).write (off % 0x10000) v) else s
  else if 0xC0000 ≤ off ∧ off < 0xC0400 then s.writeSentinel ((off - 0xC0000) / 0x40) (off % 0x40) v
  else if 0x100000 ≤ off ∧ off < 0x180000 then s.writeTime (off - 0x100000) v
  else if 0x180000 ≤ off ∧ off < 0x200000 then s.writePower (off - 0x180000) v
  else if 0x300000 ≤ off ∧ off < 0x400000 then s.writeTamper (off - 0x300000) v
  else if 0x400000 ≤ off ∧ off < 0x460000 then s.writeGate ((off - 0x400000) / 0x10000) (off % 0x10000) v
  else if 0x500000 ≤ off ∧ off < 0x501000 then s.writeDebug (off - 0x500000) v
  else s

/-! ### Engine windows (07 Tables 7.2, 7.3; 08 R209, Table 8.2) -/

/-- The write of a GEN field (07 R189). -/
def State.issueFetch (s : State) (t : KeyTarget) (w : Word32) : State :=
  match execKeyFetchIssue t w s with
  | .next t => t
  | _ => s

/-- Block size of the running request: that of its key, else 16. -/
def CPage.block (x : CPage) : Nat :=
  match x.req with
  | none => 16
  | some q =>
    match (q.needs x).map x.reg with
    | .held x _ _ _ :: _ => algBlock x.alg.toNat
    | _ => 16

/-- A word of DIN; while a request runs, the word that ends a block hands the block over. -/
def CPage.writeDin (x : CPage) (i : Nat) (v : Word32) : CPage :=
  let d := setBytes 16 x.din i v
  let n := x.block
  { x with din := d, feed := if x.state = .busy ∧ 4 * (i + 1) = n then x.feed ++ d.take n else x.feed }

/-- A page register with no behaviour of its own (07 Table 7.3). -/
def CPage.write (x : CPage) (off : Nat) (v : Word32) : CPage :=
  if 0x20 ≤ off ∧ off < 0x30 then x.writeDin ((off - 0x20) / 4) v
  else if 0x54 ≤ off ∧ off < 0x60 then (if x.nonceLocked then x else { x with nonce := setBytes 12 x.nonce ((off - 0x54) / 4) v })
  else if 0x70 ≤ off ∧ off < 0x80 then { x with pan := setBytes 16 x.pan ((off - 0x70) / 4) v }
  else
    match off with
    | 0x08 => { x with roleA := v.extractLsb' 0 16 }
    | 0x0C => { x with algsetA := v }
    | 0x14 => { x with roleB := v.extractLsb' 0 16 }
    | 0x18 => { x with algsetB := v }
    | 0x40 => { x with earlyRead := x.earlyRead && !v.getLsbD 4 }
    | 0x4C => { x with tlen := v.extractLsb' 0 5, tail := v.extractLsb' 8 5, macalg := v.extractLsb' 16 2, pad := v.extractLsb' 18 2 }
    | 0x50 => { x with pinIn := v.extractLsb' 0 8, pinOut := v.extractLsb' 8 8 }
    | _ => x

/-- A cipher page's register. -/
def State.writePage (s : State) (a : PageAddr) (off : Nat) (v : Word32) : State :=
  match s.heldPage a with
  | none => s
  | some k =>
    if off = 0x00 then s.writeOp a (v.extractLsb' 0 8) v
    else if off = 0x04 then s.issueFetch (.cipher a false) v
    else if off = 0x10 then s.issueFetch (.cipher a true) v
    else (s.setCpage k ((s.cpage k).write off v)).tryStart k

/-- A digest page's register with no behaviour of its own (08 Table 8.2): the configuration is locked while STATE is FEEDING or
BUSY. -/
def DPage.write (x : DPage) (off : Nat) (v : Word32) : DPage :=
  let lock := x.state == .feeding || x.state == .busy
  if 0x80 ≤ off ∧ off < 0xC0 then { x with expect := setBytes 64 x.expect ((off - 0x80) / 4) v }
  else if off = 0x08 then { x with roleA := v.extractLsb' 0 16 }
  else if off = 0x0C then { x with algsetA := v }
  else if off = 0x40 then { x with earlyRead := x.earlyRead && !v.getLsbD 4 }
  else if lock then x
  else
    match off with
    | 0x10 => { x with algo := v.extractLsb' 0 3, secret := v.getLsbD 4, dest := v.extractLsb' 5 3, peer := v.extractLsb' 8 3,
                       src := v.extractLsb' 11 2, outLen := v.extractLsb' 16 13 }
    | 0x14 => { x with cmpLen := v.extractLsb' 0 7, padc := v.extractLsb' 8 8, frame := v.extractLsb' 16 2 }
    | 0x18 => { x with decl := setLo x.decl v }
    | 0x1C => { x with decl := setHi x.decl v }
    | 0x24 => { x with saveAddr := v.extractLsb' 0 18 &&& 0x3FFC0 }
    | _ => x

/-- OP of a digest page (08 Table 8.4): any other code puts it in FAULT, unless it is BUSY. -/
def State.writeDgeOp (s : State) (k : Nat) (code : Nat) : State :=
  match code with
  | 0x50 => s.dgeInit k
  | 0x51 => (s.keyAbsorb k).after
  | 0x52 => (s.dgeFinal k).after
  | 0x53 => (s.dgeSave k).after
  | _ => if (s.dpage k).state = .busy then s else s.dpageMisuse k

def State.writeData (s : State) (a : DgeAddr) (v : Word32) : State :=
  match execDgeDataWrite a v s with
  | .next t => t
  | _ => s

def State.writeDpage (s : State) (a : DgeAddr) (off : Nat) (v : Word32) : State :=
  match s.heldDpage a with
  | none => s
  | some k =>
    if off = 0x00 then s.writeDgeOp k (bits v.toNat 0 8)
    else if off = 0x04 then s.issueFetch (.digest a) v
    else if off = 0x20 then s.writeData a v
    else s.setDpage k ((s.dpage k).write off v)

/-- CLOSE of a cipher page and of a digest page. -/
def State.closePage (s : State) (a : PageAddr) : State :=
  (s.heldPage a).elim s fun k => s.dropPage (pkCl k) (pkEng k) (pkPart k) (pkPage k) false

def State.closeDpage (s : State) (a : DgeAddr) : State :=
  (s.heldDpage a).elim s fun k => s.dropDpage (dkCl k) (pkPart k) (pkPage k) false

/-- A write by a core or the Warden into the windows of the engines (07 Table 7.2). -/
def State.writeWindow (s : State) (who : Who) (off : Nat) (v : Word32) : State :=
  let cl : Cl := Fin.ofNat 8 (off / 0x10000)
  let o := off % 0x1000
  let pg : Fin 8 := Fin.ofNat 8 (o / 0x100)
  let named : Fin 8 := Fin.ofNat 8 v.toNat
  let e := off % 0x10000 / 0x1000
  if 4 ≤ e then s
  else if e = 3 then
    if o < 0x800 then s.writeDpage { who := who, cl := cl, page := pg } (o % 0x100) v
    else if o = 0x800 then (if 4 < v.toNat then s else s.openPages who.val cl.val 3 (max 1 v.toNat))
    else if o = 0x808 then s.closeDpage { who := who, cl := cl, page := named }
    else s
  else
    let eng : Eng := if e = 0 then .fce0 else if e = 1 then .fce1 else .kce
    if o < 0x800 then s.writePage { who := who, cl := cl, eng := eng, page := pg } (o % 0x100) v
    else if o = 0x800 then s.openPages who.val cl.val e 1
    else if o = 0x808 then s.closePage { who := who, cl := cl, eng := eng, page := named }
    else s

/-! ### PAU ports (09 Tables 9.1, 9.2) -/

/-- A context register with no behaviour of its own. -/
def Ctx.write (x : Ctx) (off : Nat) (v : Word32) : Ctx :=
  if 0x30 ≤ off ∧ off < 0x40 then { x with decl := setBytes 16 x.decl ((off - 0x30) / 4) v }
  else if 0x80 ≤ off ∧ off < 0xC0 then { x with pre := setBytes 64 x.pre ((off - 0x80) / 4) v }
  else if 0xC0 ≤ off ∧ off < 0x100 then { x with suf := setBytes 64 x.suf ((off - 0xC0) / 4) v }
  else
    match off with
    | 0x08 => { x with roleA := v.extractLsb' 0 16 }
    | 0x0C => { x with algsetA := v }
    | 0x10 => { x with inOff := v.extractLsb' 0 18 }
    | 0x14 => { x with inLen := v.extractLsb' 0 16 }
    | 0x18 => { x with outOff := v.extractLsb' 0 18 }
    | 0x1C => { x with outCap := v.extractLsb' 0 16 }
    | 0x20 => { x with xofPage := v.extractLsb' 0 3, xofEn := v.getLsbD 3, sinkPage := v.extractLsb' 4 3, sink := v.extractLsb' 7 2 }
    | 0x24 => { x with size := v.extractLsb' 0 5, p384 := v.getLsbD 8 }
    | 0x28 => { x with prefixLen := v.extractLsb' 0 7, suffixLen := v.extractLsb' 8 7 }
    | 0x40 => { x with earlyRead := x.earlyRead && !v.getLsbD 4 }
    | _ => x

def State.openCtx (s : State) (who : Who) : State :=
  match execPauOpen who s with
  | .next t => t
  | _ => s

/-- A write by a core or the Warden to its half's PAU port: only the context it holds answers. -/
def State.writePort (s : State) (who : Who) (off : Nat) (v : Word32) : State :=
  if off < 0x800 then
    match s.heldCtx who.val with
    | none => s
    | some k =>
      if k % 8 ≠ off / 0x100 then s
      else if off % 0x100 = 0x00 then (s.writePau who.val (v.extractLsb' 0 8)).after
      else if off % 0x100 = 0x04 then s.issueFetch (.pau who) v
      else s.setCtx k ((s.ctx k).write (off % 0x100) v)
  else if off = 0x800 then s.openCtx who
  else if off = 0x808 then (s.heldCtx who.val).elim s fun k => s.dropCtx k false
  else s

/-! ### Local SRAM -/

/-- The enabled bytes of a word, while the cluster's CLC domain is up. -/
def State.writeSram (s : State) (off : Nat) (v : Word32) (be : BitVec 4) : State :=
  let w := off / 2 ^ 18
  if !(s.domain (3 + w / 8)).up then s
  else
    (List.range 4).foldl (fun (s : State) i =>
      if be.getLsbD i then s.sramPut w (off % 2 ^ 18 + i) [v.extractLsb' (8 * i) 8] else s) s

/-! ### The decode -/

/-- A write that its gate let through. Set-up and internal registers take whole aligned words only (02 R29). -/
def State.regWrite (s : State) (m a : Nat) (v : Word32) (be : BitVec 4) : State :=
  if 0x04000000 ≤ a ∧ a < 0x05000000 then s.writeSram (a - 0x04000000) v be
  else if be ≠ 0xF ∨ a % 4 ≠ 0 then s
  else if 0x0F800000 ≤ a ∧ a < 0x0F900000 then s.writeBar ((a - 0x0F800000) / 0x8000) (a % 0x8000) v
  else if 0x0E500000 ≤ a ∧ a < 0x0E501000 then (if m = 80 then s.portLive else s).writeDebug (a - 0x0E500000) v
  else if 0x0E000000 ≤ a ∧ a < 0x0E500000 then s.writeWarden (a - 0x0E000000) v
  else if h : m < 65 then
    if 0x0F000000 ≤ a ∧ a < 0x0F080000 then s.writeWindow ⟨m, h⟩ (a - 0x0F000000) v
    else if 0x0F100000 ≤ a ∧ a < 0x0F101000 then s.writePort ⟨m, h⟩ (a - 0x0F100000) v
    else s
  else s

/-- What a refused write does to its master (13 Table 13.7); the other masters' refusals stand with their own commands
(notes/assumptions/41.md). -/
def State.refusedWrite (s : State) (m : Nat) : State :=
  if m < 64 then (if (s.domain (3 + m / 8)).up then (s.coreFault m).after else s)
  else if m = 64 then s.warm
  else if m = 73 ∧ s.life.boot ≠ .done then s.setLife { s.life with boot := .stopped }
  else s

/-- REGISTER_WRITE (00 R7; 02 R29; 13 R313, R323). A host write outside BAR0 of its function does not exist, and neither does a
write under an identity that no master carries (13 R314); nothing is written without main power or under SYS_RST_N, and no host
write comes while PERST_N is low. -/
def execRegisterWrite (m : Fin 128) (addr : BitVec 40) (val : Word32) (be : BitVec 4) (s : State) : Out :=
  answer s <|
    if 81 ≤ m.val ∨ !s.mainRun ∨ (m.val = 74 ∧ !s.life.perstN) then s
    else
      match s.gateCheck (gateFor addr.toNat) m.val addr.toNat true ((s.tagOf m.val).elim 0 (·.1)) with
      | (t, true) => t.regWrite m.val addr.toNat val be
      | (t, false) => t.refusedWrite m.val

end Sys2Proof.Machine
end

