-- ==== Sys2Proof/Machine/Verbs.lean ====
section
/-! DEFINITION. The verbs' commands (04 Tables 4.4 to 4.19): each runs the verb of its selector on descriptor d. -/

namespace Sys2Proof.Machine

/-! ### NOP (02 R35) -/

/-- NOP (R35). -/
def execNop (d : Nat) (s : State) : Out := answer s (s.runVerb formNop 0 0 d true).after

/-! ### PIN family (04 Table 4.4) -/

/-- PIN_TRANSLATE (R97). -/
def execPinTranslate (d : Nat) (chk : Bool) (s : State) : Out := answer s (s.runVerb formPinTranslate 1 1 d chk).after

/-- PIN_VERIFY (R100). -/
def execPinVerify (d : Nat) (chk : Bool) (s : State) : Out := answer s (s.runVerb formPinVerify 1 2 d chk).after

/-- PIN_CHANGE (R100). -/
def execPinChange (d : Nat) (chk : Bool) (s : State) : Out := answer s (s.runVerb formPinChange 1 3 d chk).after

/-- PIN_SET (R100). -/
def execPinSet (d : Nat) (chk : Bool) (s : State) : Out := answer s (s.runVerb formPinSet 1 4 d chk).after

/-! ### DUKPT family (04 Table 4.8) -/

/-- DUKPT_REGISTER (R102). -/
def execDukptRegister (d : Nat) (chk : Bool) (s : State) : Out := answer s (s.runVerb formDukptRegister 2 1 d chk).after

/-- DUKPT_STATUS (R102). -/
def execDukptStatus (d : Nat) (s : State) : Out := answer s (s.runVerb formDukptStatus 2 2 d true).after

/-- DUKPT_RETIRE (R102). -/
def execDukptRetire (d : Nat) (s : State) : Out := answer s (s.runVerb formDukptRetire 2 3 d true).after

/-- DUKPT_MAC_GENERATE (R105). -/
def execDukptMacGenerate (d : Nat) (chk : Bool) (s : State) : Out := answer s (s.runVerb formDukptMacGenerate 2 4 d chk).after

/-- DUKPT_MAC_VERIFY (R105). -/
def execDukptMacVerify (d : Nat) (chk : Bool) (s : State) : Out := answer s (s.runVerb formDukptMacVerify 2 5 d chk).after

/-- DUKPT_DATA_DECRYPT (R105). -/
def execDukptDataDecrypt (d : Nat) (chk : Bool) (s : State) : Out := answer s (s.runVerb formDukptDataDecrypt 2 6 d chk).after

/-- DUKPT_DATA_ENCRYPT (R105). -/
def execDukptDataEncrypt (d : Nat) (chk : Bool) (s : State) : Out := answer s (s.runVerb formDukptDataEncrypt 2 7 d chk).after

/-- INITIAL_DERIVE (R105). -/
def execInitialDerive (d : Nat) (chk : Bool) (s : State) : Out := answer s (s.runVerb formInitialDerive 2 8 d chk).after

/-! ### MAC family (04 Table 4.10) -/

/-- MAC_GENERATE (R106). -/
def execMacGenerate (d : Nat) (chk : Bool) (s : State) : Out := answer s (s.runVerb formMacGenerate 3 1 d chk).after

/-- MAC_VERIFY (R106). -/
def execMacVerify (d : Nat) (chk : Bool) (s : State) : Out := answer s (s.runVerb formMacVerify 3 2 d chk).after

/-! ### EMV family -/

/-- ARQC_VERIFY (R109). -/
def execArqcVerify (d : Nat) (chk : Bool) (s : State) : Out := answer s (s.runVerb formArqcVerify 4 1 d chk).after

/-! ### Key blocks -/

/-- KEY_BLOCK_IMPORT (R110). -/
def execKeyBlockImport (d : Nat) (chk : Bool) (s : State) : Out := answer s (s.runVerb formKeyBlockImport 5 1 d chk).after

/-- KEY_BLOCK_EXPORT (R111). -/
def execKeyBlockExport (d : Nat) (chk : Bool) (s : State) : Out := answer s (s.runVerb formKeyBlockExport 5 2 d chk).after

/-- KEY_BLOCK_DELETE (R112). -/
def execKeyBlockDelete (d : Nat) (s : State) : Out := answer s (s.runVerb formKeyBlockDelete 5 3 d true).after

/-! ### Key components -/

/-- COMPONENT_LOAD (R113). -/
def execComponentLoad (d : Nat) (chk : Bool) (s : State) : Out := answer s (s.runVerb formComponentLoad 6 1 d chk).after

/-- COMPONENT_ABORT (R114). -/
def execComponentAbort (d : Nat) (s : State) : Out := answer s (s.runVerb formComponentAbort 6 2 d true).after

/-! ### Remote key loading -/

/-- PQ_SEND (R116). -/
def execPqSend (d : Nat) (chk : Bool) (s : State) : Out := answer s (s.runVerb formPqSend 7 1 d chk).after

/-- RSA_SEND (R117). -/
def execRsaSend (d : Nat) (chk : Bool) (s : State) : Out := answer s (s.runVerb formRsaSend 7 2 d chk).after

/-- ECC_SEND (R117). -/
def execEccSend (d : Nat) (chk : Bool) (s : State) : Out := answer s (s.runVerb formEccSend 7 3 d chk).after

/-- RKL_RECEIVE (R118). -/
def execRklReceive (d : Nat) (chk : Bool) (s : State) : Out := answer s (s.runVerb formRklReceive 7 4 d chk).after

/-! ### Generic family -/

/-- GENERIC_ENCRYPT (R119). -/
def execGenericEncrypt (d : Nat) (chk : Bool) (s : State) : Out := answer s (s.runVerb formGenericEncrypt 8 1 d chk).after

/-- GENERIC_DECRYPT (R119). -/
def execGenericDecrypt (d : Nat) (chk : Bool) (s : State) : Out := answer s (s.runVerb formGenericDecrypt 8 2 d chk).after

/-- GCM_ENCRYPT (R119). -/
def execGcmEncrypt (d : Nat) (chk : Bool) (s : State) : Out := answer s (s.runVerb formGcmEncrypt 8 3 d chk).after

/-- GCM_DECRYPT (R204). -/
def execGcmDecrypt (d : Nat) (chk : Bool) (s : State) : Out := answer s (s.runVerb formGcmDecrypt 8 4 d chk).after

/-! ### Support family -/

/-- SUPPORT_DIGEST (R120). -/
def execSupportDigest (d : Nat) (chk : Bool) (s : State) : Out := answer s (s.runVerb formSupportDigest 9 1 d chk).after

/-- SUPPORT_COMPARE (R120). -/
def execSupportCompare (d : Nat) (chk : Bool) (s : State) : Out := answer s (s.runVerb formSupportCompare 9 2 d chk).after

/-- SUPPORT_RANDOM (R120). -/
def execSupportRandom (d : Nat) (s : State) : Out := answer s (s.runVerb formSupportRandom 9 3 d true).after

/-- SUPPORT_SIGN (R120). -/
def execSupportSign (d : Nat) (chk : Bool) (s : State) : Out := answer s (s.runVerb formSupportSign 9 4 d chk).after

/-- SUPPORT_VERIFY (R120). -/
def execSupportVerify (d : Nat) (chk : Bool) (s : State) : Out := answer s (s.runVerb formSupportVerify 9 5 d chk).after

/-- KEM_ENCAP (R120). -/
def execKemEncap (d : Nat) (chk : Bool) (s : State) : Out := answer s (s.runVerb formKemEncap 9 6 d chk).after

/-- KEM_DECAP (R120). -/
def execKemDecap (d : Nat) (chk : Bool) (s : State) : Out := answer s (s.runVerb formKemDecap 9 7 d chk).after

/-- VAULT_GET (R121). -/
def execVaultGet (d : Nat) (s : State) : Out := answer s (s.runVerb formVaultGet 9 8 d true).after

/-- VAULT_PUT (R121). -/
def execVaultPut (d : Nat) (s : State) : Out := answer s (s.runVerb formVaultPut 9 9 d true).after

/-- COUNTER_INC (R121). -/
def execCounterInc (d : Nat) (s : State) : Out := answer s (s.runVerb formCounterInc 9 10 d true).after

/-- TIME_READ (R120). -/
def execTimeRead (d : Nat) (s : State) : Out := answer s (s.runVerb formTimeRead 9 11 d true).after

/-- FREQ_REPORT (R367). -/
def execFreqReport (d : Nat) (s : State) : Out := answer s (s.runVerb formFreqReport 9 12 d true).after

/-! ### Recipes (05) -/

/-- RECIPE_RUN (05 R143). -/
def execRecipeRun (d : Nat) (chk : Bool) (s : State) : Out := answer s (s.runRecipe d chk).after

end Sys2Proof.Machine
end

