-- ==== Sys2Proof/Machine/Dispatch.lean ====
section
/-! DEFINITION. One arm per command: its meaning. -/

namespace Sys2Proof.Machine

def exec (i : Instr) (s : State) : Host.Outcome State Fault Refusal :=
  match i with
  | .registerWrite m addr val be => Sys2Proof.Machine.execRegisterWrite m addr val be s
  | .timeLoRead fn => Sys2Proof.Machine.execTimeLoRead fn s
  | .ringEnable fn r => Sys2Proof.Machine.execRingEnable fn r s
  | .ringDisable fn r => Sys2Proof.Machine.execRingDisable fn r s
  | .ringDisableDone fn r => Sys2Proof.Machine.execRingDisableDone fn r s
  | .pagingEnable fn => Sys2Proof.Machine.execPagingEnable fn s
  | .ringPoll t stores => Sys2Proof.Machine.execRingPoll t stores s
  | .descriptorRead => Sys2Proof.Machine.execDescriptorRead s
  | .dispatch => Sys2Proof.Machine.execDispatch s
  | .fenceRelease fn r => Sys2Proof.Machine.execFenceRelease fn r s
  | .irqTimer t => Sys2Proof.Machine.execIrqTimer t s
  | .slotReserve p => Sys2Proof.Machine.execSlotReserve p s
  | .nop d => Sys2Proof.Machine.execNop d s
  | .pinTranslate d chk => Sys2Proof.Machine.execPinTranslate d chk s
  | .pinVerify d chk => Sys2Proof.Machine.execPinVerify d chk s
  | .pinChange d chk => Sys2Proof.Machine.execPinChange d chk s
  | .pinSet d chk => Sys2Proof.Machine.execPinSet d chk s
  | .dukptRegister d chk => Sys2Proof.Machine.execDukptRegister d chk s
  | .dukptStatus d => Sys2Proof.Machine.execDukptStatus d s
  | .dukptRetire d => Sys2Proof.Machine.execDukptRetire d s
  | .dukptMacGenerate d chk => Sys2Proof.Machine.execDukptMacGenerate d chk s
  | .dukptMacVerify d chk => Sys2Proof.Machine.execDukptMacVerify d chk s
  | .dukptDataDecrypt d chk => Sys2Proof.Machine.execDukptDataDecrypt d chk s
  | .dukptDataEncrypt d chk => Sys2Proof.Machine.execDukptDataEncrypt d chk s
  | .initialDerive d chk => Sys2Proof.Machine.execInitialDerive d chk s
  | .macGenerate d chk => Sys2Proof.Machine.execMacGenerate d chk s
  | .macVerify d chk => Sys2Proof.Machine.execMacVerify d chk s
  | .arqcVerify d chk => Sys2Proof.Machine.execArqcVerify d chk s
  | .keyBlockImport d chk => Sys2Proof.Machine.execKeyBlockImport d chk s
  | .keyBlockExport d chk => Sys2Proof.Machine.execKeyBlockExport d chk s
  | .keyBlockDelete d => Sys2Proof.Machine.execKeyBlockDelete d s
  | .componentLoad d chk => Sys2Proof.Machine.execComponentLoad d chk s
  | .componentAbort d => Sys2Proof.Machine.execComponentAbort d s
  | .pqSend d chk => Sys2Proof.Machine.execPqSend d chk s
  | .rsaSend d chk => Sys2Proof.Machine.execRsaSend d chk s
  | .eccSend d chk => Sys2Proof.Machine.execEccSend d chk s
  | .rklReceive d chk => Sys2Proof.Machine.execRklReceive d chk s
  | .genericEncrypt d chk => Sys2Proof.Machine.execGenericEncrypt d chk s
  | .genericDecrypt d chk => Sys2Proof.Machine.execGenericDecrypt d chk s
  | .gcmEncrypt d chk => Sys2Proof.Machine.execGcmEncrypt d chk s
  | .gcmDecrypt d chk => Sys2Proof.Machine.execGcmDecrypt d chk s
  | .supportDigest d chk => Sys2Proof.Machine.execSupportDigest d chk s
  | .supportCompare d chk => Sys2Proof.Machine.execSupportCompare d chk s
  | .supportRandom d => Sys2Proof.Machine.execSupportRandom d s
  | .supportSign d chk => Sys2Proof.Machine.execSupportSign d chk s
  | .supportVerify d chk => Sys2Proof.Machine.execSupportVerify d chk s
  | .kemEncap d chk => Sys2Proof.Machine.execKemEncap d chk s
  | .kemDecap d chk => Sys2Proof.Machine.execKemDecap d chk s
  | .vaultGet d => Sys2Proof.Machine.execVaultGet d s
  | .vaultPut d => Sys2Proof.Machine.execVaultPut d s
  | .counterInc d => Sys2Proof.Machine.execCounterInc d s
  | .timeRead d => Sys2Proof.Machine.execTimeRead d s
  | .freqReport d => Sys2Proof.Machine.execFreqReport d s
  | .recipeRun d chk => Sys2Proof.Machine.execRecipeRun d chk s
  | .partitionCreate d chk => Sys2Proof.Machine.execPartitionCreate d s chk
  | .partitionDestroy d chk => Sys2Proof.Machine.execPartitionDestroy d s chk
  | .quotaSet d chk => Sys2Proof.Machine.execQuotaSet d s chk
  | .quotaReport d chk => Sys2Proof.Machine.execQuotaReport d s chk
  | .hostWindowSet d chk => Sys2Proof.Machine.execHostWindowSet d s chk
  | .hostWindowRetire p => Sys2Proof.Machine.execHostWindowRetire p s
  | .partitionReset d chk => Sys2Proof.Machine.execPartitionReset d s chk
  | .masterGenerate d chk => Sys2Proof.Machine.execMasterGenerate d s chk
  | .keypairGenerate d chk => Sys2Proof.Machine.execKeypairGenerate d chk s
  | .slotClear d chk => Sys2Proof.Machine.execSlotClear d s chk
  | .anchorAdvance d chk => Sys2Proof.Machine.execAnchorAdvance d s chk
  | .custodianSet d chk => Sys2Proof.Machine.execCustodianSet d s chk
  | .trustAnchorSet d chk => Sys2Proof.Machine.execTrustAnchorSet d s chk
  | .recipeLoad d chk => Sys2Proof.Machine.execRecipeLoad d s chk
  | .recipeRevoke d chk => Sys2Proof.Machine.execRecipeRevoke d s chk
  | .recipeKeyRegister d chk => Sys2Proof.Machine.execRecipeKeyRegister d s chk
  | .clusterQuiesce d chk => Sys2Proof.Machine.execClusterQuiesce d s chk
  | .clusterDrained c => Sys2Proof.Machine.execClusterDrained c s
  | .clusterPower d chk => Sys2Proof.Machine.execClusterPower d s chk
  | .clusterRejoin d testsPass chk => Sys2Proof.Machine.execClusterRejoin d testsPass s chk
  | .clusterRepair c testsPass => Sys2Proof.Machine.execClusterRepair c testsPass s
  | .monitorFilterSet d chk => Sys2Proof.Machine.execMonitorFilterSet d s chk
  | .firmwareLoad d chk => Sys2Proof.Machine.execFirmwareLoad d s chk
  | .firmwareActivate d chk => Sys2Proof.Machine.execFirmwareActivate d s chk
  | .timeSet d chk => Sys2Proof.Machine.execTimeSet d s chk
  | .attestQuote d chk => Sys2Proof.Machine.execAttestQuote d s chk
  | .deviceReset d chk => Sys2Proof.Machine.execDeviceReset d s chk
  | .entropyRawEnter d chk => Sys2Proof.Machine.execEntropyRawEnter d s chk
  | .entropyRawCapture d chk => Sys2Proof.Machine.execEntropyRawCapture d s chk
  | .entropyRawLeave d chk => Sys2Proof.Machine.execEntropyRawLeave d s chk
  | .functionLevelReset fn => Sys2Proof.Machine.execFunctionLevelReset fn s
  | .warmReset => Sys2Proof.Machine.execWarmReset s
  | .coldReset => Sys2Proof.Machine.execColdReset s
  | .sysRstNAssert ns => Sys2Proof.Machine.execSysRstNAssert ns s
  | .sysRstNRelease straps => Sys2Proof.Machine.execSysRstNRelease straps s
  | .perstNFall => Sys2Proof.Machine.execPerstNFall s
  | .perstNRise => Sys2Proof.Machine.execPerstNRise s
  | .monitorConfirm k high => Sys2Proof.Machine.execMonitorConfirm k high s
  | .eventWindowClose => Sys2Proof.Machine.execEventWindowClose s
  | .scrubDone => Sys2Proof.Machine.execScrubDone s
  | .tallyProgram => Sys2Proof.Machine.execTallyProgram s
  | .uvClassify powerLoss => Sys2Proof.Machine.execUvClassify powerLoss s
  | .monitorRearm dom => Sys2Proof.Machine.execMonitorRearm dom s
  | .testGo k => Sys2Proof.Machine.execTestGo k s
  | .monitorTestEnd confirmed => Sys2Proof.Machine.execMonitorTestEnd confirmed s
  | .monitorTestPeriodic => Sys2Proof.Machine.execMonitorTestPeriodic s
  | .sentinelPhase1End c => Sys2Proof.Machine.execSentinelPhase1End c s
  | .sentinelIntervalEnd c => Sys2Proof.Machine.execSentinelIntervalEnd c s
  | .cellSwitchover toCell => Sys2Proof.Machine.execCellSwitchover toCell s
  | .mainPowerUp => Sys2Proof.Machine.execMainPowerUp s
  | .mapCommit a => Sys2Proof.Machine.execMapCommit a s
  | .rotationCommit a => Sys2Proof.Machine.execRotationCommit a s
  | .arbiterDecision a e => Sys2Proof.Machine.execArbiterDecision a e s
  | .coreFault core cause => Sys2Proof.Machine.execCoreFault core cause s
  | .engineOpen who cl eng => Sys2Proof.Machine.execEngineOpen who cl eng s
  | .engineClose a => Sys2Proof.Machine.execEngineClose a s
  | .keyFetchIssue t w => Sys2Proof.Machine.execKeyFetchIssue t w s
  | .keyFetch => Sys2Proof.Machine.execKeyFetch s
  | .enc a w => Sys2Proof.Machine.execEnc a w s
  | .dec a w => Sys2Proof.Machine.execDec a w s
  | .bufWrap a w => Sys2Proof.Machine.execBufWrap a w s
  | .bufUnwrap a w => Sys2Proof.Machine.execBufUnwrap a w s
  | .bufRandom a w => Sys2Proof.Machine.execBufRandom a w s
  | .bufLoad a w => Sys2Proof.Machine.execBufLoad a w s
  | .bufStore a w => Sys2Proof.Machine.execBufStore a w s
  | .bufXor a w => Sys2Proof.Machine.execBufXor a w s
  | .macInit a w => Sys2Proof.Machine.execMacInit a w s
  | .macUpdate a w => Sys2Proof.Machine.execMacUpdate a w s
  | .macGen a w => Sys2Proof.Machine.execMacGen a w s
  | .macVer a w => Sys2Proof.Machine.execMacVer a w s
  | .gcmInitEnc a w => Sys2Proof.Machine.execGcmInitEnc a w s
  | .gcmInitDec a w => Sys2Proof.Machine.execGcmInitDec a w s
  | .gcmAad a w => Sys2Proof.Machine.execGcmAad a w s
  | .gcmText a w => Sys2Proof.Machine.execGcmText a w s
  | .gcmTagGen a w => Sys2Proof.Machine.execGcmTagGen a w s
  | .gcmTagVer a w => Sys2Proof.Machine.execGcmTagVer a w s
  | .pinOpen a w => Sys2Proof.Machine.execPinOpen a w s
  | .pinSeal a w => Sys2Proof.Machine.execPinSeal a w s
  | .pinRef a w => Sys2Proof.Machine.execPinRef a w s
  | .refVer a w => Sys2Proof.Machine.execRefVer a w s
  | .refPut a w => Sys2Proof.Machine.execRefPut a w s
  | .engineRequestDone a dm chk => Sys2Proof.Machine.execEngineRequestDone a dm chk s
  | .nonceWaitResume a => Sys2Proof.Machine.execNonceWaitResume a s
  | .nonceWaitTimeout a => Sys2Proof.Machine.execNonceWaitTimeout a s
  | .dgeOpen who cl w => Sys2Proof.Machine.execDgeOpen who cl w s
  | .dgeClose a => Sys2Proof.Machine.execDgeClose a s
  | .dgeInit a => Sys2Proof.Machine.execDgeInit a s
  | .keyAbsorb a => Sys2Proof.Machine.execKeyAbsorb a s
  | .dgeFinal a => Sys2Proof.Machine.execDgeFinal a s
  | .dgeSave a => Sys2Proof.Machine.execDgeSave a s
  | .dgeDataWrite a w => Sys2Proof.Machine.execDgeDataWrite a w s
  | .dgeBlockDone a chk => Sys2Proof.Machine.execDgeBlockDone a chk s
  | .pauOpen who => Sys2Proof.Machine.execPauOpen who s
  | .pauClose who => Sys2Proof.Machine.execPauClose who s
  | .mldsaKeygen who => Sys2Proof.Machine.execMldsaKeygen who s
  | .mldsaSign who => Sys2Proof.Machine.execMldsaSign who s
  | .mldsaVerify who => Sys2Proof.Machine.execMldsaVerify who s
  | .mlkemKeygen who => Sys2Proof.Machine.execMlkemKeygen who s
  | .mlkemEncap who => Sys2Proof.Machine.execMlkemEncap who s
  | .mlkemDecap who => Sys2Proof.Machine.execMlkemDecap who s
  | .ecKeygen who => Sys2Proof.Machine.execEcKeygen who s
  | .ecdsaSign who => Sys2Proof.Machine.execEcdsaSign who s
  | .ecdsaVerify who => Sys2Proof.Machine.execEcdsaVerify who s
  | .ecdhEph who => Sys2Proof.Machine.execEcdhEph who s
  | .rsaKeygen who => Sys2Proof.Machine.execRsaKeygen who s
  | .rsaSign who => Sys2Proof.Machine.execRsaSign who s
  | .rsaPublic who => Sys2Proof.Machine.execRsaPublic who s
  | .rsaOaepWrap who => Sys2Proof.Machine.execRsaOaepWrap who s
  | .rsaOaepUnwrap who => Sys2Proof.Machine.execRsaOaepUnwrap who s
  | .pauOpDone u k chk => Sys2Proof.Machine.execPauOpDone u k chk s
  | .sweepDone p => Sys2Proof.Machine.execSweepDone p s
  | .keyregReady => Sys2Proof.Machine.execKeyregReady s
  | .keyregRebuild => Sys2Proof.Machine.execKeyregRebuild s
  | .pageSupply stores => Sys2Proof.Machine.execPageSupply stores s
  | .pageRequestTimeout serial => Sys2Proof.Machine.execPageRequestTimeout serial s
  | .pageWaitTimeout d => Sys2Proof.Machine.execPageWaitTimeout d s
  | .commitStart => Sys2Proof.Machine.execCommitStart s
  | .commitRootWrite readBackOk => Sys2Proof.Machine.execCommitRootWrite readBackOk s
  | .durabilityTimeout d => Sys2Proof.Machine.execDurabilityTimeout d s
  | .vaultStart => Sys2Proof.Machine.execVaultStart s
  | .entropyStartup katOk => Sys2Proof.Machine.execEntropyStartup katOk s
  | .entropyWindowClose => Sys2Proof.Machine.execEntropyWindowClose s
  | .healthTestFail src apt => Sys2Proof.Machine.execHealthTestFail src apt s
  | .expanderCall c internal => Sys2Proof.Machine.execExpanderCall c internal s
  | .randomWaitTimeout d => Sys2Proof.Machine.execRandomWaitTimeout d s
  | .ppsEdge cycles aonCount => Sys2Proof.Machine.execPpsEdge cycles aonCount s
  | .ppsWindowClose => Sys2Proof.Machine.execPpsWindowClose s
  | .setNow => Sys2Proof.Machine.execSetNow s
  | .setAtEdge => Sys2Proof.Machine.execSetAtEdge s
  | .domainPower dom on => Sys2Proof.Machine.execDomainPower dom on s
  | .powerGood dom => Sys2Proof.Machine.execPowerGood dom s
  | .regionCommit g r ctrl => Sys2Proof.Machine.execRegionCommit g r ctrl s
  | .fenceGo g => Sys2Proof.Machine.execFenceGo g s
  | .fenceDone g => Sys2Proof.Machine.execFenceDone g s
  | .linkTrain p lanes => Sys2Proof.Machine.execLinkTrain p lanes s
  | .retrain p => Sys2Proof.Machine.execRetrain p s
  | .trainTimeout p => Sys2Proof.Machine.execTrainTimeout p s
  | .flitReceive p flit => Sys2Proof.Machine.execFlitReceive p flit s
  | .linkDown p => Sys2Proof.Machine.execLinkDown p s
  | .hello p h => Sys2Proof.Machine.execHello p h s
  | .kem p ct sig => Sys2Proof.Machine.execKem p ct sig s
  | .finish p flit => Sys2Proof.Machine.execFinish p flit s
  | .attestRetry p => Sys2Proof.Machine.execAttestRetry p s
  | .fwd m => Sys2Proof.Machine.execFwd m s
  | .accept m => Sys2Proof.Machine.execAccept m s
  | .result m => Sys2Proof.Machine.execResult m s
  | .refuse m => Sys2Proof.Machine.execRefuse m s
  | .fwdMore m => Sys2Proof.Machine.execFwdMore m s
  | .fwdData m => Sys2Proof.Machine.execFwdData m s
  | .txn m => Sys2Proof.Machine.execTxn m s
  | .txnAck m => Sys2Proof.Machine.execTxnAck m s
  | .txnDone m => Sys2Proof.Machine.execTxnDone m s
  | .resync m => Sys2Proof.Machine.execResync m s
  | .heartbeat m => Sys2Proof.Machine.execHeartbeat m s
  | .heartbeatSend => Sys2Proof.Machine.execHeartbeatSend s
  | .timeSync m => Sys2Proof.Machine.execTimeSync m s
  | .timeSyncSend => Sys2Proof.Machine.execTimeSyncSend s
  | .recipeSync m => Sys2Proof.Machine.execRecipeSync m s
  | .memberDead j => Sys2Proof.Machine.execMemberDead j s
  | .tokenData w => Sys2Proof.Machine.execTokenData w s
  | .tokenEmpty => Sys2Proof.Machine.execTokenEmpty s
  | .openSession => Sys2Proof.Machine.execOpenSession s
  | .enrol => Sys2Proof.Machine.execEnrol s
  | .recover => Sys2Proof.Machine.execRecover s
  | .debugSessionEnd => Sys2Proof.Machine.execDebugSessionEnd s
  | .smbIdentity => Sys2Proof.Machine.execSmbIdentity s
  | .smbTemperatures temps => Sys2Proof.Machine.execSmbTemperatures temps s
  | .smbTally => Sys2Proof.Machine.execSmbTally s
  | .smbLog j => Sys2Proof.Machine.execSmbLog j s
  | .smbFreq => Sys2Proof.Machine.execSmbFreq s
  | .smbHealth => Sys2Proof.Machine.execSmbHealth s
  | .smbAlerts => Sys2Proof.Machine.execSmbAlerts s
  | .resultRead r => Sys2Proof.Machine.execResultRead r s
  | .mainPowerLoss => Sys2Proof.Machine.execMainPowerLoss s
  | .backupCellLost => Sys2Proof.Machine.execBackupCellLost s
  | .monitorClear k => Sys2Proof.Machine.execMonitorClear k s
  | .sentinelTopUp c => Sys2Proof.Machine.execSentinelTopUp c s
  | .counterHoldEnd => Sys2Proof.Machine.execCounterHoldEnd s
  | .sriovVfEnable n => Sys2Proof.Machine.execSriovVfEnable n s
  | .rawCaptureDone => Sys2Proof.Machine.execRawCaptureDone s
  | .entropyStartupEnd failed => Sys2Proof.Machine.execEntropyStartupEnd failed s

end Sys2Proof.Machine
end

