-- ==== Sys2Proof/Machine/RegReads.lean ====
section
/-! DEFINITION. What a read of a register returns (00 R1, R7, R8; 02 R29, R30; 07 R191, R192; 08 R218; 09 R229; and the register maps of
10, 11, 12, 13, 15 and 16): the Read column of every map. A read that its gate let through gives the word at an aligned address; write-only
and reserved fields read as zero, and so does an address that no map lists. What a read does besides, the latch of TIME_HI and EARLY_READ,
is with TIME_LO_READ and RESULT_READ. -/

namespace Sys2Proof.Machine

def word (n : Nat) : Word32 := BitVec.ofNat 32 n

/-- The two words of a 64-bit register. -/
def loWord (x : Word64) : Word32 := x.extractLsb' 0 32
def hiWord (x : Word64) : Word32 := x.extractLsb' 32 32

/-! ### PCIe identity (02 R26, Table 2.1) -/

/-- What configuration space presents of function n: the device identifier, TotalVFs, first VF offset and VF stride, the size of BAR0,
MSI-X vectors, the largest payload and read request, and the non-posted requests outstanding at most; it has Advanced Error Reporting, and
neither INTx, MSI, ATS, PASID nor PRI. -/
structure PcieView where
  deviceId : Word16
  totalVfs : Nat
  firstVf : Nat
  vfStride : Nat
  bar0 : Nat
  vectors : Nat
  maxPayload : Nat
  maxReadReq : Nat
  tagBits : Nat
  nonPosted : Nat
  aer : Bool
  relaxedOrIdOrdering : Bool
  intxMsiAtsPasidPri : Bool
  deriving DecidableEq, Repr

def pcieView (n : Nat) : PcieView :=
  { deviceId := if n = 0 then 0x0D64 else 0x0D65, totalVfs := 31, firstVf := 1, vfStride := 1
    bar0 := if n = 0 then 65536 else 16384, vectors := 10, maxPayload := 512, maxReadReq := 4096, tagBits := 10, nonPosted := 256
    aer := true, relaxedOrIdOrdering := false, intxMsiAtsPasidPri := false }

/-! ### BAR0 (02 Tables 2.3, 2.4, 2.8 to 2.13) -/

/-- The identity block. -/
def State.readIdentity (s : State) (n off : Nat) : Word32 :=
  match off with
  | 0x00 => 0x44583634
  | 0x04 => 0xB0
  | 0x08 => s.fwVersion
  | 0x0C => word (n + at' s.life.straps.toNat 8)
  | 0x10 => word (8 + at' (b2n (n == 0)) 4)
  | 0x14 => word (s.part n).size
  | 0x18 => loWord Config.serial
  | 0x1C => hiWord Config.serial
  | _ => if 0x20 ≤ off ∧ off < 0x40 then wordOf (shake 32 (Config.take 1952 Config.identityPublic)) ((off - 0x20) / 4) else 0

/-- Function status and mailbox. The physical function's PARTITION_LIVE stands with FN_READY (R27). -/
def State.readStatus (s : State) (n off : Nat) : Word32 :=
  let f := s.func n
  match off with
  | 0x00 =>
    word (b2n f.fnReady + at' (b2n ((s.part n).live && (n != 0 || f.fnReady))) 1 + at' (b2n s.ent.ready) 2 + at' (b2n s.ent.fail) 3
      + at' (b2n s.kr.ready) 4 + at' (b2n s.vault.ready) 5 + at' (b2n s.tam.felledState) 6 + at' (b2n f.resetInProgress) 7
      + at' (b2n s.life.updatePause) 8 + at' (b2n s.time.lock) 9 + at' (lcCode s.life.st).toNat 12)
  | 0x04 =>
    word (b2n f.overcommit + at' (b2n f.ciInvalid) 1 + at' (b2n f.ringFault) 2 + at' (b2n f.mboxBusy) 3 + at' f.ringMask.toNat 8)
  | 0x08 => word (f.partResets.toNat + at' s.host.warmResets.toNat 16)
  | 0x14 => f.mboxResult
  | _ => 0

/-- Ring set-up. -/
def Ring.read (x : Ring) (off : Nat) : Word32 :=
  match off with
  | 0x00 => loWord x.sqBase
  | 0x04 => hiWord x.sqBase
  | 0x08 => loWord x.cqBase
  | 0x0C => hiWord x.cqBase
  | 0x10 => loWord x.piAddr
  | 0x14 => hiWord x.piAddr
  | 0x18 => loWord x.ciAddr
  | 0x1C => hiWord x.ciAddr
  | 0x20 => word (x.log2.toNat + at' x.pollMax.toNat 8)
  | 0x24 => word (b2n x.enabled + at' (b2n x.draining) 1 + at' (b2n x.fault) 2 + at' (b2n x.stopped) 3)
  | 0x28 => x.sqHead
  | 0x2C => x.cqTail
  | 0x30 => x.ciSeen
  | 0x34 => word (x.outstanding % 2 ^ 17)
  | _ => 0

/-- Interrupt set-up; PG_COUNT and PG_TIMER are the physical function's. -/
def State.readIrq (s : State) (n off : Nat) : Word32 :=
  let f := s.func n
  if off < 0x80 then
    let x := s.ring n (off / 16)
    match off % 16 with
    | 0 => word (x.vector.toNat + at' (b2n x.irqEn) 8)
    | 4 => word (x.count.toNat + at' x.timer.toNat 16)
    | 8 => word (x.pend % 2 ^ 17)
    | _ => 0
  else
    match off with
    | 0x80 => word f.evtStat.toNat
    | 0x84 => word f.evtMask.toNat
    | 0x88 => if n = 0 then word (s.host.pgCount.toNat + at' s.host.pgTimer.toNat 16) else 0
    | _ => 0

/-- The MSI-X table of 10 entries, as PCIe defines it. -/
def State.readMsix (s : State) (n off : Nat) : Word32 :=
  let x : MsixEntry := mget (s.func n).msix (off / 16) {}
  match off % 16 with
  | 0 => loWord x.addr
  | 4 => hiWord x.addr
  | 8 => x.data
  | _ => word (b2n x.mask)

/-- The pending-bit array. -/
def State.readPba (s : State) (n : Nat) : Word32 :=
  word ((List.range 10).map fun i => at' (b2n (mget (s.func n).pba i false)) i).sum

/-- Vault set-up. -/
def Vault.read (x : Vault) (off : Nat) : Word32 :=
  match off with
  | 0x00 => loWord x.prqBase
  | 0x04 => hiWord x.prqBase
  | 0x08 => loWord x.psqBase
  | 0x0C => hiWord x.psqBase
  | 0x10 => loWord x.psqPi
  | 0x14 => hiWord x.psqPi
  | 0x18 => loWord x.prqCi
  | 0x1C => hiWord x.prqCi
  | 0x20 => word x.pgLog2.toNat
  | 0x24 => word (b2n x.pgEnabled + at' (b2n x.pgFault) 1)
  | 0x28 => loWord x.pbufBase
  | 0x2C => hiWord x.pbufBase
  | 0x30 => word x.pbufCount.toNat
  | 0x34 => word (b2n x.rebuilding + at' (b2n x.integritySeen) 1)
  | _ => 0

/-- Withy set-up. PEER_ID is valid while ATTESTED. -/
def State.readWithy (s : State) (off : Nat) : Word32 :=
  if off = 0 then
    word (s.ownId + at' (max 1 s.members.length) 4 + at' s.memberMap.toNat 8 + at' (b2n s.meshFormed) 16)
  else if 0x10 ≤ off ∧ off < 0x50 then
    let x := s.port (off / 16 - 1)
    match off % 16 with
    | 0 => word (b2n x.enable)
    | 4 => word (b2n x.up + at' x.lanes 1 + at' (b2n x.attested) 4 + at' (if x.attested then x.peerId % 8 else 0) 5)
    | 8 => x.lateReplies
    | _ => x.retries
  else 0

/-- Time set-up: TIME_HI as it was latched. -/
def Time.readSetup (t : Time) (off : Nat) : Word32 :=
  match off with
  | 0x00 => loWord t.counter
  | 0x04 => t.hiLatch
  | 0x08 => word (b2n t.ppsEn + at' (b2n t.ppsFalling) 1)
  | 0x0C => word (b2n t.lock + at' (b2n t.missing) 1 + at' (b2n t.outOfWindow) 2)
  | 0x10 => t.ppsOffset
  | 0x14 => t.trim
  | 0x18 => loWord t.freq
  | 0x1C => hiWord t.freq
  | 0x20 => t.freqSeq
  | _ => 0

/-- The default filter length of a kind and instance, in ns (12 Table 12.1). -/
def filterDefault (kind inst : Nat) : Nat :=
  match kind with
  | 1 => 2
  | 2 => 10000
  | 3 => 4000
  | 5 => 1000000
  | 6 => 200
  | 7 => 4000
  | 8 => if inst = 0 then 1000000 else if inst = 1 then 100000 else 0
  | 9 => 1000000
  | 11 => 10000
  | 12 => 1000000
  | _ => 0

/-- Monitor configuration: FILTER_NS and FLOOR_NS of a CLKGLITCH or STATE entry read 0 (12 R284). -/
def State.readMonitor (s : State) (off : Nat) : Word32 :=
  match off with
  | 0x000 => 159
  | 0x004 => word s.tam.tally
  | 0x008 => word (s.tam.lastKind.toNat + at' s.tam.lastInst.toNat 8)
  | _ =>
    let k := (off - 0x100) / 16
    if off < 0x100 ∨ 159 ≤ k then 0
    else
      let (kind, inst) := entryKind k
      match off % 16 with
      | 0 => word (kind + at' inst 8 + at' (b2n (s.monActive k)) 16)
      | 4 => word (if s.tam.testBusy && s.tam.testRun.toNat == k then (filterLimits kind inst).2.1 else mget s.tam.filters k (filterDefault kind inst))
      | 8 => word (filterLimits kind inst).2.1
      | _ => 0

/-- BAR0 of function n (R30): a virtual function decodes 16 KiB, and the physical function's own blocks read as zero in Blank. -/
def State.readBar (s : State) (n off : Nat) : Word32 :=
  if !(s.func n).present then 0
  else if off < 0x40 then s.readIdentity n off
  else if 0x100 ≤ off ∧ off < 0x118 then s.readStatus n (off - 0x100)
  else if 0x1000 ≤ off ∧ off < 0x1200 then (s.ring n ((off - 0x1000) / 0x40)).read (off % 0x40)
  else if 0x2000 ≤ off ∧ off < 0x3000 then s.readIrq n (off - 0x2000)
  else if 0x3000 ≤ off ∧ off < 0x30A0 then s.readMsix n (off - 0x3000)
  else if off = 0x3800 then s.readPba n
  else if n ≠ 0 ∨ s.life.st = .blank then 0
  else if 0x4000 ≤ off ∧ off < 0x5000 then s.vault.read (off - 0x4000)
  else if 0x5000 ≤ off ∧ off < 0x6000 then s.readWithy (off - 0x5000)
  else if 0x6000 ≤ off ∧ off < 0x7000 then s.time.readSetup (off - 0x6000)
  else if 0x7000 ≤ off ∧ off < 0x8000 then s.readMonitor (off - 0x7000)
  else 0

/-! ### The Warden's registers -/

/-- An arbiter (10 Table 10.7); P_COUNT is zero on a PAU, and its context stands in P_PAGE bits [2:1]. -/
def Arb.read (x : Arb) (pau : Bool) (off : Nat) : Word32 :=
  if 0x40 ≤ off ∧ off < 0x80 then
    let e := (off - 0x40) / 16
    let y := x.engine e
    if pau && e != 0 then 0
    else
      match off % 16 with
      | 0 => word ((y.owner.elim 0 fun o => o.1) + at' (b2n y.owner.isSome) 4 + at' (b2n y.oos) 5)
      | 4 => y.grants
      | 8 => y.voids
      | _ => y.preempts
  else if 0x100 ≤ off ∧ off < 0x500 then
    let k := (off - 0x100) / 16
    match (x.inputQ (k / 4) (k % 4)).find? (·.preempted) with
    | none => 0
    | some q =>
      match off % 16 with
      | 0 => word (1 + at' (if pau then 2 * (q.page % 4) else q.page % 8) 1 + at' q.part 4 + at' (q.who % 64) 9)
      | 4 => word q.done
      | 8 => if pau then 0 else word q.count
      | _ => 0
  else
    match off with
    | 0x00 => x.pendLo
    | 0x04 => word x.pendHi.toNat
    | 0x0C => word (x.rotP.toNat + at' (b2n x.rotEn) 16)
    | 0x10 => word (x.rotCount.toNat + at' (b2n x.mapErr) 16)
    | 0x14 => x.liveLo
    | 0x18 => word x.liveHi.toNat
    | _ => 0

/-- A margin sentinel (07 Table 7.10). -/
def Sentinel.read (x : Sentinel) (off : Nat) : Word32 :=
  match off with
  | 0x00 => word (x.advance.toNat + at' (b2n x.en) 8)
  | 0x08 => loWord x.ops
  | 0x0C => hiWord x.ops
  | 0x10 => x.missFwd
  | 0x14 => x.missInv
  | _ => 0

/-- The time registers (15 Table 15.9). -/
def Time.read (t : Time) (off : Nat) : Word32 :=
  match off with
  | 0x00 => t.trim
  | 0x08 => loWord t.setVal
  | 0x0C => hiWord t.setVal
  | 0x14 => word (b2n t.valid + at' (b2n t.setPending) 1 + at' (b2n t.holdover) 2 + at' (b2n t.holding) 3)
  | 0x18 => loWord t.capt
  | 0x1C => hiWord t.capt
  | _ => 0

/-- The power registers (15 Table 15.10). -/
def State.readPower (s : State) (off : Nat) : Word32 :=
  if off < 4 * 30 then
    let x := s.domain (off / 4)
    word (b2n x.on + at' (b2n x.pgood) 1 + at' (b2n x.iso) 2 + at' (b2n x.ramping) 3 + at' (b2n x.op) 4)
  else if off = 0x100 then word s.pwr.servingBits.toNat
  else if 0x104 ≤ off ∧ off < 0x124 then word (cstateCode (s.cst ((off - 0x104) / 4)))
  else 0

/-- The entropy registers (11 Table 11.7). -/
def State.readEntropy (s : State) (off : Nat) : Word32 :=
  let x := s.ent
  if 0x100 ≤ off ∧ off < 0x180 then
    let y := s.expander ((off - 0x100) / 16)
    match off % 16 with
    | 0 => word (y.calls % 2 ^ 21 + at' (b2n y.inst) 21 + at' (b2n y.stretched) 22 + at' (b2n y.seedWait) 23)
    | 4 => y.reseeds
    | 8 => y.stretches
    | _ => y.dryWaits
  else
    match off with
    | 0x000 => word (b2n x.ready + at' (b2n x.fail) 1 + at' (b2n x.rawActive) 2 + at' (b2n x.starting) 3)
    | 0x004 => word (x.srcPass.toNat + at' x.srcFail.toNat 16)
    | 0x008 => word (x.failTest.toNat + at' x.failSrc.toNat 4)
    | 0x00C => word x.queue.length
    | 0x010 => x.blocks
    | 0x014 => x.discarded
    | 0x018 => x.rawFails
    | _ => 0

/-- The tamper registers (12 Table 12.9). DROOP_MV of a domain no cluster has, and OVER_MV, are as the OTP gives them. -/
def State.readTamper (s : State) (off : Nat) : Word32 :=
  let t := s.tam
  if 0x100 ≤ off ∧ off < 0x178 then
    let d := (off - 0x100) / 4
    word ((mget t.droop d (Config.droopOtp d)).toNat + at' (Config.droopOtp (32 + d)).toNat 8)
  else if 0x200 ≤ off ∧ off < 0x240 then
    let c := (off - 0x200) / 8
    if off % 8 = 0 then word (sentConst c 0 + at' (sentConst c 1) 8 + at' (sentConst c 2) 16 + at' (sentConst c 3) 24)
    else word (15 + at' (b2n (mget t.lowMargin c false)) 8)
  else
    match off with
    | 0x000 => word t.testEntry.toNat
    | 0x004 => word (b2n t.testBusy + at' (b2n t.testPass) 1 + at' (b2n t.testFail) 2 + at' t.testDone.toNat 8)
    | 0x008 => word (b2n t.pending + at' t.pClass.toNat 1 + at' (b2n t.pOnCell) 5 + at' (t.firstBit % 4096) 6 + at' (t.lastBit % 4096) 18)
    | 0x00C => word (t.mirror + at' (b2n t.felledState) 13)
    | _ => 0

/-- A region as committed, never as staged (13 R316). -/
def Region.read (x : Region) (off : Nat) : Word32 :=
  if 0x10 ≤ off ∧ off < 0x20 then (x.rmask >>> (32 * ((off - 0x10) / 4))).setWidth 32
  else if 0x20 ≤ off ∧ off < 0x30 then (x.wmask >>> (32 * ((off - 0x20) / 4))).setWidth 32
  else
    match off with
    | 0x00 => word (x.sizeExp.toNat + at' (b2n x.valid) 8 + at' (b2n x.bad) 9 + at' (b2n x.rd) 10 + at' (b2n x.wr) 11)
    | 0x08 => loWord x.base
    | 0x0C => hiWord x.base
    | _ => 0

/-- Gate g (13 Tables 13.4, 13.8). -/
def State.readGate (s : State) (g off : Nat) : Word32 :=
  let x := s.gateOf g
  if 0x1000 ≤ off ∧ off < 0x1000 + 0x40 * gateRegions g then
    let r : Region := mget x.regions ((off - 0x1000) / 0x40) {}
    ({ r with rmask := s.dbgMask r.rmask, wmask := s.dbgMask r.wmask } : Region).read (off % 0x40)
  else
    match off with
    | 0x000 => x.epoch
    | 0x008 => word (b2n x.fenceBusy + at' (b2n x.ruleErr) 1)
    | 0x010 => x.faults
    | 0x014 => x.dbgFaults
    | 0x018 => loWord x.faultAddr
    | 0x01C => hiWord x.faultAddr
    | 0x020 =>
      word (x.faultMaster.toNat + at' (b2n x.faultWrite) 7 + at' x.faultKind.toNat 8 + at' x.faultPart.toNat 10 + at' (b2n x.faultValid) 15)
    | _ => 0

/-- The debug block (16 Table 16.3). A token is applied in one command, so TOKEN_BUSY is never seen set; RUN_CONTROL reads zero outside a
session. -/
def State.readDebug (s : State) (off : Nat) : Word32 :=
  let x := s.life
  if 0x010 ≤ off ∧ off < 0x030 then wordOf (fit 32 x.devNonce) ((off - 0x010) / 4)
  else if 0x040 ≤ off ∧ off < 0x800 then (if x.session then mget x.runControl off 0 else 0)
  else
    match off with
    | 0x000 => word (b2n x.dbgEn + at' (b2n x.session) 1)
    | 0x008 => word x.tokenResult.toNat
    | 0x034 => word x.token.length
    | _ => 0

/-- The Warden's 16 MiB (13 Table 13.3). The sentinels' place in it is the model's (DESIGN CHOICE, notes/assumptions/41.md). -/
def State.readWarden (s : State) (off : Nat) : Word32 :=
  if off < 0xC0000 then
    let a := off / 0x10000
    if s.arbUp a then (s.arb a).read (decide (8 ≤ a)) (off % 0x10000) else 0
  else if 0xC0000 ≤ off ∧ off < 0xC0400 then
    let k := (off - 0xC0000) / 0x40
    if (s.domain (11 + k / 2)).up then (s.sentinel (k / 2) (k % 2)).read (off % 0x40) else 0
  else if 0x100000 ≤ off ∧ off < 0x180000 then s.time.read (off - 0x100000)
  else if 0x180000 ≤ off ∧ off < 0x200000 then s.readPower (off - 0x180000)
  else if 0x200000 ≤ off ∧ off < 0x300000 then s.readEntropy (off - 0x200000)
  else if 0x300000 ≤ off ∧ off < 0x400000 then s.readTamper (off - 0x300000)
  else if 0x400000 ≤ off ∧ off < 0x460000 then s.readGate ((off - 0x400000) / 0x10000) (off % 0x10000)
  else if 0x500000 ≤ off ∧ off < 0x501000 then s.readDebug (off - 0x500000)
  else 0

/-! ### Engine windows and PAU ports -/

/-- Codes of 07 Table 7.4, 08 Table 8.3 and 09 Table 9.3. -/
def PState.code : PState → Nat
  | .closed => 0
  | .opened => 1
  | .busy => 2
  | .ready => 3
  | .fault => 4
  | .abandoned => 5
  | .wait => 6
  | .refused => 7

def DState.code : DState → Nat
  | .closed => 0
  | .opened => 1
  | .busy => 2
  | .ready => 3
  | .fault => 4
  | .abandoned => 5
  | .feeding => 6
  | .refused => 7

def XState.code : XState → Nat
  | .closed => 0
  | .opened => 1
  | .busy => 2
  | .ready => 3
  | .fault => 4
  | .abandoned => 5
  | .await => 6
  | .refused => 7
  | .invalid => 8
  | .exhausted => 9

/-- A cipher page's register (07 Table 7.3). PINF shows the pattern while it holds a PIN field, and zero else (R12, R192). -/
def CPage.read (x : CPage) (off : Nat) : Word32 :=
  if 0x30 ≤ off ∧ off < 0x40 then x.resultWord ((off - 0x30) / 4)
  else if 0x54 ≤ off ∧ off < 0x60 then wordOf (fit 12 x.nonce) ((off - 0x54) / 4)
  else if 0x80 ≤ off ∧ off < 0x90 then (if x.pinf.isSome then notReady else 0)
  else
    match off with
    | 0x40 => word (x.state.code + at' (b2n x.earlyRead) 4 + at' (b2n x.revoked) 5 + at' x.kstat.toNat 16)
    | 0x44 => word (x.verdict.toNat + at' x.vcheck.toNat 16)
    | 0x48 => x.progress
    | 0x4C => word (x.tlen.toNat + at' x.tail.toNat 8 + at' x.macalg.toNat 16 + at' x.pad.toNat 18)
    | 0x50 => word (x.pinIn.toNat + at' x.pinOut.toNat 8)
    | 0x60 => loWord x.aadBytes
    | 0x64 => hiWord x.aadBytes
    | 0x68 => loWord x.textBytes
    | 0x6C => hiWord x.textBytes
    | _ => 0

/-- BUSY of a digest page: DATA does not accept a word now (08 R211). -/
def DPage.dataBusy (x : DPage) : Bool := x.state != .feeding || x.blockBusy

/-- A digest page's register (08 Table 8.2). -/
def DPage.read (x : DPage) (off : Nat) : Word32 :=
  if 0xC0 ≤ off ∧ off < 0x100 then x.resultWord ((off - 0xC0) / 4)
  else
    match off with
    | 0x10 =>
      word (x.algo.toNat + at' (b2n x.secret) 4 + at' x.dest.toNat 5 + at' x.peer.toNat 8 + at' x.src.toNat 11 + at' x.outLen.toNat 16)
    | 0x14 => word (x.cmpLen.toNat + at' x.padc.toNat 8 + at' x.frame.toNat 16)
    | 0x18 => loWord x.decl
    | 0x1C => hiWord x.decl
    | 0x24 => word x.saveAddr.toNat
    | 0x28 => loWord x.fed
    | 0x2C => hiWord x.fed
    | 0x40 =>
      word (x.state.code + at' (b2n x.earlyRead) 4 + at' (b2n x.dataBusy) 5 + at' (b2n x.trunc) 6 + at' (b2n x.overrun) 7
        + at' (b2n x.revoked) 8 + at' x.whereSt.toNat 9 + at' x.cls.toNat 11 + at' x.kstat.toNat 16)
    | 0x44 => word (x.verdict.toNat + at' x.vcheck.toNat 16)
    | 0x48 => x.saveSeq
    | _ => 0

/-- A PAU context's register (09 Table 9.2). -/
def Ctx.read (x : Ctx) (off : Nat) : Word32 :=
  match off with
  | 0x10 => word x.inOff.toNat
  | 0x14 => word x.inLen.toNat
  | 0x18 => word x.outOff.toNat
  | 0x1C => word x.outCap.toNat
  | 0x20 => word (x.xofPage.toNat + at' (b2n x.xofEn) 3 + at' x.sinkPage.toNat 4 + at' x.sink.toNat 7)
  | 0x24 => word (x.size.toNat + at' (b2n x.p384) 8)
  | 0x28 => word (x.prefixLen.toNat + at' x.suffixLen.toNat 8)
  | 0x40 => word (x.state.code + at' (b2n x.earlyRead) 4 + at' (b2n x.revoked) 5 + at' (b2n x.trReady) 6 + at' x.kstat.toNat 16)
  | 0x44 => word (x.verdict.toNat + at' x.vcheck.toNat 16)
  | 0x48 => x.progress
  | 0x4C => x.resultLenWord
  | _ => 0

/-- The windows of the engines of the reader's half (07 Table 7.2; 08 R209): a page that the reader does not hold shows the not-ready
pattern (R188), and so do PAGE and PAGE_SET before the grant. -/
def State.readWindow (s : State) (who : Who) (off : Nat) : Word32 :=
  let cl : Cl := Fin.ofNat 8 (off / 0x10000)
  let o := off % 0x1000
  let pg : Fin 8 := Fin.ofNat 8 (o / 0x100)
  let e := off % 0x10000 / 0x1000
  if 4 ≤ e then 0
  else if o = 0x804 then mget s.eng.openRes (openKey who.val cl.val e) notReady
  else if e = 3 then
    if o < 0x800 then
      match s.heldDpage { who := who, cl := cl, page := pg } with
      | none => notReady
      | some k => (s.dpage k).read (o % 0x100)
    else if o = 0x80C then mget s.eng.pageSet (who.val * 8 + cl.val) notReady
    else 0
  else if o < 0x800 then
    match s.heldPage { who := who, cl := cl, eng := if e = 0 then .fce0 else if e = 1 then .fce1 else .kce, page := pg } with
    | none => notReady
    | some k => (s.cpage k).read (o % 0x100)
  else 0

/-- The PAU port of the reader's half (09 Tables 9.1, 9.2): only the context it holds answers. -/
def State.readPort (s : State) (who : Who) (off : Nat) : Word32 :=
  if off < 0x800 then
    match s.heldCtx who.val with
    | none => notReady
    | some k => if k % 8 ≠ off / 0x100 then notReady else (s.ctx k).read (off % 0x100)
  else if off = 0x804 then mget s.eng.pauRes who.val notReady
  else 0

/-! ### The decode -/

/-- A word of a core's local SRAM, while its cluster's CLC domain is up. -/
def State.readSram (s : State) (off : Nat) : Word32 :=
  if (s.domain (3 + off / 2 ^ 21)).up then wordOf (s.sramGet (off / 2 ^ 18) (off % 2 ^ 18) 4) 0 else 0

/-- The word that master m reads at an aligned address which its gate let through. -/
def State.regRead (s : State) (m a : Nat) : Word32 :=
  if 0x04000000 ≤ a ∧ a < 0x05000000 then s.readSram (a - 0x04000000)
  else if 0x0F800000 ≤ a ∧ a < 0x0F900000 then s.readBar ((a - 0x0F800000) / 0x8000) (a % 0x8000)
  else if 0x0E000000 ≤ a ∧ a < 0x0F000000 then s.readWarden (a - 0x0E000000)
  else if h : m < 65 then
    if 0x0F000000 ≤ a ∧ a < 0x0F080000 then s.readWindow ⟨m, h⟩ (a - 0x0F000000)
    else if 0x0F100000 ≤ a ∧ a < 0x0F101000 then s.readPort ⟨m, h⟩ (a - 0x0F100000)
    else 0
  else 0

/-- A read by master m through the gate that guards the address: a refused one is recorded, returns zeros and has the consequence of
13 Table 13.7 (R323). What a read of TIME_LO or of a RESULT register changes is the effect of their own commands. -/
def State.busRead (s : State) (m a : Nat) : State × Word32 :=
  match s.gateCheck (gateFor a) m a false ((s.tagOf m).elim 0 (·.1)) with
  | (t, true) => (t, t.regRead m a)
  | (t, false) => (t.refusedWrite m, 0)

end Sys2Proof.Machine
end

