-- ==== Sys2Proof/Machine/StateCodes.lean ====
section
/-! DEFINITION. The wide-distance codes in which the lifecycle, felling, key bus, arbiter grant and entropy machines hold their
states (12 R305, Table 12.7; 16 R380). State holds each machine's state by name; these are the words of its 16-bit register. -/

namespace Sys2Proof.Machine

/-- Bit i of the first-order Reed–Muller word L(v): the parity of i AND v. -/
def rmBit (v i : Nat) : Nat := popCount 4 (i &&& v) % 2

/-- E(v): the bent word 0x7888 XOR L(v). -/
def wideCode (v : Nat) : Word16 := 0x7888 ^^^ BitVec.ofNat 16 (((List.range 16).map fun i => rmBit v i * 2 ^ i).sum)

def Lifecycle.code : Lifecycle → Word16
  | .blank => ~~~wideCode 1
  | .owned => ~~~wideCode 2
  | .operational => ~~~wideCode 3
  | .emptied => ~~~wideCode 4
  | .quarantined => ~~~wideCode 5
  | .retired => ~~~wideCode 6
  | .development => ~~~wideCode 7

def FellState.code : FellState → Word16
  | .armed => wideCode 8
  | .felling => wideCode 9
  | .felled => wideCode 10
  | .test => wideCode 11

def BusState.code : BusState → Word16
  | .idle => ~~~wideCode 8
  | .fetch => ~~~wideCode 9
  | .write => ~~~wideCode 10
  | .invalidate => ~~~wideCode 11
  | .sweep => ~~~wideCode 12
  | .rebuild => ~~~wideCode 13
  | .halted => ~~~wideCode 14

def EntState.code : EntState → Word16
  | .starting => wideCode 12
  | .running => wideCode 13
  | .failed => wideCode 14
  | .raw => wideCode 15

/-- The grant register of an engine: the input that owns it, or no owner. -/
def grantCode : Option Nat → Word16
  | some i => wideCode i
  | none => ~~~wideCode 0

/-- The grant register of engine e of arbiter a. -/
def State.grantReg (s : State) (a e : Nat) : Word16 := grantCode (((s.arb a).engine e).owner.map (·.1))

/-- The values a machine's register may hold: any other is a STATE alarm (R306). -/
def lifecycleCodes : List Word16 := (List.range 7).map fun v => ~~~wideCode (v + 1)
def fellCodes : List Word16 := (List.range 4).map fun v => wideCode (v + 8)
def busCodes : List Word16 := (List.range 7).map fun v => ~~~wideCode (v + 8)
def entropyCodes : List Word16 := (List.range 4).map fun v => wideCode (v + 12)
def grantCodes : List Word16 := (~~~wideCode 0) :: (List.range 16).map wideCode

/-- Bits in which two words differ. -/
def codeDistance (a b : Word16) : Nat := popCount 16 (a ^^^ b).toNat

end Sys2Proof.Machine
end

