-- ==== Sys2Proof/WellFormed.lean ====
section
/-! DEFINITION. Which operands a command can carry: host stores inside the host's 64-bit address space (02 R26), a
flit of 64 bytes (14 R333), an ML-KEM-768 ciphertext of 1,088 (14 R337), the lengths a HELLO's parts have (14 R337), messages
whose length fits their LEN field (14 Table 14.5), and readings of nine sensors (18 R422). -/

namespace Sys2Proof

/-- A store by the host lies in the 64-bit host address space. -/
def storesWf (w : List (Nat × Byte)) : Bool := w.all fun c => decide (c.1 < 2 ^ 64)

/-- A flit is 64 bytes (14 R333). -/
def flitWf (b : Bytes) : Bool := b.length == 64

/-- A HELLO's digests and random are 32 bytes, its keys those of ML-DSA-65 and ML-KEM-768 (14 R337). -/
def Hello.wf (h : Hello) : Bool :=
  h.rosterDigest.length == 32 && h.ownerDigest.length == 32 && h.random.length == 32 && h.idKey.length == 1952
    && h.encapKey.length == 1184

/-- A message body is as long as its 32-bit LEN can say (14 Table 14.5). -/
def Msg.wf (m : Msg) : Bool := decide (m.body.length < 2 ^ 32)

def Instr.wf : Instr → Bool
  | .ringPoll _ w => storesWf w
  | .pageSupply w => storesWf w
  | .flitReceive _ b => flitWf b
  | .finish _ b => flitWf b
  | .hello _ h => h.wf
  | .kem _ ct _ => ct.length == 1088
  | .fwd m => m.wf
  | .accept m => m.wf
  | .result m => m.wf
  | .refuse m => m.wf
  | .fwdMore m => m.wf
  | .fwdData m => m.wf
  | .txn m => m.wf
  | .txnAck m => m.wf
  | .txnDone m => m.wf
  | .resync m => m.wf
  | .heartbeat m => m.wf
  | .timeSync m => m.wf
  | .recipeSync m => m.wf
  | .smbTemperatures t => t.length == 9
  | _ => true

end Sys2Proof
end

