-- ==== Sys2Proof/Safety.lean ====
section
/-! DEFINITION. What the statements call a good state, a command that completes, and the addresses and readings they name. -/

namespace Sys2Proof.Machine

/-- Command c takes s to x, with the board controller's new bits, and leaves the queue. -/
def becomes (c : Instr) (s x : State) : Prop := exec c s = .next (s.settled x)

/-- Command c takes s to x, and then Alatas sees to what x leaves for it: engines out of service, waits that have ended, a reset
that waited for its commit. -/
def becomesThen (c : Instr) (s x : State) : Prop := exec c s = .next (s.settled x.after)

/-- The host memory has its canonical form (notes/assumptions/1.md). -/
def State.memWf (s : State) : Prop := Memory.wf s.host.mem = true

/-- Every waiting command is well formed. -/
def State.queueWf (s : State) : Prop := ∀ c ∈ s.pending, c.wf = true

/-- Two states with the same registers, buffers and memories: they may differ in the queue and in what the board controller has
been told is new. -/
def State.sameBut (s t : State) : Prop := t = { s with pending := t.pending, life := { s.life with newItems := t.life.newItems } }

/-- The units of the device, for saying which of them a command leaves alone. -/
inductive Area where
  | host | disp | kr | vault | eng | ent | tam | gate | mesh | time | pwr | life
  deriving DecidableEq, Repr

/-- Every unit but those of the list is the same in t as in s; of the lifecycle, all but what the board controller has been told
is new. -/
def State.keeps (s t : State) (but : List Area) : Prop :=
  (.host ∉ but → t.host = s.host) ∧ (.disp ∉ but → t.disp = s.disp) ∧ (.kr ∉ but → t.kr = s.kr)
    ∧ (.vault ∉ but → t.vault = s.vault) ∧ (.eng ∉ but → t.eng = s.eng) ∧ (.ent ∉ but → t.ent = s.ent)
    ∧ (.tam ∉ but → t.tam = s.tam) ∧ (.gate ∉ but → t.gate = s.gate) ∧ (.mesh ∉ but → t.mesh = s.mesh)
    ∧ (.time ∉ but → t.time = s.time) ∧ (.pwr ∉ but → t.pwr = s.pwr)
    ∧ (.life ∉ but → { t.life with newItems := s.life.newItems } = s.life)

/-- A mesh message reaches this device: it takes part in its mesh, the message is for it, and it came from itself or over an
attested port (14 R337, R346, R357). -/
def State.hears (s : State) (m : Msg) : Prop :=
  s.meshed = true ∧ s.tam.felledState = false ∧ s.mesh.stale = false ∧ m.dst.val = s.ownId
    ∧ (m.src.val = s.ownId ∨ (s.port m.port.val).attested = true)

/-! ### Work on descriptors -/

end Sys2Proof.Machine

namespace Sys2Proof

open Machine

/-- A verb's command (04 Tables 4.4 to 4.19): its descriptor, the family and operation of its selector, and whether the release
checks of the run passed. -/
def Instr.verb : Instr → Option (Nat × Nat × Nat × Bool)
  | .nop d => some (d, 0, 0, true)
  | .pinTranslate d chk => some (d, 1, 1, chk)
  | .pinVerify d chk => some (d, 1, 2, chk)
  | .pinChange d chk => some (d, 1, 3, chk)
  | .pinSet d chk => some (d, 1, 4, chk)
  | .dukptRegister d chk => some (d, 2, 1, chk)
  | .dukptStatus d => some (d, 2, 2, true)
  | .dukptRetire d => some (d, 2, 3, true)
  | .dukptMacGenerate d chk => some (d, 2, 4, chk)
  | .dukptMacVerify d chk => some (d, 2, 5, chk)
  | .dukptDataDecrypt d chk => some (d, 2, 6, chk)
  | .dukptDataEncrypt d chk => some (d, 2, 7, chk)
  | .initialDerive d chk => some (d, 2, 8, chk)
  | .macGenerate d chk => some (d, 3, 1, chk)
  | .macVerify d chk => some (d, 3, 2, chk)
  | .arqcVerify d chk => some (d, 4, 1, chk)
  | .keyBlockImport d chk => some (d, 5, 1, chk)
  | .keyBlockExport d chk => some (d, 5, 2, chk)
  | .keyBlockDelete d => some (d, 5, 3, true)
  | .componentLoad d chk => some (d, 6, 1, chk)
  | .componentAbort d => some (d, 6, 2, true)
  | .pqSend d chk => some (d, 7, 1, chk)
  | .rsaSend d chk => some (d, 7, 2, chk)
  | .eccSend d chk => some (d, 7, 3, chk)
  | .rklReceive d chk => some (d, 7, 4, chk)
  | .genericEncrypt d chk => some (d, 8, 1, chk)
  | .genericDecrypt d chk => some (d, 8, 2, chk)
  | .gcmEncrypt d chk => some (d, 8, 3, chk)
  | .gcmDecrypt d chk => some (d, 8, 4, chk)
  | .supportDigest d chk => some (d, 9, 1, chk)
  | .supportCompare d chk => some (d, 9, 2, chk)
  | .supportRandom d => some (d, 9, 3, true)
  | .supportSign d chk => some (d, 9, 4, chk)
  | .supportVerify d chk => some (d, 9, 5, chk)
  | .kemEncap d chk => some (d, 9, 6, chk)
  | .kemDecap d chk => some (d, 9, 7, chk)
  | .vaultGet d => some (d, 9, 8, true)
  | .vaultPut d => some (d, 9, 9, true)
  | .counterInc d => some (d, 9, 10, true)
  | .timeRead d => some (d, 9, 11, true)
  | .freqReport d => some (d, 9, 12, true)
  | _ => none

/-- A management command (04 Table 4.20): its descriptor, its operation, and whether the release checks passed. -/
def Instr.mgmt : Instr → Option (Nat × MgmtOp × Bool)
  | .partitionCreate d chk => some (d, opPartitionCreate, chk)
  | .partitionDestroy d chk => some (d, opPartitionDestroy, chk)
  | .quotaSet d chk => some (d, opQuotaSet, chk)
  | .quotaReport d chk => some (d, opQuotaReport, chk)
  | .hostWindowSet d chk => some (d, opHostWindowSet, chk)
  | .partitionReset d chk => some (d, opPartitionReset, chk)
  | .masterGenerate d chk => some (d, opMasterGenerate, chk)
  | .slotClear d chk => some (d, opSlotClear, chk)
  | .anchorAdvance d chk => some (d, opAnchorAdvance, chk)
  | .custodianSet d chk => some (d, opCustodianSet, chk)
  | .trustAnchorSet d chk => some (d, opTrustAnchorSet, chk)
  | .recipeLoad d chk => some (d, opRecipeLoad, chk)
  | .recipeRevoke d chk => some (d, opRecipeRevoke, chk)
  | .recipeKeyRegister d chk => some (d, opRecipeKeyRegister, chk)
  | .clusterQuiesce d chk => some (d, opClusterQuiesce, chk)
  | .clusterPower d chk => some (d, opClusterPower, chk)
  | .monitorFilterSet d chk => some (d, opMonitorFilterSet, chk)
  | .firmwareLoad d chk => some (d, opFirmwareLoad, chk)
  | .firmwareActivate d chk => some (d, opFirmwareActivate, chk)
  | .timeSet d chk => some (d, opTimeSet, chk)
  | .attestQuote d chk => some (d, opAttestQuote, chk)
  | .deviceReset d chk => some (d, opDeviceReset, chk)
  | .entropyRawEnter d chk => some (d, opRawEnter, chk)
  | .entropyRawCapture d chk => some (d, opRawCapture, chk)
  | .entropyRawLeave d chk => some (d, opRawLeave, chk)
  | .keypairGenerate d chk => some (d, opKeypairGenerate, chk)
  | .clusterRejoin d ok chk => some (d, opClusterRejoin ok, chk)
  | _ => none

/-- What Alatas sees to after a management command, before anything else: a cluster operation that has ended gives way to the next
in turn, and domains that are up have seeds. -/
def Instr.mgmtTail : Instr → State → State
  | .clusterQuiesce _ _ => State.opGone
  | .clusterRejoin _ _ _ => State.opGone
  | .clusterPower _ _ => fun x => x.seedsCame.opGone
  | _ => fun x => x

end Sys2Proof

namespace Sys2Proof.Machine

/-- Slot of the next completion record of descriptor q (02 R42). -/
def State.recordSlot (t : State) (q : DRec) : Nat :=
  (t.ring q.fn q.ring).cqBase.toNat + 32 * ((t.ring q.fn q.ring).cqTail.toNat % 2 ^ (t.ring q.fn q.ring).log2.toNat)

/-- Descriptor q came over a ring of its function, and its output of n bytes and its record pass the windows. -/
def State.canComplete (t : State) (q : DRec) (n : Nat) : Prop :=
  q.ring < 8 ∧ q.outSgl = false ∧ t.hostPasses q.fn q.oldWin q.outAddr n true = true
    ∧ t.hostPasses q.fn false (t.recordSlot q) 32 true = true

/-- The flags a completion carries: one stamped while the time is not aligned says so (02 R44). -/
def State.recordFlags (t : State) (q : DRec) : BitVec 15 := if t.time.lock = true then q.flags else q.flags ||| 0x20

/-- The completion record of descriptor q (02 Table 2.19). -/
def State.recordOf (t : State) (q : DRec) (st : Word16) (len : Nat) (inl : Bytes) : Bytes :=
  let y := t.ring q.fn q.ring
  toLE 4 q.hostTag ++ toLE 2 st.toNat
    ++ toLE 2 ((t.recordFlags q).toNat + if y.cqTail.toNat / 2 ^ y.log2.toNat % 2 = 0 then 2 ^ 15 else 0)
    ++ toLE 4 len ++ toLE 4 y.sqHead.toNat ++ toLE 8 t.time.counter.toNat ++ fit 8 inl

/-- From t, descriptor q is completed into x: its output and then its record are posted, the record stands in its slot, its ring
counts it, the descriptor is gone, and other rings stand. -/
def State.completes (t x : State) (q : DRec) (st : Word16) (out : Bytes) (len : Nat) (inl : Bytes) : Prop :=
  let y := t.ring q.fn q.ring
  let r := t.recordOf q st len inl
  x.desc q.id = none ∧ x.hostGet (t.recordSlot q) 32 = r
    ∧ (∃ m, x.host.posted = t.host.posted ++ (if out = [] then [] else [.mem q.fn q.outAddr out]) ++ [.mem q.fn (t.recordSlot q) r] ++ m
        ∧ (y.irqEn = false → m = []))
    ∧ (x.ring q.fn q.ring).cqTail = y.cqTail + 1 ∧ (x.ring q.fn q.ring).outstanding = y.outstanding - 1
    ∧ (∀ m p, ¬(m = q.fn ∧ p = q.ring) → x.ring m p = t.ring m p) ∧ t.keeps x [.host, .disp, .kr, .eng, .mesh]

/-- Key reference k of operands o passes its probe for request q in s, into u, and its fetch there reads x from slot i, into t (03
Table 3.5). -/
def State.fetches (s u t : State) (o : Opnd) (k : KeySel) (q : KeyReq) (i : Nat) (x : Slot) : Prop :=
  runV (probe o k q) s = (.ok (), u) ∧ runV (fetch o k q) u = (.ok (i, x), t)

/-- Engines of every kind the operation needs serve where operands o run, and its release checks pass (07 R195). -/
def State.engineServes (s : State) (o : Opnd) : Prop := o.chk = true ∧ (engineKinds o.fam o.op).all (s.kindServes o.cl) = true

/-- The state behind the engine work of operands o: the blocks it ran are counted (07 R186, R206). -/
def State.worked (s : State) (o : Opnd) : State := s.ranBlocks o (engineKinds o.fam o.op)

/-- Offset off of function fn's BAR0, as a fabric address (13 Table 13.3). -/
def barAddr (fn off : Nat) : BitVec 40 := BitVec.ofNat 40 (0x0F800000 + 0x8000 * fn + off)

/-- The host writes v to offset off of function fn's BAR0. -/
def hostWrite (fn : Fn) (off : Nat) (v : Word32) : Instr := .registerWrite 74 (barAddr fn.val off) v 0xF

/-- The Warden writes v to a fabric address. -/
def wardenWrite (a : Nat) (v : Word32) : Instr := .registerWrite 64 (BitVec.ofNat 40 a) v 0xF

/-- The host reaches function fn: main power, out of reset, the link up, and the function there. -/
def State.hostReaches (s : State) (fn : Nat) : Prop := s.mainRun = true ∧ s.life.perstN = true ∧ (s.func fn).present = true

end Sys2Proof.Machine
end

