-- ==== Sys2Proof/Certificates/Slice0/Obligations.lean ====
section
/-! DEFINITION. The statements for the provers. -/

open Sys2Proof Sys2Proof.Machine

/-! ### The block as a whole -/

/-- A step carries out the command at the front of the queue on the queue's rest, whatever the command. -/
def Obligations.StepTakesFront : Prop :=
  ∀ (c : Instr) (r : List Instr) (s : State), step { s with pending := c :: r } = exec c { s with pending := r }

/-- On an empty queue a step is one cycle of CLK_SLOW (15 R361; the model's choice, notes/assumptions/4.md): the counter with its
fraction advances by 10 ns and TRIM, modulo 2^96, unless it is held; each powered arbiter counts the 8 cycles of CLK_FAB, up to its
rotation period, has its blocks started and its committed map live (10 R249, R250, R254, Table 10.7); where no map was on its way,
everything else stands. -/
def Obligations.IdleCycle : Prop :=
  ∀ s : State, s.pending = [] → ∃ t, step s = .next t
    ∧ (s.time.holding = true → t.time = s.time)
    ∧ (s.time.holding = false →
        t.time.counter.toNat * 2 ^ 32 + t.time.frac.toNat
          = (s.time.counter.toNat * 2 ^ 32 + s.time.frac.toNat + ((10 * 2 ^ 32 : Int) + s.time.trim.toInt).toNat) % 2 ^ 96)
    ∧ t.time = { s.time with counter := t.time.counter, frac := t.time.frac }
    ∧ (∀ a, 12 ≤ a ∨ s.arbUp a = false → t.arb a = s.arb a)
    ∧ (∀ a < 12, s.arbUp a = true → ∃ x, x = t.arb a
        ∧ x.rotCount.toNat = min (if (s.arb a).rotEn then max 63 (s.arb a).rotP.toNat else 65535) ((s.arb a).rotCount.toNat + 8)
        ∧ (∀ m, (s.arb a).coming = some m → (x.liveLo, x.liveHi) = m)
        ∧ ((s.arb a).coming = none → x.liveLo = (s.arb a).liveLo ∧ x.liveHi = (s.arb a).liveHi)
        ∧ x.coming = none ∧ x.queue = (s.arb a).queue ∧ ∀ e, x.engine e = { (s.arb a).engine e with fresh := false })
    ∧ t.pending = [] ∧ t.host = s.host ∧ t.disp = s.disp ∧ t.kr = s.kr ∧ t.vault = s.vault
    ∧ ((∀ c ∈ s.eng.arbs, c.2.coming = none) → { t.eng with arbs := s.eng.arbs } = s.eng) ∧ t.ent = s.ent ∧ t.tam = s.tam ∧ t.gate = s.gate ∧ t.mesh = s.mesh
    ∧ t.pwr = s.pwr ∧ t.life = s.life

/-- Every well-formed command, in every state, is carried out: the block stops on none of them, and none touches the queue. -/
def Obligations.CommandsComplete : Prop :=
  ∀ (c : Instr) (s : State), c.wf = true → ∃ t, exec c s = .next t ∧ t.pending = s.pending

/-- A poll or a page supply that stores outside the 64-bit host address space stops the block, and the address is named (02 R26; the
model's choice, notes/assumptions/2.md). -/
def Obligations.OutsideStoreStops : Prop :=
  ∀ (p : PollTarget) (w : List (Nat × Byte)) (s : State), storesWf w = false →
    ∃ a, 2 ^ 64 ≤ a ∧ (∃ v, (a, v) ∈ w) ∧ exec (.ringPoll p w) s = .fault (.noSuchHostAddress a)
      ∧ exec (.pageSupply w) s = .fault (.noSuchHostAddress a)

/-- From a state whose waiting commands are all well formed, every step answers a next state, and what waits there is well
formed again: no run of well-formed commands ever stops the block. -/
def Obligations.QueueStaysWellFormed : Prop :=
  ∀ s : State, s.queueWf → (∃ t, step s = .next t) ∧ ∀ t, step s = .next t → t.queueWf

/-- The state after reset keeps the invariants the other statements are about, and the registers whose reset value 02 prints
hold it. The wide-distance registers hold the codes of their reset states (12 R305, Tables 12.7, 12.8), and two codes of one machine, or
a code and all zeros or all ones, differ in at least 6 bits. -/
def Obligations.ResetIsGood : Prop :=
  State.reset.queueWf ∧ State.reset.memWf
    ∧ (∀ r, State.reset.ring 0 r = { vector := BitVec.ofNat 4 r })
    ∧ (State.reset.ring 0 0).log2 = 6 ∧ (State.reset.ring 0 0).pollMax = 50 ∧ (State.reset.ring 0 0).count = 1
    ∧ (State.reset.func 0).fnReady = false ∧ State.reset.partLive 0 = false ∧ State.reset.vault.pgLog2 = 6
    ∧ State.reset.kr.ready = false ∧ State.reset.vault.ready = false ∧ State.reset.ent.ready = false
    ∧ State.reset.ent.starting = true
    ∧ State.reset.life.st.code = 0x2DDD ∧ State.reset.tam.fell.code = 0x8788 ∧ State.reset.kr.bus.code = 0x7877
    ∧ State.reset.grantReg 0 0 = 0x8777 ∧ State.reset.ent.st.code = 0x7778
    ∧ ∀ m ∈ [lifecycleCodes, fellCodes, busCodes, entropyCodes, grantCodes], ∀ a ∈ m, 6 ≤ codeDistance a 0 ∧ 6 ≤ codeDistance a 0xFFFF
        ∧ ∀ b ∈ m, a ≠ b → 6 ≤ codeDistance a b

/-- Whatever the command, an item that the board controller can read and that has changed is marked new afterwards (18 R422,
Table 18.5). -/
def Obligations.ChangesAreTold : Prop :=
  ∀ (c : Instr) (s t : State), exec c s = .next t →
    (s.life.st ≠ t.life.st ∨ s.fwVersion ≠ t.fwVersion ∨ s.life.fwNone ≠ t.life.fwNone → t.life.newItems.getLsbD 1 = true)
    ∧ (s.tam.tally ≠ t.tam.tally ∨ s.tam.pending ≠ t.tam.pending → t.life.newItems.getLsbD 3 = true)
    ∧ (s.tam.logSeq ≠ t.tam.logSeq → t.life.newItems.getLsbD 4 = true)
    ∧ (s.time.lock ≠ t.time.lock ∨ s.time.missing ≠ t.time.missing ∨ s.time.outOfWindow ≠ t.time.outOfWindow
        ∨ s.time.holdover ≠ t.time.holdover → t.life.newItems.getLsbD 5 = true)
    ∧ (s.ent.fail ≠ t.ent.fail ∨ s.eng.faults ≠ t.eng.faults ∨ s.kr.corrupt ≠ t.kr.corrupt ∨ s.pwr.cstate ≠ t.pwr.cstate
        ∨ s.tam.lowMargin ≠ t.tam.lowMargin ∨ s.vault.discards ≠ t.vault.discards → t.life.newItems.getLsbD 6 = true)

/-! ### Set-up registers (02 R29 to R33) -/

/-- A whole-word host write to a ring's set-up sets the field while the ring is disabled and is ignored while it is enabled; every
other ring stands. -/
def Obligations.RingSetupWrite : Prop :=
  ∀ (fn : Fn) (r : RingNo) (v : Word32) (s : State), s.hostReaches fn.val →
    let x := s.ring fn.val r.val
    let leaves := fun (off : Nat) (y : Ring) =>
      ∃ t, exec (hostWrite fn (0x1000 + 0x40 * r.val + off) v) s = .next t
        ∧ t.ring fn.val r.val = (if x.enabled then x else y)
        ∧ (∀ m q, ¬(m = fn.val ∧ q = r.val) → t.ring m q = s.ring m q) ∧ t.host.mem = s.host.mem ∧ t.disp = s.disp
    leaves 0x00 { x with sqBase := x.sqBase.extractLsb' 32 32 ++ v } ∧ leaves 0x04 { x with sqBase := v ++ x.sqBase.extractLsb' 0 32 }
    ∧ leaves 0x08 { x with cqBase := x.cqBase.extractLsb' 32 32 ++ v } ∧ leaves 0x0C { x with cqBase := v ++ x.cqBase.extractLsb' 0 32 }
    ∧ leaves 0x10 { x with piAddr := x.piAddr.extractLsb' 32 32 ++ v } ∧ leaves 0x14 { x with piAddr := v ++ x.piAddr.extractLsb' 0 32 }
    ∧ leaves 0x18 { x with ciAddr := x.ciAddr.extractLsb' 32 32 ++ v } ∧ leaves 0x1C { x with ciAddr := v ++ x.ciAddr.extractLsb' 0 32 }
    ∧ leaves 0x20 { x with log2 := v.extractLsb' 0 5, pollMax := v.extractLsb' 8 6 }

/-- A write changes nothing that does not enable all four bytes of a BAR0 register or lies at an offset that is not 4-byte-aligned
(02 R29), and one to the blocks of a function's own on a device in Blank or by a virtual function (02 R30). -/
def Obligations.WritesIgnored : Prop :=
  (∀ (fn : Fn) (off : Nat) (v : Word32) (be : BitVec 4) (s : State), off < 0x8000 → be ≠ 0xF ∨ off % 4 ≠ 0 →
      ∃ t, exec (.registerWrite 74 (barAddr fn.val off) v be) s = .next t ∧ s.sameBut t)
  ∧ (∀ (fn : Fn) (off : Nat) (v : Word32) (be : BitVec 4) (s : State), 0x4000 ≤ off → off < 0x8000 →
      fn.val ≠ 0 ∨ s.life.st = .blank →
      ∃ t, exec (.registerWrite 74 (barAddr fn.val off) v be) s = .next t ∧ s.sameBut t)

/-- Writing 1 to a W1C bit clears it and writing 0 leaves it: the function's error bits and EVT_STAT (00 R7; 02 Tables 2.4, 2.9). -/
def Obligations.StatusBitsClear : Prop :=
  ∀ (fn : Fn) (v : Word32) (s : State), s.hostReaches fn.val →
    (∃ t, exec (hostWrite fn 0x104 v) s = .next t
      ∧ (t.func fn.val).overcommit = ((s.func fn.val).overcommit && !v.getLsbD 0)
      ∧ (t.func fn.val).ciInvalid = ((s.func fn.val).ciInvalid && !v.getLsbD 1)
      ∧ (t.func fn.val).ringFault = ((s.func fn.val).ringFault && !v.getLsbD 2)
      ∧ (t.func fn.val).mboxBusy = ((s.func fn.val).mboxBusy && !v.getLsbD 3)
      ∧ (∀ i < 8, (t.func fn.val).ringMask.getLsbD i = ((s.func fn.val).ringMask.getLsbD i && !v.getLsbD (8 + i)))
      ∧ (t.func fn.val).evtStat = (s.func fn.val).evtStat ∧ ∀ m, m ≠ fn.val → t.func m = s.func m)
    ∧ ∃ t, exec (hostWrite fn 0x2080 v) s = .next t
      ∧ (∀ i < 9, (t.func fn.val).evtStat.getLsbD i = ((s.func fn.val).evtStat.getLsbD i && !v.getLsbD i))
      ∧ (t.func fn.val).ringMask = (s.func fn.val).ringMask ∧ ∀ m, m ≠ fn.val → t.func m = s.func m

/-- A read of TIME_LO on the physical function outside Blank answers the counter's low word and latches the high one; elsewhere
it reads zero and latches nothing. A read of a register returns what the Read column of its map says: the identity block, fields as they
were written, zero for a reserved or unlisted offset and for the blocks of the physical function elsewhere (00 R1, R7, R8; 02 R29, R30,
Table 2.3); PINF shows the not-ready pattern while it holds a PIN field and zero else (07 R192); a refused read returns zero (13 R323). -/
def Obligations.TimeRead : Prop :=
  (∀ (fn : Fn) (s : State), (s.func fn.val).present = true →
    s.readBar fn.val 0x00 = 0x44583634 ∧ s.readBar fn.val 0x04 = 0x000000B0 ∧ s.readBar fn.val 0x08 = s.fwVersion
    ∧ s.readBar fn.val 0x18 ++ s.readBar fn.val 0x1C = Config.serial.extractLsb' 0 32 ++ Config.serial.extractLsb' 32 32
    ∧ (∀ off, 0x40 ≤ off → off < 0x100 → s.readBar fn.val off = 0)
    ∧ (∀ r < 8, ∀ b, b = 0x1000 + 0x40 * r →
        s.readBar fn.val (b + 4) ++ s.readBar fn.val b = (s.ring fn.val r).sqBase
        ∧ s.readBar fn.val (b + 0xC) ++ s.readBar fn.val (b + 8) = (s.ring fn.val r).cqBase
        ∧ s.readBar fn.val (b + 0x20) = BitVec.ofNat 32 ((s.ring fn.val r).log2.toNat + 256 * (s.ring fn.val r).pollMax.toNat)
        ∧ s.readBar fn.val (b + 0x28) = (s.ring fn.val r).sqHead ∧ s.readBar fn.val (b + 0x2C) = (s.ring fn.val r).cqTail)
    ∧ (fn.val ≠ 0 ∨ s.life.st = .blank → ∀ off, 0x4000 ≤ off → off < 0x8000 → s.readBar fn.val off = 0)
    ∧ (fn.val = 0 → s.life.st ≠ .blank → s.readBar 0 0x6004 = s.time.hiLatch))
  ∧ (∀ x : CPage, ∀ off ∈ [0x80, 0x84, 0x88, 0x8C], x.read off = if x.pinf.isSome then notReady else 0)
  ∧ (∀ (m a : Nat) (s : State), (s.gateCheck (gateFor a) m a false ((s.tagOf m).elim 0 (·.1))).2 = false → (s.busRead m a).2 = 0)
  ∧ ∀ (fn : Fn) (s : State), ∃ t, exec (.timeLoRead fn) s = .next t
    ∧ (fn.val = 0 → s.life.st ≠ .blank →
        t.host.readData = s.time.counter.extractLsb' 0 32 ∧ t.time = { s.time with hiLatch := s.time.counter.extractLsb' 32 32 })
    ∧ (fn.val ≠ 0 ∨ s.life.st = .blank → t.host.readData = 0 ∧ t.time = s.time)
    ∧ t.host.mem = s.host.mem ∧ t.host.funcs = s.host.funcs ∧ t.disp = s.disp

/-! ### Mailbox, polling, reading and dispatch (02 R31 to R33, R47 to R53; 01 R14) -/

/-- RING_ENABLE makes the checks of 02 R32 in their order: form, windows, index words. The first that fails decides the status
and nothing changes; when none fails, the ring runs from index 0. MBOX_DONE is set either way.
RING_DISABLE on a ring that is not enabled completes DONE at once; else the ring drains, so that no descriptor of it is read, and
the command runs, until
OUTSTANDING is zero: then ENABLED and FAULT are cleared and it completes DONE (02 R33). -/
def Obligations.RingsSwitched : Prop :=
  (∀ (fn : Fn) (r : RingNo) (s : State), (s.func fn.val).mboxRun = none → (s.func fn.val).fnReady = true →
      s.partLive fn.val = true →
      let x := s.ring fn.val r.val
      let n := 2 ^ x.log2.toNat
      let form := x.enabled = false ∧ 6 ≤ x.log2.toNat ∧ x.log2.toNat ≤ 16 ∧ 4096 ∣ x.sqBase.toNat ∧ 4096 ∣ x.cqBase.toNat
        ∧ 64 ∣ x.piAddr.toNat ∧ 64 ∣ x.ciAddr.toNat
      let inside := s.hostPasses fn.val false x.sqBase.toNat (64 * n) false = true
        ∧ s.hostPasses fn.val false x.piAddr.toNat 4 false = true ∧ s.hostPasses fn.val false x.ciAddr.toNat 4 false = true
        ∧ s.hostPasses fn.val false x.cqBase.toNat (32 * n) true = true
      let zero := leNat (s.hostGet x.piAddr.toNat 4) = 0 ∧ leNat (s.hostGet x.ciAddr.toNat 4) = 0
      ∃ t, exec (.ringEnable fn r) s = .next t ∧ s.keeps t [.host] ∧ t.host.mem = s.host.mem
        ∧ (t.func fn.val).mboxRun = none
        ∧ (∀ i < 9, (t.func fn.val).evtStat.getLsbD i = ((s.func fn.val).evtStat.getLsbD i || decide (i = 0)))
        ∧ (∀ m, m ≠ fn.val → t.func m = s.func m) ∧ (∀ q, q ≠ r.val → t.ring fn.val q = s.ring fn.val q)
        ∧ (¬form → (t.func fn.val).mboxResult = 0x00010101 ∧ t.ring fn.val r.val = x)
        ∧ (form → ¬inside → (t.func fn.val).mboxResult = 0x00010701 ∧ t.ring fn.val r.val = x)
        ∧ (form → inside → ¬zero → (t.func fn.val).mboxResult = 0x00010101 ∧ t.ring fn.val r.val = x)
        ∧ (form → inside → zero → (t.func fn.val).mboxResult = 0x00010000
            ∧ t.ring fn.val r.val = { x with sqHead := 0, cqTail := 0, ciSeen := 0, piSeen := 0, stopped := false, draining := false,
                                             outstanding := 0, enabled := true, interval := 200 }))
  ∧ (∀ (fn : Fn) (r : RingNo) (s : State),
      let x := s.ring fn.val r.val
      ((s.func fn.val).mboxRun = none → (s.func fn.val).fnReady = true → s.partLive fn.val = true →
        ∃ t, exec (.ringDisable fn r) s = .next t ∧ s.keeps t [.host] ∧ t.host.mem = s.host.mem
          ∧ (∀ m, m ≠ fn.val → t.func m = s.func m) ∧ (∀ q, q ≠ r.val → t.ring fn.val q = s.ring fn.val q)
          ∧ (x.enabled = false → (t.func fn.val).mboxResult = 0x00020000 ∧ (t.func fn.val).mboxRun = none
              ∧ (t.func fn.val).evtStat.getLsbD 0 = true ∧ t.ring fn.val r.val = x)
          ∧ (x.enabled = true → (t.func fn.val).mboxResult = 0xFFFF0000 ∧ (t.func fn.val).mboxRun = some r.val
              ∧ (t.func fn.val).evtStat = (s.func fn.val).evtStat ∧ t.ring fn.val r.val = { x with draining := true }))
      ∧ (x.draining = true → ∀ t, exec .descriptorRead s = .next t → (t.ring fn.val r.val).sqHead = x.sqHead)
      ∧ ∃ t, exec (.ringDisableDone fn r) s = .next t ∧ s.keeps t [.host] ∧ t.host.mem = s.host.mem
          ∧ (∀ m, m ≠ fn.val → t.func m = s.func m) ∧ (∀ q, q ≠ r.val → t.ring fn.val q = s.ring fn.val q)
          ∧ ((s.func fn.val).mboxRun = some r.val → x.outstanding = 0 →
              (t.func fn.val).mboxResult = 0x00020000 ∧ (t.func fn.val).mboxRun = none ∧ (t.func fn.val).evtStat.getLsbD 0 = true
              ∧ t.ring fn.val r.val = { x with enabled := false, draining := false, fault := false, stopped := false })
          ∧ (¬((s.func fn.val).mboxRun = some r.val ∧ x.outstanding = 0) → s.sameBut t))

/-- A write to CMD while a command runs sets MBOX_BUSY and does nothing else; while FN_READY is 0 it is ignored (02 R31); where
the partition does not exist it completes ACCESS_FAULT (02 R27). -/
def Obligations.MailboxRefuses : Prop :=
  ∀ (fn : Fn) (r : RingNo) (s : State),
    let f := s.func fn.val
    ∀ c ∈ [(Instr.ringEnable fn r, 0x00010701), (Instr.ringDisable fn r, 0x00020701)],
      (f.mboxRun.isSome = true → ∃ t, exec c.1 s = .next t ∧ s.keeps t [.host] ∧ t.host.mem = s.host.mem ∧ t.host.posted = s.host.posted
        ∧ t.func fn.val = { f with mboxBusy := true } ∧ ∀ m, m ≠ fn.val → t.func m = s.func m)
      ∧ (f.mboxRun = none → f.fnReady = false → ∃ t, exec c.1 s = .next t ∧ s.sameBut t)
      ∧ (f.mboxRun = none → f.fnReady = true → s.partLive fn.val = false →
          ∃ t, exec c.1 s = .next t ∧ s.keeps t [.host] ∧ (t.func fn.val).mboxResult = c.2
            ∧ (∀ q, t.ring fn.val q = s.ring fn.val q) ∧ ∀ m, m ≠ fn.val → t.func m = s.func m)

/-- PAGING_ENABLE on a virtual function completes ACCESS_FAULT (02 R31). On function 0 it makes the three checks of 02 R32 on the
paging pair, and with all of them passed the pair runs from index 0, and a commit that a reset of the function abandoned starts again
(02 R55). -/
def Obligations.PagingEnabled : Prop :=
  ∀ (fn : Fn) (s : State), (s.func fn.val).mboxRun = none → (s.func fn.val).fnReady = true → s.partLive fn.val = true →
    let v := s.vault
    let n := 2 ^ v.pgLog2.toNat
    let form := v.pgEnabled = false ∧ 6 ≤ v.pgLog2.toNat ∧ v.pgLog2.toNat ≤ 12 ∧ 4096 ∣ v.prqBase.toNat ∧ 4096 ∣ v.psqBase.toNat
      ∧ 4096 ∣ v.pbufBase.toNat ∧ 64 ∣ v.psqPi.toNat ∧ 64 ∣ v.prqCi.toNat ∧ n ≤ v.pbufCount.toNat ∧ v.pbufCount.toNat ≤ 4096
    let inside := s.hostPasses 0 false v.prqBase.toNat (32 * n) true = true ∧ s.hostPasses 0 false v.psqBase.toNat (16 * n) false = true
      ∧ s.hostPasses 0 false v.psqPi.toNat 4 false = true ∧ s.hostPasses 0 false v.prqCi.toNat 4 false = true
      ∧ s.hostPasses 0 false v.pbufBase.toNat (4096 * v.pbufCount.toNat) false = true
      ∧ s.hostPasses 0 false v.pbufBase.toNat (4096 * v.pbufCount.toNat) true = true
    let zero := leNat (s.hostGet v.psqPi.toNat 4) = 0 ∧ leNat (s.hostGet v.prqCi.toNat 4) = 0
    let ends := fun (x : State) (w : Word32) => (x.func fn.val).mboxResult = w ∧ (x.func fn.val).mboxRun = none
      ∧ (x.func fn.val).evtStat.getLsbD 0 = true ∧ x.host.mem = s.host.mem ∧ ∀ m q, x.ring m q = s.ring m q
    (fn.val ≠ 0 → ∃ x, becomesThen (.pagingEnable fn) s x ∧ s.keeps x [.host] ∧ ends x 0x00030701)
    ∧ (fn.val = 0 → ¬form → ∃ x, becomesThen (.pagingEnable fn) s x ∧ s.keeps x [.host] ∧ ends x 0x00030101)
    ∧ (fn.val = 0 → form → ¬inside → ∃ x, becomesThen (.pagingEnable fn) s x ∧ s.keeps x [.host] ∧ ends x 0x00030701)
    ∧ (fn.val = 0 → form → inside → ¬zero → ∃ x, becomesThen (.pagingEnable fn) s x ∧ s.keeps x [.host] ∧ ends x 0x00030101)
    ∧ (fn.val = 0 → form → inside → zero →
        ∃ x, becomesThen (.pagingEnable fn) s (if v.recommit then x.startCommit else x).vaultGoes ∧ s.keeps x [.host, .vault] ∧ ends x 0x00030000
          ∧ x.vault = { v with pgEnabled := true, prqTail := 0, prqCiSeen := 0, psqHead := 0, psqPiSeen := 0, psInterval := 200,
                               recommit := false })

/-- A poll of a ring stores the producer index it reads: the interval goes back to 200 ns where the index is new, and else
doubles up to POLL_MAX (02 R48). A ring that is not running, or that has descriptors still to read, is not polled. -/
def Obligations.RingPolled : Prop :=
  ∀ (fn : Fn) (r : RingNo) (w : List (Nat × Byte)) (s : State), storesWf w = true →
    let m := memStores s.host.mem w
    let x := s.ring fn.val r.val
    let at' := fun (a : Word64) => BitVec.ofNat 32 (leNat ((List.range 4).map fun i => memGet m (a.toNat + i)))
    let pi := at' x.piAddr
    let cap := 1000 * (if x.pollMax = 0 then 1 else min 50 x.pollMax.toNat)
    let polled := x.enabled = true ∧ x.fault = false ∧ x.draining = false ∧ (x.piSeen = x.sqHead ∨ x.stopped = true)
    let y := { x with piSeen := pi, interval := if pi = x.piSeen then min cap (2 * x.interval) else 200 }
    ∃ t, exec (.ringPoll (.ring fn r) w) s = .next t
      ∧ (¬polled → s.keeps t [.host] ∧ t.host.mem = m ∧ t.host.funcs = s.host.funcs ∧ t.host.posted = s.host.posted)
      ∧ (polled → s.hostPasses fn.val false x.piAddr.toNat 4 false = true → (pi - x.ciSeen).toNat ≤ 2 ^ x.log2.toNat →
          s.keeps t [.host] ∧ t.host.mem = m ∧ t.ring fn.val r.val = { y with stopped := false }
          ∧ (∀ n q, ¬(n = fn.val ∧ q = r.val) → t.ring n q = s.ring n q) ∧ t.host.posted = s.host.posted
          ∧ (t.func fn.val).overcommit = (s.func fn.val).overcommit)
      ∧ (polled → s.hostPasses fn.val false x.piAddr.toNat 4 false = true → 2 ^ x.log2.toNat < (pi - x.ciSeen).toNat →
          s.hostPasses fn.val false x.ciAddr.toNat 4 false = true →
          s.keeps t [.host] ∧ t.host.mem = m ∧ (∀ n q, ¬(n = fn.val ∧ q = r.val) → t.ring n q = s.ring n q)
          ∧ t.host.posted = s.host.posted
          ∧ (let ci := at' x.ciAddr
             let taken := (ci - x.ciSeen).toNat ≤ (x.cqTail - x.ciSeen).toNat
             let seen := if taken then ci else x.ciSeen
             let fits := (pi - seen).toNat ≤ 2 ^ x.log2.toNat
             t.ring fn.val r.val = { y with ciSeen := seen, stopped := !decide fits }
             ∧ (t.func fn.val).ciInvalid = ((s.func fn.val).ciInvalid || !decide taken)
             ∧ (t.func fn.val).overcommit = ((s.func fn.val).overcommit || !decide fits)))

/-- A poll whose read GATE_HOST refuses faults the ring (02 R34): the fault bits and EV_RING_FAULT are set, every descriptor of the
ring that was read and has not completed is gone, and OUTSTANDING is zero. -/
def Obligations.RingFaults : Prop :=
  ∀ (fn : Fn) (r : RingNo) (s : State),
    let x := s.ring fn.val r.val
    x.enabled = true → x.fault = false → x.draining = false → x.piSeen = x.sqHead →
    s.hostPasses fn.val false x.piAddr.toNat 4 false = false →
    ∃ t, exec (.ringPoll (.ring fn r) []) s = .next t
      ∧ t.ring fn.val r.val = { x with fault := true, outstanding := 0 }
      ∧ (∀ n q, ¬(n = fn.val ∧ q = r.val) → t.ring n q = s.ring n q)
      ∧ (t.func fn.val).ringFault = true ∧ (t.func fn.val).ringMask.getLsbD r.val = true
      ∧ (t.func fn.val).evtStat.getLsbD 5 = true
      ∧ (∀ d ∈ t.disp.descs, ¬(d.fn = fn.val ∧ d.ring = r.val))
      ∧ (∀ e, (∀ d ∈ s.disp.descs, d.id = e → ¬(d.fn = fn.val ∧ d.ring = r.val)) → (t.desc e).map DRec.bytes = (s.desc e).map DRec.bytes)
      ∧ (t.gateOf 0).faultValid = true

/-- Reading descriptors serves the next ring in turn: one to 16 records in index order, each with its 64 bytes as they stand in
its slot, until the ring or the room for them ends; no reads while nothing can be taken (02 R49). -/
def Obligations.DescriptorsRead : Prop :=
  ∀ s : State,
    (s.readsOn = false ∨ s.nextRing = none → ∃ t, exec .descriptorRead s = .next t ∧ s.sameBut t)
    ∧ ∀ k, s.readsOn = true → s.nextRing = some k → s.tam.felledState = false →
        let n := k / 8
        let q := k % 8
        let x := s.ring n q
        let slot := fun (i : Nat) => x.sqBase.toNat + 64 * ((x.sqHead + BitVec.ofNat 32 i).toNat % 2 ^ x.log2.toNat)
        (∀ i < 16, s.hostPasses n false (slot i) 64 false = true) →
        ∃ t c l, exec .descriptorRead s = .next t ∧ s.keeps t [.host, .disp] ∧ t.host.mem = s.host.mem ∧ t.host.posted = s.host.posted
          ∧ 1 ≤ c ∧ c ≤ 16 ∧ t.disp.descs = s.disp.descs ++ l ∧ l.length = c ∧ t.disp.rr = k ∧ t.disp.nextId = s.disp.nextId + c
          ∧ (∀ i < c, ∃ d, l[i]? = some d ∧ d.id = s.disp.nextId + i ∧ d.fn = n ∧ d.ring = q ∧ d.idx = x.sqHead + BitVec.ofNat 32 i
              ∧ d.bytes = s.hostGet (slot i) 64 ∧ (d.stage = .inbox ∨ d.stage = .fenced))
          ∧ t.ring n q = { x with sqHead := x.sqHead + BitVec.ofNat 32 c, outstanding := x.outstanding + c }
          ∧ (∀ m p, ¬(m = n ∧ p = q) → t.ring m p = s.ring m p)
          ∧ (c = 16 ∨ t.readable n q = false ∨ t.readsOn = false)

/-- The dispatcher's choice (01 R14): the descriptor at the front of the inbox goes to the serving cluster with the fewest queued
descriptors, and there to the core with the fewest, ties to the lowest number, if a core has room; a management descriptor goes
onto the Warden's queue, or into its waiting place when that is full. -/
def Obligations.Dispatched : Prop :=
  ∀ (d : Nat) (rest : List Nat) (r : DRec) (s : State), s.disp.inbox = d :: rest → s.desc d = some r →
    s.disp.mgmtPlace = none → s.disp.recipePlace = none → s.mesh.waitFwd = [] → s.refusedAtOnce r = none →
    let load := fun (k : Nat) => (s.coreQueue k).length
    let sum := fun (c : Nat) => ((List.range 8).map fun j => load (8 * c + j)).sum
    let room := fun (c : Nat) => s.pwr.servingBits.getLsbD c = true ∧ ∃ j < 8, load (8 * c + j) < 4
    (r.isMgmt = false → r.isRecipe = false → r.ring < meshRing → (∃ c < 8, room c) →
      ∃ t k, exec .dispatch s = .next t ∧ s.keeps t [.disp] ∧ k < 64 ∧ room (k / 8) ∧ load k < 4
        ∧ (∀ c < 8, room c → sum (k / 8) < sum c ∨ (sum (k / 8) = sum c ∧ k / 8 ≤ c))
        ∧ (∀ j < 8, load (8 * (k / 8) + j) < 4 → load k < load (8 * (k / 8) + j) ∨ (load k = load (8 * (k / 8) + j) ∧ k % 8 ≤ j))
        ∧ t.coreQueue k = s.coreQueue k ++ [d] ∧ (∀ j, j ≠ k → t.coreQueue j = s.coreQueue j) ∧ t.disp.inbox = rest
        ∧ ∃ q, t.desc d = some q ∧ q.core = k ∧ (q.stage = .queued ∨ q.stage = .started))
    ∧ (r.isMgmt = false → r.isRecipe = false → (¬∃ c < 8, room c) → ∃ t, exec .dispatch s = .next t ∧ s.sameBut t)
    ∧ (r.isMgmt = true → s.disp.mgmtQ.length < 16 → ∃ t, exec .dispatch s = .next t ∧ s.keeps t [.disp] ∧ t.disp.inbox = rest
        ∧ t.disp.mgmtQ = s.disp.mgmtQ ++ [d] ∧ t.disp.coreQ = s.disp.coreQ)
    ∧ (r.isMgmt = true → 16 ≤ s.disp.mgmtQ.length → ∃ t, exec .dispatch s = .next t ∧ s.keeps t [.disp] ∧ t.disp.inbox = rest
        ∧ t.disp.mgmtPlace = some d ∧ t.disp.mgmtQ = s.disp.mgmtQ ∧ t.disp.coreQ = s.disp.coreQ)

/-- A fenced descriptor goes to the dispatcher once no earlier descriptor of its ring is left, and not before (02 R50). -/
def Obligations.FenceReleased : Prop :=
  ∀ (fn : Fn) (r : RingNo) (d : DRec) (s : State),
    s.disp.descs.find? (fun q => q.fn == fn.val && q.ring == r.val && q.stage == .fenced) = some d →
    let before := ∃ q ∈ s.disp.descs, q.fn = fn.val ∧ q.ring = r.val ∧ q.id < d.id
    (before → ∃ t, exec (.fenceRelease fn r) s = .next t ∧ s.sameBut t)
    ∧ (¬before → ∃ t, exec (.fenceRelease fn r) s = .next t ∧ s.keeps t [.disp] ∧ t.disp.inbox = s.disp.inbox ++ [d.id]
        ∧ (∃ q, t.desc d.id = some q ∧ q.stage = .inbox) ∧ (∀ e, e ≠ d.id → t.desc e = s.desc e)
        ∧ t.disp = { s.disp with inbox := t.disp.inbox, descs := t.disp.descs })

/-- A moderation timer that elapses with records pending sends the ring's vector, or the paging vector 9, and resets the count;
a masked vector pends instead, and a ring whose interrupts are off sends nothing (02 R53). -/
def Obligations.TimerInterrupts : Prop :=
  ∀ (fn : Fn) (r : RingNo) (s : State),
    let x := s.ring fn.val r.val
    let sent := fun (t : State) (n v : Nat) (e : MsixEntry) =>
      (e.mask = false → t.host.posted = s.host.posted ++ [.msix n v e.addr.toNat e.data] ∧ (t.func n).pba = (s.func n).pba)
      ∧ (e.mask = true → t.host.posted = s.host.posted ∧ mget (t.func n).pba v false = true)
    (∃ t, exec (.irqTimer (.ring fn r)) s = .next t ∧ s.keeps t [.host] ∧ t.host.mem = s.host.mem
      ∧ (∀ n q, ¬(n = fn.val ∧ q = r.val) → t.ring n q = s.ring n q)
      ∧ (x.irqEn = true → x.vector.toNat < 10 → x.timer ≠ 0 → 0 < x.pend →
          t.ring fn.val r.val = { x with pend := 0 } ∧ sent t fn.val x.vector.toNat (mget (s.func fn.val).msix x.vector.toNat {}))
      ∧ (x.irqEn = false ∨ 10 ≤ x.vector.toNat ∨ x.timer = 0 ∨ x.pend = 0 → s.sameBut t))
    ∧ ∃ t, exec (.irqTimer .paging) s = .next t ∧ s.keeps t [.host] ∧ t.host.mem = s.host.mem ∧ (∀ n q, t.ring n q = s.ring n q)
      ∧ (s.host.pgTimer ≠ 0 → 0 < s.host.pgPend → t.host.pgPend = 0 ∧ sent t 0 9 (mget (s.func 0).msix 9 {}))
      ∧ (s.host.pgTimer = 0 ∨ s.host.pgPend = 0 → s.sameBut t)

/-- Transient slots go to the first waiting descriptor of the partition, all it needs at once, when enough are free; until then
nothing changes (03 R68). -/
def Obligations.SlotsReserved : Prop :=
  ∀ (p : Fn) (s : State),
    (s.firstWaiter p.val = none → ∃ t, exec (.slotReserve p) s = .next t ∧ s.sameBut t)
    ∧ ∀ (r : DRec) (k : Nat), s.firstWaiter p.val = some (r, k) →
        ((s.freePool p.val).length < k - r.trans.length → ∃ t, exec (.slotReserve p) s = .next t ∧ s.sameBut t)
        ∧ (k - r.trans.length ≤ (s.freePool p.val).length →
            ∃ t q, exec (.slotReserve p) s = .next t ∧ s.keeps t [.disp, .kr] ∧ t.desc r.id = some q
              ∧ q.trans = r.trans ++ (s.freePool p.val).take (k - r.trans.length)
              ∧ (q.stage = .queued ∨ q.stage = .started ∨ q.stage = .mgmt)
              ∧ t.kr = { s.kr with poolWait := s.kr.poolWait.erase r.id } ∧ t.disp.coreQ = s.disp.coreQ)

/-! ### Work on descriptors (02 R35 to R45, R51; 04; 05; 16 R398) -/

/-- Each of the 41 verbs, in a device of no mesh: where its checks and work end well with nothing to make durable, its output
and its completion record go out, with status DONE, or DONE_FLAGGED when a noted flag is raised (02 R41 to R44, R51). -/
def Obligations.VerbCompletes : Prop :=
  ∀ (c : Instr) (d fam op : Nat) (chk : Bool) (f : Form) (s t : State) (r q : DRec) (a : Answer),
    c.verb = some (d, fam, op, chk) → verbForm fam op = some f → s.meshed = false → s.startedAs d fam op = some r →
    runV (verbWork r f chk) (s.rewind d) = (.ok a, t) → t.desc d = some q → a.durable = false → q.durable = false →
    t.canComplete q a.out.length →
    let st : Word16 := if t.recordFlags q &&& 0x17 = 0 then 0x0000 else 0x0001
    ∃ x, exec c s = .next (s.settled x.settle.after) ∧ t.completes x q st a.out a.out.length a.inl

/-- A verb whose updates have to be durable first completes nothing yet: it waits for the commit with what it will deliver (04 R94), and
completes PAGE_TIMEOUT while the paging rings are stopped. One that needs a vault object that is not resident parks, and the object is
asked for (06 R172): nothing it did stands but what its descriptor holds from then on, that is its flags, transient slots, chain record,
and the keys and random it has had (03 R68, R82; 11 R271). -/
def Obligations.VerbWaits : Prop :=
  (∀ (c : Instr) (d fam op : Nat) (chk : Bool) (f : Form) (s t : State) (r q : DRec) (a : Answer),
      c.verb = some (d, fam, op, chk) → verbForm fam op = some f → s.meshed = false → s.startedAs d fam op = some r →
      runV (verbWork r f chk) (s.rewind d) = (.ok a, t) → t.desc d = some q → a.durable = true ∨ q.durable = true →
      (t.vault.pgFault = false →
        ∃ x, becomesThen c s x ∧ t.keeps x [.disp] ∧ x.desc d = some { q with stage := .waitDurable { status := 0, out := a.out, inl := a.inl } }
          ∧ ∀ e, e ≠ d → x.desc e = t.desc e)
      ∧ (t.vault.pgFault = true → q.written = [] → t.canComplete q 0 →
          ∃ x, exec c s = .next (s.settled x.settle.after) ∧ t.completes x q 0x0503 [] 0 []))
  ∧ (∀ (c : Instr) (d fam op l n : Nat) (chk : Bool) (f : Form) (s t : State) (r q : DRec),
      c.verb = some (d, fam, op, chk) → verbForm fam op = some f → s.startedAs d fam op = some r →
      runV (verbWork r f chk) (s.rewind d) = (.error (.park l n), t) → t.desc d = some q →
      ∃ x, becomesThen c s (x.want l n) ∧ s.keeps x [.disp, .kr, .ent]
        ∧ x.kr = { s.kr with poolWait := t.kr.poolWait } ∧ x.ent = t.ent
        ∧ x.desc d = some { r with stage := .parked l n, flags := r.flags ||| q.flags, trans := q.trans, chain := q.chain,
                                   did := q.did, met := q.met, drawn := q.drawn }
        ∧ (∀ e, (x.desc e).map DRec.bytes = (s.desc e).map DRec.bytes) ∧ x.disp = { s.disp with descs := x.disp.descs })

/-- A verb that a check or its work fails, before it has put anything out, completes with that status, RESULT_LEN 0 and
INLINE_RESULT zero (02 R45). -/
def Obligations.VerbFails : Prop :=
  ∀ (c : Instr) (d fam op : Nat) (chk : Bool) (f : Form) (s t : State) (r q : DRec) (st : Word16),
    c.verb = some (d, fam, op, chk) → verbForm fam op = some f → s.startedAs d fam op = some r →
    runV (verbWork r f chk) (s.rewind d) = (.error (.fail st []), t) → (t.mergeFlags d).desc d = some q → q.durable = false →
    q.written = [] → st ≠ 0x0000 → st ≠ 0x0001 → t.canComplete q 0 →
    ∃ x, exec c s = .next (s.settled x.settle.askReloads.after) ∧ t.completes x q st [] 0 []

/-- A recipe run at an END step completes DONE with the length of what it wrote and the inline result the step names, or
AUTH_FAILED where the step says so (05 R135); one that has executed EXEC_LIMIT steps completes RECIPE_LIMIT (05 R137). -/
def Obligations.RecipeEnds : Prop :=
  ∀ (d : Nat) (chk : Bool) (s : State) (r : DRec) (x : Run), s.desc d = some r → r.stage = .started → r.isRecipe = true →
    r.run = some x → r.durable = false → s.canComplete r 0 → ∀ q, (s.mergeFlags d).desc d = some q →
    let t := imgStep r.image x.pc
    let st : Word16 := if s.recordFlags r &&& 0x17 = 0 then 0x0000 else 0x0001
    (x.executed < imgExecLimit r.image → stKind t = 4 → leAt t 0x30 2 = 0 → ∀ inl, (s.refEnv r x).read (stInl t) = some inl →
      ∃ y, exec (.recipeRun d chk) s = .next (s.settled y.settle.after) ∧ s.completes y r st [] x.hi (fit 8 inl))
    ∧ (x.executed < imgExecLimit r.image → stKind t = 4 → leAt t 0x30 2 ≠ 0 → r.written = [] →
        ∃ y, exec (.recipeRun d chk) s = .next (s.settled y.settle.after) ∧ s.completes y q 0x0301 [] 0 [])
    ∧ (imgExecLimit r.image ≤ x.executed → r.written = [] →
        ∃ y, exec (.recipeRun d chk) s = .next (s.settled y.settle.after) ∧ s.completes y q 0x0901 [] 0 [])

/-- Each management command that has been accepted, in a device of no mesh: where its body ends well with nothing to make durable,
its output and its record go out; where it has to be durable it waits for the commit; where it goes on to wait for something
else, it stands there with what it did. -/
def Obligations.ManagementActs : Prop :=
  ∀ (c : Instr) (d : Nat) (m : MgmtOp) (chk : Bool) (s t : State) (r q : DRec), c.mgmt = some (d, m, chk) → s.meshed = false →
    s.mgmtAs d m.op = some r → r.phase ≠ 0 → m.sel r.image = true → t.desc d = some q →
    let run := runV (m.run (s.mgmtOpnd r chk)) ((s.takeMgmt d).rewind d)
    (∀ a, run = (.ok a, t) → a.durable = false → q.durable = false → t.canComplete q a.out.length →
      let st : Word16 := if t.recordFlags q &&& 0x17 = 0 then 0x0000 else 0x0001
      ∃ x, exec c s = .next (s.settled (c.mgmtTail x.settle).after) ∧ t.completes x q st a.out a.out.length a.inl)
    ∧ (∀ a, run = (.ok a, t) → a.durable = true ∨ q.durable = true → t.vault.pgFault = false →
        ∃ x, exec c s = .next (s.settled (c.mgmtTail x).after) ∧ t.keeps x [.disp]
          ∧ x.desc d = some { q with stage := .waitDurable { status := 0, out := a.out, inl := a.inl } })
    ∧ (∀ w z, run = (.error (.hold (.mgmtWait w z)), t) →
        ∃ x, exec c s = .next (s.settled (c.mgmtTail x).after) ∧ t.keeps x [.disp] ∧ (x.desc d).map DRec.stage = some (.mgmtWait w z))
    ∧ (∀ st p, run = (.error (.fail st []), t) → (t.mergeFlags d).desc d = some p → p.durable = false → p.written = [] →
        st ≠ 0x0000 → st ≠ 0x0001 → t.canComplete p 0 →
        ∃ x, exec c s = .next (s.settled (c.mgmtTail x.settle.askReloads).after) ∧ t.completes x p st [] 0 [])

/-- An owner-signed command is accepted, its SEQ written before it acts, where all checks of 02 R36 and 16 R399 pass; one whose
checks fail completes with the status of the first that failed, and CMD_SEQ stands. -/
def Obligations.CommandAccepted : Prop :=
  ∀ (c : Instr) (d : Nat) (m : MgmtOp) (chk : Bool) (s t : State) (r q : DRec), c.mgmt = some (d, m, chk) →
    s.mgmtAs d m.op = some r → r.phase = 0 → m.bare = false → m.sel (cmdBody (s.inputOf r)) = true → t.desc d = some q →
    let run := runV (mgmtIntake r m (s.mgmtOpnd r chk)) (s.takeMgmt d)
    (∀ b, run = (.ok b, t) → t.life.st ≠ .emptied →
      ∃ x, exec c s = .next (s.settled (c.mgmtTail (x.mgmtBody m d chk)).after) ∧ t.keeps x [.disp, .life]
        ∧ x.desc d = some { q with phase := 1, image := cmdBody b }
        ∧ x.life = { t.life with cmdSeq := leAt b 0x10 8 })
    ∧ (∀ st p, run = (.error (.fail st []), t) → (t.mergeFlags d).desc d = some p → p.durable = false → p.written = [] →
        st ≠ 0x0000 → st ≠ 0x0001 → t.canComplete p 0 →
        ∃ x, exec c s = .next (s.settled (c.mgmtTail x.settle).after) ∧ t.completes x p st [] 0 []
          ∧ x.life.cmdSeq = s.life.cmdSeq)

/-! ### The vault (06 R166 to R181; 03 R61, R81, R85) -/

/-- A page supply reads the entry at the head of the supply ring and takes the request that it answers out: an answer to no live
request is discarded and counted, an answer to a WRITE with RESULT 0 is taken off its commit, an object that the host does not
hold is an integrity failure, and a page that opens is resident from then on. -/
def Obligations.SupplyTaken : Prop :=
  ∀ (w : List (Nat × Byte)) (s : State), storesWf w = true →
    let v := s.vault
    let u : State := { s with host := { s.host with mem := memStores s.host.mem w } }
    let a := v.psqBase.toNat + 16 * (v.psqHead.toNat % 2 ^ v.pgLog2.toNat)
    let e := u.hostGet a 16
    v.pgEnabled = true → v.pgFault = false → v.psqHead ≠ v.psqPiSeen → s.hostPasses 0 false a 16 false = true →
    ∃ x : State, exec (.pageSupply w) s = .next (s.settled x.vaultGoes.after) ∧ x.vault.psqHead = v.psqHead + 1
      ∧ ((∀ q ∈ v.reqs, q.serial.toNat ≠ leNat (e.take 4)) →
          s.keeps x [.host, .vault] ∧ x.host = u.host ∧ x.vault = { v with psqHead := v.psqHead + 1, discards := v.discards + 1 })
      ∧ ∀ q, v.reqs.find? (fun q => q.serial.toNat == leNat (e.take 4)) = some q →
          x.vault.reqs = v.reqs.erase q
          ∧ (q.timedOut = true → s.keeps x [.host, .vault] ∧ x.vault.discards = v.discards + 1)
          ∧ (q.timedOut = false → q.write = true → ∀ c, v.commit = some c → q.serial ∈ c.serials →
              (byteAt e 4 = 0 → s.keeps x [.host, .vault] ∧ x.vault.commit = some { c with serials := c.serials.erase q.serial })
              ∧ (byteAt e 4 ≠ 0 → x.vault.commit = none))
          ∧ (q.timedOut = false → q.write = false → byteAt e 4 = 1 → x.vault.integritySeen = true)
          ∧ (q.timedOut = false → q.write = false → byteAt e 4 = 0 → q.obj = 0 →
              s.hostPasses 0 false (v.pbufBase.toNat + 4096 * q.buf) 4096 false = true →
              ∀ p, u.openPage q.num ((s.entryOf 6 0 q.num).getD 0).toNat (u.hostGet (v.pbufBase.toNat + 4096 * q.buf) 4096) = some p →
                s.keeps x [.host, .vault] ∧ x.page q.num = p)

/-- A request without an answer after its time keeps its buffer and place, and a WRITE so abandons its commit (06 R171, R176). A
descriptor whose allowance for waiting is spent completes PAGE_TIMEOUT with nothing put out: one that waits for an object or a nonce
reserve, or for the key its page or context fetches (06 R172), one that waits for its commit (06 R177). -/
def Obligations.PagingTimesOut : Prop :=
  (∀ (n : Word32) (q : PReq) (s : State), s.vault.reqs.find? (fun q => q.serial == n && !q.timedOut) = some q →
      let late := s.vault.reqs.map fun x => if x.serial = n then { x with timedOut := true } else x
      let mine := q.write = true ∧ ∃ c, s.vault.commit = some c ∧ n ∈ c.serials
      ∃ x : State, exec (.pageRequestTimeout n) s = .next (s.settled x.page!.after) ∧ s.keeps x [.vault, .disp] ∧ x.vault.reqs = late
        ∧ (¬mine → s.keeps x [.vault] ∧ x.vault = { s.vault with reqs := late })
        ∧ (mine → x.vault = { s.vault with reqs := late, commit := none } ∧ ∀ n, x.page n = s.page n))
  ∧ (∀ (d : Nat) (s : State) (r : DRec), s.desc d = some r → r.written = [] → s.canComplete r 0 →
      (((∃ l n, r.stage = .parked l n) ∨ (∃ i, r.stage = .waitNonce i) ∨ ∃ f ∈ s.kr.fetches, f.desc = some d ∧ f.waits.isSome = true) →
        r.durable = false → ∀ q, (s.mergeFlags d).desc d = some q →
        ∃ x : State, exec (.pageWaitTimeout d) s = .next (s.settled x.settle.after) ∧ s.completes x q 0x0503 [] 0 [])
      ∧ ((∃ z, r.stage = .waitDurable z) →
        ∃ x : State, exec (.durabilityTimeout d) s = .next (s.settled x.settle) ∧ s.completes x r 0x0503 [] 0 []))

/-- The vault starts once the device may read its root slots: the entry with the highest sequence number under this storage key becomes
the root, with no entry at all a new vault begins at sequence 0, and entries under another storage key only leave it unread (06 R173).
KEYREG_READY empties every slot once the key register has its keys; the rebuild begins when key register, vault and paging are ready
in a lifecycle that has slots to restore, and ends once every persistent slot's page has come; a sweep that has its pages leaves every
slot below its roots empty (03 R61, R81, R85). -/
def Obligations.StorageStarts : Prop :=
  (∀ s : State,
      (s.mayStart = false → ∃ t, exec .vaultStart s = .next t ∧ s.sameBut t)
      ∧ (s.mayStart = true → ∃ x : State, exec .vaultStart s = .next (s.settled x.vaultGoes.after) ∧ s.keeps x [.vault]
          ∧ (∀ k z, (k, z) ∈ s.validRoots → (∀ c ∈ s.validRoots, c = (k, z) ∨ c.2.seq < z.seq) →
              x.vault = { s.vault with keyed := true, started := true, active := some k, rootEntry := z.rootEntry,
                                       reserve := z.reserve, lastSeq := z.reserve })
          ∧ ((∃ c ∈ s.vault.rootSlots, RootSlot.whole c.2 = true) → s.validRoots = [] → x.vault = { s.vault with keyed := true })
          ∧ ((∀ c ∈ s.vault.rootSlots, RootSlot.whole c.2 = false) →
              x.vault = { s.vault with keyed := true, started := true, active := none, rootEntry := 0, reserve := 0, lastSeq := 0 })))
  ∧ (∀ s : State,
      (s.kr.keyed = true → s.kr.ready = false → s.life.boot = .waitEntropy → s.tam.felledState = false → s.vault.ready = false →
        ∃ x : State, exec .keyregReady s = .next (s.settled x.page!.after) ∧ x.kr = { s.kr with ready := true, slots := [] }
          ∧ x.vault = s.vault ∧ x.disp = s.disp
          ∧ (s.life.perstN = true → x.life.boot = .done ∧ (x.func 0).fnReady = true)
          ∧ (s.life.perstN = false → x.life.boot = .waitLink ∧ x.host = s.host))
      ∧ ((s.kr.keyed = false ∨ s.kr.ready = true ∨ s.life.boot ≠ .waitEntropy ∨ s.tam.felledState = true) →
          ∃ t, exec .keyregReady s = .next t ∧ s.sameBut t)
      ∧ (s.kr.rebuilt = false → s.kr.ready = true → s.vault.ready = true → s.vault.pgEnabled = true → s.vault.pgFault = false →
          s.mayRebuild = true → s.kr.partsLoaded = false → s.kr.reloads = [] → (∃ p < 32, s.avail 0 (1 + p) = false) →
          ∃ x : State, exec .keyregRebuild s = .next (s.settled x.page!.after) ∧ s.keeps x [.kr, .vault] ∧ x.kr = { s.kr with rebuilt := true }
            ∧ x.vault = { s.vault with rebuilding := true })
      ∧ (s.kr.rebuilt = true → s.vault.ready = true → s.vault.rebuilding = true → s.kr.partsLoaded = true →
          (∀ i ∈ s.kr.toRestore, s.avail 0 (slotPage i) = true) → s.kr.reloads = [] →
          ∃ x : State, exec .keyregRebuild s = .next (s.settled x.page!.after) ∧ s.keeps x [.kr, .vault] ∧ x.kr.toRestore = []
            ∧ x.vault = { s.vault with rebuilding := false } ∧ ∀ i, i ∉ s.kr.toRestore → x.slot i = s.slot i)
      ∧ ∀ (p : Fn) (w : Sweep) (t : State), s.kr.sweeps.find? (fun w => w.part == p.val) = some w →
          runV (sweepWork w) s = (.ok (), t) → t.vault.pgFault = false →
          ∃ x : State, exec (.sweepDone p) s = .next (s.settled x.after) ∧ t.keeps x [.kr, .disp]
            ∧ x.kr = { t.kr with sweeps := t.kr.sweeps.erase w }
            ∧ ∀ u, runV ((s.kr.toRestore.filter fun i =>
                  decide ((s.part w.part).base ≤ i ∧ i < (s.part w.part).base + (s.part w.part).persist)).forM meet) s = (.ok (), u) →
                ∀ i ∈ u.sweepSlots w, (x.slot i).alg = 0)

/-- COMMIT_START completes with a commit where something is dirty or waits to be durable, the vault and its rings serve and no commit
runs: it takes the next sequence number, within the reserve or with a new reserve written to its root slot first, and takes a snapshot of
every dirty page, which stays marked dirty while the commit runs (06 R168, R174 to R176). COMMIT_ROOT_WRITE of a commit whose WRITEs are
all acknowledged completes with its root in slot SEQ mod 64, which is then active, 16 further sequence numbers in reserve and every page
that is as the snapshot took it clean; where the root does not read back, no entry stands in that slot and the commit is abandoned, its
pages dirty still (R176, R177). Without such a commit both leave everything. -/
def Obligations.CommitsRun : Prop :=
  (∀ s : State, s.dirtyPages ≠ [] ∨ s.durables ≠ [] → s.vault.ready = true → s.vault.pgEnabled = true → s.vault.pgFault = false →
      s.vault.commit = none →
      let v := s.vault
      ∃ (x : State) (c : Commit), exec .commitStart s = .next (s.settled x.page!.after) ∧ s.keeps x [.vault] ∧ x.vault.commit = some c
        ∧ c.waiters = s.durables.map (·.1) ∧ c.serials = [] ∧ x.vault.lastSeq = c.seq
        ∧ (∀ n ∈ s.dirtyPages, (0, n, nextEntry c.seq ((s.entryOf 6 0 n).getD 0)) ∈ c.objs ∧ (n, s.page n) ∈ c.snaps)
        ∧ (∀ n, x.page n = s.page n)
        ∧ (v.lastSeq < v.reserve → c.seq = v.lastSeq + 1 ∧ x.vault.rootSlots = v.rootSlots ∧ x.vault.reserve = v.reserve)
        ∧ (v.reserve ≤ v.lastSeq → c.seq = v.lastSeq + 2 ∧ x.vault.reserve = v.lastSeq + 17 ∧ x.vault.active = some ((v.lastSeq + 1) % 64)
            ∧ x.vault.rootSlots = mset v.rootSlots ((v.lastSeq + 1) % 64) (rootEntryOf (v.lastSeq + 1) v.rootEntry s.keyCheck)))
  ∧ (∀ s : State, s.dirtyPages = [] → s.durables = [] → ∃ t, exec .commitStart s = .next t ∧ s.sameBut t)
  ∧ (∀ (s : State) (c : Commit), s.vault.commit = some c → c.acknowledged = true →
      (∃ x : State, exec (.commitRootWrite true) s = .next (s.settled x.page!.vaultGoes.after) ∧ x.vault.commit = none
        ∧ x.vault.active = some (c.seq % 64) ∧ x.vault.reserve = c.seq + 16
        ∧ x.vault.rootSlots = mset s.vault.rootSlots (c.seq % 64) (rootEntryOf c.seq c.root s.keyCheck)
        ∧ ∀ o ∈ c.snaps, s.page o.1 = o.2 → (x.page o.1).dirty = false)
      ∧ ∃ x : State, exec (.commitRootWrite false) s = .next (s.settled x.page!.after) ∧ s.keeps x [.vault, .disp] ∧ x.vault.commit = none
        ∧ x.vault.active = s.vault.active ∧ x.vault.rootEntry = s.vault.rootEntry
        ∧ (∃ z, x.vault.rootSlots = mset s.vault.rootSlots (c.seq % 64) z ∧ RootSlot.whole z = false)
        ∧ ∀ n, x.page n = s.page n)
  ∧ (∀ s : State, (∀ c, s.vault.commit = some c → c.acknowledged = false) →
      ∀ ok, ∃ t, exec (.commitRootWrite ok) s = .next t ∧ s.sameBut t)

/-! ### Resets, pins and power (02 R54 to R57; 12 R288, R300; 16 R394; 18 R418, R419) -/

/-- A function-level reset leaves the function ready with everything but its count of resets at reset values, and no descriptor of
its rings; on the physical function the virtual ones go and the paging rings are disabled with nothing outstanding (02 R55). -/
def Obligations.FunctionResets : Prop :=
  ∀ (fn : Fn) (s : State),
    ((s.func fn.val).present = false ∨ (s.func fn.val).fnReady = false → ∃ t, exec (.functionLevelReset fn) s = .next t ∧ s.sameBut t)
    ∧ ((s.func fn.val).present = true → (s.func fn.val).fnReady = true → (fn.val = 0 → s.resetAsked = none) →
        ∃ t, exec (.functionLevelReset fn) s = .next t
          ∧ t.func fn.val = { present := true, fnReady := true, partResets := (s.func fn.val).partResets + 1 }
          ∧ (∀ d ∈ t.disp.descs, ¬(d.fn = fn.val ∧ d.ring < 8))
          ∧ (fn.val = 0 → (∀ m : Fn, m.val ≠ 0 → (t.func m.val).present = false) ∧ t.vault.pgEnabled = false ∧ t.vault.pgFault = false
              ∧ t.vault.reqs = [] ∧ t.vault.commit = none)
          ∧ (fn.val ≠ 0 → t.vault.pgEnabled = s.vault.pgEnabled))

/-- A warm reset, by the Warden or by PERST_N after FN_READY, clears everything volatile without a completion: host memory, time,
root slots, the Tally with the log, the storage key, lifecycle and command sequence stay, and the count of warm resets advances
(02 R56). PERST_N otherwise only falls; its rise at the end of the boot lets the functions become ready (18 R419). -/
def Obligations.WarmResetClears : Prop :=
  (∀ s : State,
      let clears := fun (c : Instr) => ∃ t, exec c s = .next t
        ∧ t.host.mem = s.host.mem ∧ t.host.posted = s.host.posted ∧ t.host.warmResets = s.host.warmResets + 1
        ∧ (∀ n, t.func n = { present := n == 0, partResets := (s.func n).partResets })
        ∧ t.disp = { nextId := s.disp.nextId } ∧ t.kr.ready = false ∧ t.kr.slots = [] ∧ t.kr.fetches = []
        ∧ t.vault.ready = false ∧ t.vault.pages = [] ∧ t.vault.rootSlots = s.vault.rootSlots ∧ t.vault.integritySeen = s.vault.integritySeen
        ∧ t.eng.pages = [] ∧ t.eng.ctxs = [] ∧ t.ent = { instants := s.ent.instants }
        ∧ t.time = { counter := s.time.counter, frac := s.time.frac, trim := s.time.trim, lock := s.time.lock, valid := s.time.valid,
                     lockEver := s.time.lockEver, lastF := s.time.lastF, counted := s.time.counted }
        ∧ t.tam.tally = s.tam.tally ∧ t.tam.log = s.tam.log ∧ t.tam.storageKey = s.tam.storageKey ∧ t.tam.canary = s.tam.canary
        ∧ t.life.st = s.life.st ∧ t.life.cmdSeq = s.life.cmdSeq ∧ t.life.ownerKey = s.life.ownerKey ∧ t.mesh.rseq = s.mesh.rseq
      (s.mainRun = true → clears .warmReset)
      ∧ (s.mainRun = false → ∃ t, exec .warmReset s = .next t ∧ s.sameBut t)
      ∧ ((s.func 0).fnReady = true → s.life.perstN = true → clears .perstNFall))
  ∧ (∀ s : State,
      ((s.func 0).fnReady = false ∨ s.life.perstN = false →
        ∃ t, exec .perstNFall s = .next t ∧ s.keeps t [.life] ∧ t.life = { s.life with perstN := false, newItems := t.life.newItems })
      ∧ (s.life.boot ≠ .waitLink →
          ∃ t, exec .perstNRise s = .next t ∧ s.keeps t [.life] ∧ t.life = { s.life with perstN := true, newItems := t.life.newItems })
      ∧ (s.life.boot = .waitLink →
          ∃ t, exec .perstNRise s = .next t ∧ t.life.perstN = true ∧ t.life.boot = .done ∧ (t.func 0).fnReady = true
            ∧ (∀ m : Fn, (s.func m.val).present = true → (t.func m.val).fnReady = true) ∧ t.host.mem = s.host.mem
            ∧ t.tam = s.tam ∧ t.time = s.time ∧ t.mesh = s.mesh))

/-- A cold reset, by command, by SYS_RST_N or by main power, clears the sticky items and the time as well; the root slots and the
command sequence stay. The pins and straps are as the event leaves them, and after a boot no event is left unlogged (02 R57;
12 R301, R302; 18 R418). -/
def Obligations.ColdResetClears : Prop :=
  ∀ s : State,
    let clears := fun (t : State) => t.host.mem = s.host.mem ∧ t.host.warmResets = 0 ∧ t.host.funcs = [(0, { present := true })]
      ∧ t.disp = { nextId := s.disp.nextId } ∧ t.kr.ready = false ∧ t.kr.slots = [] ∧ t.vault.ready = false
      ∧ t.vault.rootSlots = s.vault.rootSlots ∧ t.vault.integritySeen = false ∧ t.gate = {} ∧ t.time = {} ∧ t.ent.ready = false
      ∧ t.life.cmdSeq = s.life.cmdSeq ∧ t.life.ownerKey = s.life.ownerKey
    (s.mainRun = true → ∃ t, exec .coldReset s = .next t ∧ clears t ∧ t.tam.events = [] ∧ t.tam.mirror = t.tam.tally)
    ∧ (s.mainRun = false → ∃ t, exec .coldReset s = .next t ∧ s.sameBut t)
    ∧ (∀ ns, 10000 ≤ ns → s.life.sysRstN = true →
        ∃ t, exec (.sysRstNAssert ns) s = .next t ∧ clears t ∧ t.life.sysRstN = false ∧ t.life.mainPower = s.life.mainPower)
    ∧ (∀ ns, ns < 1000 → ∃ t, exec (.sysRstNAssert ns) s = .next t ∧ s.sameBut t)
    ∧ (∀ b, s.life.sysRstN = false → s.life.mainPower = true →
        ∃ t, exec (.sysRstNRelease b) s = .next t ∧ clears t ∧ t.life.sysRstN = true ∧ t.life.straps = b ∧ t.tam.events = [])
    ∧ (∀ b, s.life.sysRstN = true ∨ s.life.mainPower = false → ∃ t, exec (.sysRstNRelease b) s = .next t ∧ s.sameBut t)
    ∧ (s.life.mainPower = true →
        ∃ t, exec .mainPowerLoss s = .next t ∧ clears t ∧ t.life.mainPower = false ∧ t.life.sysRstN = false
          ∧ t.tam.storageKey = s.tam.storageKey ∧ t.tam.tally = s.tam.tally ∧ t.tam.log = s.tam.log ∧ t.tam.uvPending = [])
    ∧ (s.life.mainPower = false →
        ∃ t, exec .mainPowerUp s = .next t ∧ clears t ∧ t.life.mainPower = true ∧ t.life.sysRstN = false ∧ t.tam.events = []
          ∧ (s.tam.canary = .lost → s.life.st ≠ .blank → t.tam.canary = .emptied ∧ t.tam.storageKey = none))
    ∧ (s.life.mainPower = false →
        ∃ t, exec .backupCellLost s = .next t ∧ s.keeps t [.tam] ∧ t.tam.canary = .lost ∧ t.tam.storageKey = none ∧ t.tam.events = []
          ∧ t.tam.tally = s.tam.tally ∧ t.tam.log = s.tam.log)
    ∧ (s.life.mainPower = true → ∃ t, exec .backupCellLost s = .next t ∧ s.sameBut t)

/-! ### Tamper (12) -/

/-- A confirmed monitor fells the device: no descriptor is left, keys and entropy are gone, and the alarm's event is pending with
TAMP_OUT_N low; a PHY or LOG alarm also destroys the storage key. One that may not confirm now changes nothing, and an
undervoltage of a main rail waits to be classified (12 R284 to R296). -/
def Obligations.ConfirmationFells : Prop :=
  ∀ (k : Fin 159) (high : Bool) (s : State),
    let e := entryKind k.val
    (s.mayConfirm k.val = false → ∃ t, exec (.monitorConfirm k high) s = .next t ∧ s.sameBut t)
    ∧ (s.mayConfirm k.val = true → s.mainRun = true →
        ∃ t, exec (.monitorConfirm k high) s = .next t ∧ k.val ∈ t.tam.latched
          ∧ t.tam.felledState = true
          ∧ (s.tam.felledState = false → t.disp.descs = [] ∧ t.kr.keyed = false ∧ t.kr.ready = false ∧ t.vault.ready = false ∧ t.ent.ready = false
              ∧ t.eng.pages = [] ∧ t.eng.ctxs = [] ∧ t.mesh.mrk = none ∧ t.tam.scrubbing = true ∧ t.tam.fell = .felling)
          ∧ (e.1 = 2 → e.2 < 8 → high = false → t.tam.uvPending = s.tam.uvPending ++ [e.2] ∧ t.tam.events = s.tam.events)
          ∧ (¬(e.1 = 2 ∧ e.2 < 8 ∧ high = false) → t.tam.tampOutN = false ∧ t.tam.lastKind.toNat = e.1 ∧ t.tam.lastInst.toNat = e.2
              ∧ (s.tam.effect = 0 → s.tam.events = [] → t.tam.pending = true ∧ t.tam.events.length = 1 ∧ t.tam.effect = classOf e.1)
              ∧ (grave (classOf e.1) = true → t.tam.storageKey = none ∧ t.tam.canary = .emptied)))
    ∧ (s.mayConfirm k.val = true → s.mainRun = false →
        ∃ t, exec (.monitorConfirm k high) s = .next t ∧ s.keeps t [.tam] ∧ k.val ∈ t.tam.latched ∧ t.tam.storageKey = none
          ∧ t.tam.canary = .emptied ∧ t.tam.tampOutN = false ∧ t.tam.pOnCell = true ∧ t.tam.events ≠ [])

/-- A monitor that has cleared may confirm again; the event window closes for every open event; SCRUB_DONE ends the scrub with
SRAM, slots and pages empty; the classification of main-rail undervoltages as a power loss logs nothing, and otherwise the oldest
becomes an alarm (12 R288, R290, R292, R295). -/
def Obligations.TamperSettles : Prop :=
  ∀ s : State,
    (∀ k : Fin 159, ∃ t, exec (.monitorClear k) s = .next t ∧ s.keeps t [.tam] ∧ t.tam = { s.tam with latched := s.tam.latched.erase k.val })
    ∧ (∃ t, exec .eventWindowClose s = .next t ∧ s.keeps t [.tam] ∧ (∀ e ∈ t.tam.events, e.window = false)
        ∧ t.tam.events.length = s.tam.events.length ∧ t.tam = { s.tam with events := t.tam.events })
    ∧ (s.tam.scrubbing = true → ∃ t, exec .scrubDone s = .next t ∧ s.keeps t [.tam, .eng, .kr, .vault] ∧ t.tam.fell = .felled
        ∧ t.tam.scrubbing = false ∧ t.eng = { s.eng with sram := [] } ∧ t.kr = { s.kr with slots := [] }
        ∧ t.vault = { s.vault with pages := [], nodes := [], uses := [] })
    ∧ (s.tam.scrubbing = false → ∃ t, exec .scrubDone s = .next t ∧ s.sameBut t)
    ∧ (∃ t, exec (.uvClassify true) s = .next t ∧ s.keeps t [.tam] ∧ t.tam = { s.tam with uvPending := [] })
    ∧ (∀ i r, s.tam.uvPending = i :: r → s.tam.felledState = true →
        ∃ t, exec (.uvClassify false) s = .next t ∧ s.keeps t [.tam] ∧ t.tam.uvPending = r ∧ t.tam.tampOutN = false ∧ t.tam.lastKind = 2
          ∧ (s.tam.effect = 0 → s.tam.events = [] → t.tam.pending = true ∧ t.tam.events.length = 1))
    ∧ (∀ b, ∃ t, exec (.cellSwitchover b) s = .next t ∧ s.keeps t [.tam] ∧ t.tam = { s.tam with onCell := b })

/-- Every event whose window has closed is logged, oldest first: the Tally takes its bit, the log sequence advances by one an
event, and the lifecycle takes the consequence; the pending-event latch is clear once no event is left (12 R302; 16 R381). -/
def Obligations.EventsLogged : Prop :=
  ∀ s : State,
    (s.mainRun = true → (∃ e ∈ s.tam.events, e.window = false) →
      ∃ t, exec .tallyProgram s = .next t ∧ s.keeps t [.tam, .life] ∧ t.tam.events = s.tam.events.filter (·.window)
        ∧ t.tam.logSeq = s.tam.logSeq + BitVec.ofNat 32 (s.tam.events.filter fun e => !e.window).length
        ∧ s.tam.tally ≤ t.tam.tally ∧ (∀ e ∈ s.tam.events, e.window = false → ∀ b, e.tbit = some b → b < t.tam.tally)
        ∧ (t.tam.events = [] → t.tam.pending = false ∧ t.tam.pClass = 0)
        ∧ (∀ e, s.tam.events = [e] → e.window = false → t.life.st = consequence s.life.st e
            ∧ ∃ l, t.tam.log.head? = some l ∧ l.seq = s.tam.logSeq + 1 ∧ l.ev = e ∧ l.lcBefore = lcCode s.life.st
              ∧ l.lcAfter = lcCode t.life.st))
    ∧ (s.mainRun = false ∨ (∀ e ∈ s.tam.events, e.window = true) → ∃ t, exec .tallyProgram s = .next t ∧ s.sameBut t)

/-- A monitor's test starts by TEST_GO or in entry order when the entry is active, none runs, no event is pending and a second has
passed; it ends with its result, and a failure is a SELFTEST alarm; a domain with power-good has its monitors armed (12 R286,
R307, R308). -/
def Obligations.MonitorsTested : Prop :=
  ∀ s : State,
    (∀ k : Byte, { s with tam := { s.tam with testEntry := k } }.testable k.toNat = true →
      ∃ t, exec (.testGo k) s = .next t ∧ s.keeps t [.tam] ∧ t.tam.testBusy = true ∧ t.tam.testRun = k ∧ t.tam.testPass = false
        ∧ t.tam.testFail = false ∧ t.tam.fell = .test ∧ mget t.tam.testTime k.toNat 0 = s.time.counter)
    ∧ (∀ k : Byte, { s with tam := { s.tam with testEntry := k } }.testable k.toNat = false →
      ∃ t, exec (.testGo k) s = .next t ∧ s.keeps t [.tam] ∧ t.tam = { s.tam with testEntry := k })
    ∧ (∀ k, (entriesFrom s.tam.nextTest).find? (fun k => k != 98 && s.monActive k) = some k → s.testable k = true →
        ∃ t, exec .monitorTestPeriodic s = .next t ∧ s.keeps t [.tam] ∧ t.tam.testBusy = true ∧ t.tam.testRun.toNat = k
          ∧ t.tam.nextTest = (k + 1) % 159 ∧ t.tam.fell = .test)
    ∧ (s.tam.testBusy = true →
        (∃ t, exec (.monitorTestEnd true) s = .next t ∧ s.keeps t [.tam] ∧ t.tam.testBusy = false ∧ t.tam.testPass = true
          ∧ t.tam.testFail = false ∧ t.tam.testDone = s.tam.testRun ∧ (s.tam.fell = .test → t.tam.fell = .armed))
        ∧ (s.mainRun = true → ∃ t, exec (.monitorTestEnd false) s = .next t ∧ t.tam.testBusy = false ∧ t.tam.testFail = true
          ∧ t.tam.felledState = true ∧ t.tam.tampOutN = false ∧ t.tam.storageKey = none))
    ∧ (s.tam.testBusy = false → ∀ ok, ∃ t, exec (.monitorTestEnd ok) s = .next t ∧ s.sameBut t)
    ∧ ∀ dom : Fin 30,
        ((s.domain dom.val).up = true → (s.domain dom.val).pgood = true →
          ∃ t, exec (.monitorRearm dom) s = .next t ∧ s.keeps t [.tam] ∧ (∀ k ∈ entriesOf dom.val, mget t.tam.armed k false = true)
            ∧ (∀ k, k ∉ entriesOf dom.val → ∀ z, mget t.tam.armed k z = mget s.tam.armed k z) ∧ t.tam = { s.tam with armed := t.tam.armed })
        ∧ ((s.domain dom.val).up = false ∨ (s.domain dom.val).pgood = false →
          ∃ t, exec (.monitorRearm dom) s = .next t ∧ s.sameBut t)

/-- A margin sentinel's interval ends with at most one miss in 2,048 blocks: with no miss ADVANCE goes one up, with a few it
stays, DROOP_MV follows the last good setting, and the next interval counts from here; with more it goes one down, and at
ADVANCE 0 the cluster is out of margin. The first 2^20 blocks of phase 1, each top-up's 2^16 and an interval's 2^16 are counted
(12 R309, R310). -/
def Obligations.SentinelsAdjust : Prop :=
  ∀ (c : Cl) (s : State),
    let o := mget s.tam.interval c.val (0, 0)
    let ends := fun (i : Instr) (n : Nat) (last : Option Nat) =>
      ∃ u t, u = s.fillBlocks c.val n ∧ exec i s = .next t
        ∧ (o.1 ≤ s.ops c.val → s.ops c.val + n < 2 ^ 64 → n ≤ u.ops c.val - o.1)
        ∧ (let b := u.ops c.val - o.1
           let m := u.misses c.val - o.2
           let a := (u.sentinel c.val 0).advance.toNat
           (m * 2048 ≤ b → s.keeps t [.eng, .tam] ∧ mget t.tam.phase c.val .off = .two (some a)
              ∧ (t.sentinel c.val 0).advance.toNat = (if m = 0 ∧ a < 15 then a + 1 else a)
              ∧ mget t.tam.droop (3 + c.val) 0 = BitVec.ofNat 8 (max (sentConst c.val 2) (min (sentConst c.val 3) (droopOf c.val a)))
              ∧ mget t.tam.interval c.val (0, 0) = (t.ops c.val, t.misses c.val))
           ∧ (b < m * 2048 → 0 < a → s.keeps t [.eng, .tam] ∧ mget t.tam.phase c.val .off = .two last
              ∧ (t.sentinel c.val 0).advance.toNat = a - 1)
           ∧ (b < m * 2048 → a = 0 → mget t.tam.lowMargin c.val false = true ∧ mget t.tam.phase c.val .one = .off))
    (s.sentPhase c.val = .one → ends (.sentinelPhase1End c) (2 ^ 20) none)
    ∧ (∀ a, s.sentPhase c.val = .two a → ends (.sentinelIntervalEnd c) (2 ^ 16) a)
    ∧ (s.sentPhase c.val = .one → ∃ t, exec (.sentinelTopUp c) s = .next t ∧ s.keeps t [.eng, .tam]
        ∧ mget t.tam.topUp c.val 0 = t.ops c.val
        ∧ (s.ops c.val + 2 ^ 16 < 2 ^ 64 → mget s.tam.topUp c.val 0 ≤ s.ops c.val → mget s.tam.topUp c.val 0 + 2 ^ 16 ≤ t.ops c.val))
    ∧ (s.sentPhase c.val = .off → ∀ i ∈ [Instr.sentinelPhase1End c, .sentinelIntervalEnd c, .sentinelTopUp c],
        ∃ t, exec i s = .next t ∧ s.sameBut t)

/-! ### Entropy (11) -/

/-- Start-up: a failed known-answer test or a failed source is ENT_FAIL, with the queue empty and no random served, the first
failure's test kept; a passed start-up runs (11 R267, R268). In every other state its commands change nothing.
In service: a window's four blocks, each of the next 256 sampling instants, go into the seed queue as far as they fit; a health failure
ends the service, in raw mode it is only counted; a call of an expander that serves draws 16 bytes and is counted, and one that cannot
serve waits for a seed in the expander's queue; a wait for random whose time is spent completes ENTROPY_NOT_READY (11 R264, R265, R269,
R270, R273, R274, R277). -/
def Obligations.EntropyRuns : Prop :=
  (∀ s : State,
      let failed := fun (t : State) => t.ent.st = .failed ∧ t.ent.fail = true ∧ t.ent.ready = false ∧ t.ent.words = 0 ∧ t.ent.leaving = none
        ∧ (s.ent.failTest ≠ 0 → t.ent.failTest = s.ent.failTest ∧ t.ent.failSrc = s.ent.failSrc)
      (s.entStarting = false ∨ s.ent.katPassed = true → ∀ b, ∃ t, exec (.entropyStartup b) s = .next t ∧ s.sameBut t)
      ∧ (s.entStarting = true → s.ent.katPassed = false →
          (∃ t, exec (.entropyStartup true) s = .next t ∧ s.keeps t [.ent] ∧ t.ent = { s.ent with katPassed := true })
          ∧ ∃ t, exec (.entropyStartup false) s = .next t ∧ failed t ∧ (s.ent.failTest = 0 → t.ent.failTest = 3))
      ∧ (s.entStarting = false ∨ s.ent.katPassed = false → ∀ m, ∃ t, exec (.entropyStartupEnd m) s = .next t ∧ s.sameBut t)
      ∧ (s.entStarting = true → s.ent.katPassed = true →
          (∃ t, exec (.entropyStartupEnd 0) s = .next t ∧ t.ent.st = (if s.ent.fail then .failed else .running) ∧ t.ent.starting = false ∧ t.ent.srcPass = 0xFFFF
            ∧ t.ent.srcFail = s.ent.srcFail ∧ t.ent.leaving = none ∧ t.ent.fail = s.ent.fail)
          ∧ ∀ m, m ≠ 0 → ∃ t, exec (.entropyStartupEnd m) s = .next t ∧ failed t ∧ t.ent.srcPass = ~~~m
              ∧ t.ent.srcFail = (s.ent.srcFail ||| m) ∧ (s.ent.failTest = 0 → m.getLsbD t.ent.failSrc.toNat = true ∧ t.ent.failTest ≠ 0)))
  ∧ (∀ s : State,
      (s.ent.st = .running → s.tam.felledState = false →
        ∃ x : State, exec .entropyWindowClose s = .next (s.settled x.seedsCame) ∧ s.keeps x [.ent]
          ∧ x.ent.words = s.ent.words + 2 * min 4 ((64 - s.ent.words) / 2) ∧ s.ent.queue <+: x.ent.queue
          ∧ (s.ent.words + 2 ≤ 64 → (x.ent.queue.drop s.ent.words).take 2 = [(conditioned s.ent.instants).take 16, (conditioned s.ent.instants).drop 16])
          ∧ x.ent.instants = s.ent.instants + 1024)
      ∧ (s.ent.st ≠ .running ∨ s.tam.felledState = true → ∃ t, exec .entropyWindowClose s = .next t ∧ s.sameBut t)
      ∧ (∀ (src : Fin 16) (apt : Bool),
          (s.tam.felledState = false → s.ent.st = .running →
            ∃ t, exec (.healthTestFail src apt) s = .next t ∧ t.ent.st = .failed ∧ t.ent.fail = true ∧ t.ent.ready = false ∧ t.ent.words = 0
              ∧ t.ent.srcFail.getLsbD src.val = true
              ∧ (s.ent.failTest = 0 → t.ent.failTest = (if apt then 2 else 1) ∧ t.ent.failSrc.toNat = src.val))
          ∧ (s.tam.felledState = false → s.ent.st = .raw →
            ∃ t, exec (.healthTestFail src apt) s = .next t ∧ s.keeps t [.ent]
              ∧ t.ent = { s.ent with srcFail := setFlag s.ent.srcFail src.val, rawFails := satInc s.ent.rawFails })
          ∧ (s.tam.felledState = true ∨ s.ent.st = .starting ∨ s.ent.st = .failed →
            ∃ t, exec (.healthTestFail src apt) s = .next t ∧ s.sameBut t))
      ∧ (∀ (c : Cl) (i : Bool),
          (c.val ∉ s.poweredCle ∨ s.tam.felledState = true → ∃ t, exec (.expanderCall c i) s = .next t ∧ s.sameBut t)
          ∧ (c.val ∈ s.poweredCle → s.tam.felledState = false → s.expanderServes c.val = true →
            ∃ x : State, exec (.expanderCall c i) s = .next (s.settled x.seedQueue) ∧ s.keeps x [.ent]
              ∧ (x.expander c.val).calls = (s.expander c.val).calls + 1 ∧ (x.expander c.val).drbg = (s.expander c.val).drbg.generate.1
              ∧ ∀ k, k ≠ c.val → x.expander k = s.expander k)
          ∧ (c.val ∈ s.poweredCle → s.tam.felledState = false → s.expanderServes c.val = false → (s.expander c.val).inst = false →
            ∃ t, exec (.expanderCall c i) s = .next t ∧ s.sameBut t)
          ∧ (c.val ∈ s.poweredCle → s.tam.felledState = false → s.expanderServes c.val = false → (s.expander c.val).inst = true →
            s.ent.fail = false → s.ent.rawActive = false →
            let y := s.expander c.val
            (y.seedWait = false →
              ∃ x : State, exec (.expanderCall c i) s = .next (s.settled (x.seedQueue.queueCall c.val i 0 false)) ∧ s.keeps x [.ent]
                ∧ x.expander c.val = { y with seedWait := true, dryWaits := satInc y.dryWaits })
            ∧ (y.seedWait = true →
              ∃ t, exec (.expanderCall c i) s = .next t ∧ s.keeps t [.ent]
                ∧ t.expander c.val = { y with waits := y.waits ++ [(i, 0)], dryWaits := satInc y.dryWaits })))
      ∧ ∀ (d : Nat) (r q : DRec), s.desc d = some r → r.stage = .waitRandom ∨ s.ctxWaits d = true → (s.mergeFlags d).desc d = some q →
          q.durable = false → q.written = [] → s.canComplete q 0 →
          ∃ x, exec (.randomWaitTimeout d) s = .next (s.settled x.settle) ∧ s.completes x q 0x0401 [] 0 [])

/-! ### Time and power (15) -/

/-- A PPS edge is counted when it falls within 1 ms of a boundary not counted before: its offset and count are kept, four good
ones in a row lock, one more than 10 µs off unlocks, and without LOCK the counter steps to the boundary or holds for it; a waiting
load happens at it. A window without its edge is missing, and the third bad one in a row unlocks (15 R363 to R366). -/
def Obligations.TimeKept : Prop :=
  ∀ s : State,
    let c := s.time.counter.toNat
    let b := (c + 500000000) / 1000000000 * 1000000000
    let off : Int := (c : Int) - b
    let follows := s.time.lastBoundary = some (b - 1000000000)
    (∀ y n, (s.time.ppsEn = false → ∃ t, exec (.ppsEdge y n) s = .next t ∧ s.sameBut t)
      ∧ (s.time.ppsEn = true → 1000000 < off.natAbs →
          ∃ t, exec (.ppsEdge y n) s = .next t ∧ s.keeps t [.time] ∧ t.time.outOfWindow = true
            ∧ (s.time.lock = true → t.time.counter = s.time.counter)
            ∧ (s.time.lock = false → t.time.counter = BitVec.ofNat 64 ((c / 1000000000 + 1) * 1000000000) ∧ t.time.frac = 0))
      ∧ (s.time.ppsEn = true → off.natAbs ≤ 1000000 → s.time.lastBoundary = some b →
          ∃ t, exec (.ppsEdge y n) s = .next t ∧ s.keeps t [.time] ∧ t.time = { s.time with outOfWindow := true })
      ∧ (s.time.ppsEn = true → off.natAbs ≤ 1000000 → s.time.lastBoundary ≠ some b →
          ∃ t, exec (.ppsEdge y n) s = .next t ∧ t.time.missing = false ∧ t.time.outOfWindow = false
            ∧ t.time.ppsOffset = BitVec.ofInt 32 off ∧ t.time.capt = s.time.counter
            ∧ (10000 < off.natAbs → t.time.lock = false) ∧ (off.natAbs ≤ 10000 → s.time.lock = true → t.time.lock = true)
            ∧ (off.natAbs ≤ 500 → follows → 3 ≤ s.time.good → t.time.lock = true)
            ∧ (follows → t.time.freqSeq = s.time.freqSeq + 1 ∧ t.time.freq = y ∧ t.time.aonCount = n)
            ∧ (¬follows → t.time.freqSeq = s.time.freqSeq)
            ∧ (s.time.setPending = true → t.time.counter = s.time.setVal ∧ t.time.setPending = false ∧ t.time.valid = true
                ∧ t.time.lastBoundary = some s.time.setVal.toNat)
            ∧ (s.time.setPending = false → t.time.lastBoundary = some b
                ∧ (off.natAbs ≤ 500 → t.time.counter = s.time.counter)
                ∧ (500 < off.natAbs → s.time.lock = false →
                    (off < 0 → t.time.counter.toNat = b % 2 ^ 64 ∧ t.time.frac = 0) ∧ (0 < off → t.time.counter = s.time.counter ∧ t.time.holding = true)))))
    ∧ (s.time.ppsEn = false → ∃ t, exec .ppsWindowClose s = .next t ∧ s.sameBut t)
    ∧ (s.time.ppsEn = true → ∃ t, exec .ppsWindowClose s = .next t ∧ s.keeps t [.time, .host, .disp, .kr, .vault, .eng, .mesh, .gate]
        ∧ (s.time.lastBoundary = some b → t.time.missing = s.time.missing) ∧ (s.time.lastBoundary ≠ some b → t.time.missing = true)
        ∧ (s.time.lastBoundary = some b → s.time.outOfWindow = false → s.keeps t [.time] ∧ t.time.badWindows = 0 ∧ t.time.lock = s.time.lock)
        ∧ (s.time.lastBoundary ≠ some b ∨ s.time.outOfWindow = true → s.time.badWindows < 2 →
            s.keeps t [.time] ∧ t.time.badWindows = s.time.badWindows + 1 ∧ t.time.lock = s.time.lock)
        ∧ (s.time.lastBoundary ≠ some b ∨ s.time.outOfWindow = true → 2 ≤ s.time.badWindows →
            t.time.lock = false ∧ (s.time.lock = true → t.time.trim = clampTrim s.time.lastF.toInt)))
    ∧ (∃ t, exec .setNow s = .next t ∧ t.time = { s.time with counter := s.time.setVal, frac := 0, valid := true, setPending := false,
                                                              holding := false })
    ∧ (∃ t, exec .setAtEdge s = .next t ∧ s.keeps t [.time] ∧ t.time = { s.time with setPending := true })
    ∧ ∃ t, exec .counterHoldEnd s = .next t ∧ s.keeps t [.time] ∧ t.time = { s.time with holding := false }

/-- A domain that Alatas switches off is isolated with its monitors disarmed, and one switched on ramps until its power is good:
only then is it isolated no longer; a cluster's engines ramp before its cores (15 R369, R375; 12 R286). -/
def Obligations.DomainsSwitched : Prop :=
  ∀ (dom : Fin 30) (s : State),
    let d := dom.val
    (∀ on, s.switchable d = false → ∃ t, exec (.domainPower dom on) s = .next t ∧ s.sameBut t)
    ∧ (s.switchable d = true →
        ((s.domain d).on = true → ∃ t, exec (.domainPower dom true) s = .next t ∧ s.sameBut t)
        ∧ ((s.domain d).on = false → ∃ t, exec (.domainPower dom true) s = .next t ∧ s.keeps t [.pwr]
            ∧ t.domain d = { on := true, ramping := true, op := (s.domain d).op } ∧ ∀ e, e ≠ d → t.domain e = s.domain e)
        ∧ ∃ t, exec (.domainPower dom false) s = .next t ∧ s.keeps t [.disp, .kr, .eng, .ent, .tam, .mesh, .pwr]
            ∧ (t.domain d).on = false ∧ (t.domain d).iso = true ∧ (∀ k ∈ entriesOf d, mget t.tam.armed k true = false)
            ∧ (∀ e, e ≠ d → t.domain e = s.domain e) ∧ (∀ c, domainCluster d = some c → t.cst c = .off))
    ∧ ((s.domain d).ramping = false → ∃ t, exec (.powerGood dom) s = .next t ∧ s.sameBut t)
    ∧ ((s.domain d).ramping = true →
        ∃ x : State, exec (.powerGood dom) s = .next (s.settled x.opGone.after)
          ∧ x.domain d = { s.domain d with pgood := true, iso := false, ramping := false }
          ∧ (∀ c, d = 11 + c → c < 8 → s.cst c = .powering → (s.domain (3 + c)).on = false →
              x.domain (3 + c) = { on := true, ramping := true, op := (s.domain d).op })
          ∧ (¬(3 ≤ d ∧ d ≤ 22) → s.keeps x [.pwr]))

/-! ### Gates and arbiters (13; 10) -/

/-- A write of a region's CTRL commits the staged copy: the region takes it whole, EPOCH advances, and a malformed region is BAD
and sets RULE_ERR; a region number that the gate does not have commits nothing. A fence samples EPOCH and is busy until it is done
(13 R316, R317, R322). -/
def Obligations.RegionsCommitted : Prop :=
  ∀ (g : Fin 6) (s : State),
    let y := s.gateOf g.val
    let n := if g.val = 0 then 256 else 64
    (∀ (r : Byte) (v : Word32), r.toNat < n → ∃ t x, exec (.regionCommit g r v) s = .next t ∧ s.keeps t [.gate]
        ∧ mget (t.gateOf g.val).regions r.toNat {} = x ∧ (t.gateOf g.val).epoch = y.epoch + 1
        ∧ x.base = (mget y.staged r.toNat {}).base ∧ x.sizeExp.toNat = v.toNat % 64 ∧ x.valid = v.getLsbD 8
        ∧ (g.val = 0 → x.rd = v.getLsbD 10 ∧ x.wr = v.getLsbD 11) ∧ (g.val ≠ 0 → x.rd = false ∧ x.wr = false)
        ∧ (g.val ≠ 0 → s.life.st = .blank → x.rmask = (mget y.staged r.toNat {}).rmask ∧ x.wmask = (mget y.staged r.toNat {}).wmask)
        ∧ (g.val ≠ 0 → s.life.st ≠ .blank → x.rmask.getLsbD 80 = false ∧ x.wmask.getLsbD 80 = false
            ∧ ∀ k, k < 128 → k ≠ 80 → x.rmask.getLsbD k = (mget y.staged r.toNat {}).rmask.getLsbD k)
        ∧ (x.bad = true ↔ x.valid = true ∧ (x.sizeExp.toNat < 12 ∨ 40 < x.sizeExp.toNat ∨ ¬(2 ^ x.sizeExp.toNat ∣ x.base.toNat)))
        ∧ (t.gateOf g.val).ruleErr = (y.ruleErr || x.bad)
        ∧ (∀ k, k ≠ r.toNat → ∀ z, mget (t.gateOf g.val).regions k z = mget y.regions k z)
        ∧ (∀ h, h ≠ g.val → t.gateOf h = s.gateOf h) ∧ t.gate.oldWin = s.gate.oldWin)
    ∧ (∀ (r : Byte) (v : Word32), n ≤ r.toNat → ∃ t, exec (.regionCommit g r v) s = .next t ∧ s.sameBut t)
    ∧ (∃ t, exec (.fenceGo g) s = .next t ∧ s.keeps t [.gate] ∧ t.gateOf g.val = { y with fenceBusy := true, fenceEpoch := y.epoch }
        ∧ ∀ h, h ≠ g.val → t.gateOf h = s.gateOf h)
    ∧ ∃ t, exec (.fenceDone g) s = .next t ∧ s.keeps t [.gate] ∧ t.gateOf g.val = { y with fenceBusy := false }
        ∧ ∀ h, h ≠ g.val → t.gateOf h = s.gateOf h

/-- A map that ranks each of the 15 inputs once is on its way after MAP_COMMIT, any other only sets MAP_ERR; the rotation moves
every rank one up. A decision gives an idle engine to the highest rank that requests, and takes it from its owner after a block
only for a higher rank; what is preempted waits at the head of its input. The first decision of an engine after a commit still uses the
old map, those after it the new. An engine out of service grants nothing, and an arbiter whose domain is off does nothing (10 R249 to
R254). -/
def Obligations.ArbitersDecide : Prop :=
  ∀ (a : Fin 12) (s : State),
    let x := s.arb a.val
    let others := fun (t : State) => s.keeps t [.eng] ∧ ∀ b, b ≠ a.val → t.arb b = s.arb b
    (s.arbUp a.val = true → mapOk x.pendLo x.pendHi = true → ∃ t, exec (.mapCommit a) s = .next t ∧ others t
        ∧ (t.arb a.val).coming = some (x.pendLo, x.pendHi) ∧ (t.arb a.val).rotCount = 0 ∧ (t.arb a.val).mapErr = x.mapErr
        ∧ (t.arb a.val).seen = [] ∧ (x.coming = none → (t.arb a.val).liveLo = x.liveLo ∧ (t.arb a.val).liveHi = x.liveHi)
        ∧ ∀ m, x.coming = some m → ((t.arb a.val).liveLo, (t.arb a.val).liveHi) = m)
    ∧ (s.arbUp a.val = true → mapOk x.pendLo x.pendHi = false → ∃ t, exec (.mapCommit a) s = .next t ∧ others t ∧ t.arb a.val = { x with mapErr := true })
    ∧ (s.arbUp a.val = true → x.rotEn = true → ∃ t lo hi, exec (.rotationCommit a) s = .next t ∧ others t ∧ (t.arb a.val).coming = some (lo, hi)
        ∧ (t.arb a.val).rotCount = 0 ∧ (∀ i < 15, rankIn lo hi i = (x.arrived.rank i + 1) % 15))
    ∧ (s.arbUp a.val = false ∨ x.rotEn = false → ∃ t, exec (.rotationCommit a) s = .next t ∧ s.sameBut t)
    ∧ (s.arbUp a.val = false → ∃ t, exec (.mapCommit a) s = .next t ∧ s.sameBut t)
    ∧ (∀ e : Fin 4, s.arbUp a.val = false ∨ (8 ≤ a.val ∧ e.val ≠ 0) → ∃ t, exec (.arbiterDecision a e) s = .next t ∧ s.sameBut t)
    ∧ ∀ e : Fin 4, s.arbUp a.val = true → (a.val < 8 ∧ e.val < 3 ∨ 8 ≤ a.val ∧ e.val = 0) →
        let y := x.engine e.val
        let z := x.upTo e.val
        let gives := fun (o : Option (Nat × Req)) (n : Word32) => ∃ t, exec (.arbiterDecision a e) s = .next t ∧ others t
          ∧ ((t.arb a.val).engine e.val).owner = o ∧ ((t.arb a.val).engine e.val).grants = n
          ∧ ((t.arb a.val).engine e.val).voids = (if y.voided then satInc y.voids else y.voids)
          ∧ (t.arb a.val).liveLo = z.liveLo ∧ (t.arb a.val).liveHi = z.liveHi
          ∧ (∀ f, f ≠ e.val → (t.arb a.val).engine f = x.engine f)
        (y.oos = true → gives none y.grants)
        ∧ (y.oos = false → y.owner = none → z.top e.val = none → gives none y.grants)
        ∧ (y.oos = false → y.owner = none → ∀ i q, z.top e.val = some (i, q) → gives (some (i, { q with preempted := false })) (satInc y.grants))
        ∧ (y.oos = false → ∀ j o, y.owner = some (j, o) → { o with done := o.done + 1 }.more = true →
            (∀ i q, z.top e.val = some (i, q) → z.rank i ≤ z.rank j) → gives (some (j, { o with done := o.done + 1 })) y.grants)
        ∧ (y.oos = false → ∀ j o, y.owner = some (j, o) → { o with done := o.done + 1 }.more = true →
            ∀ i q, z.top e.val = some (i, q) → z.rank j < z.rank i →
            gives (some (i, { q with preempted := false })) (satInc y.grants)
            ∧ ∃ t, exec (.arbiterDecision a e) s = .next t ∧ ((t.arb a.val).engine e.val).preempts = satInc y.preempts
                ∧ ((t.arb a.val).inputQ j e.val).head? = some { o with done := o.done + 1, preempted := true })
        ∧ (y.oos = false → ∀ j o, y.owner = some (j, o) → { o with done := o.done + 1 }.more = false →
            (z.top e.val = none → gives none y.grants)
            ∧ ∀ i q, z.top e.val = some (i, q) → gives (some (i, { q with preempted := false })) (satInc y.grants))

/-! ### Clusters, windows and capture (10 R257; 15 R374, R377; 13 R326; 11 R278) -/

/-- A core fault ends the work the core had begun, and sends what it had only queued back to the dispatcher; a drained cluster is
quiesced with its SRAM zero; a repair cycles the cluster's power once an hour and then reports how its rejoin ended; a retired
window set is no longer in force; a capture's samples are written and its command completes. -/
def Obligations.ClusterEvents : Prop :=
  ∀ s : State,
    (∀ (k : CoreNo) (z : CoreFaultCause), (s.domain (3 + k.val / 8)).up = true → (z = .noRetire → s.coreQueue k.val ≠ []) →
        ∃ x : State, exec (.coreFault k z) s = .next (s.settled x.after)
          ∧ (∀ d ∈ s.coreQueue k.val, ∀ r, s.desc d = some r → r.onCore = true → x.desc d = none)
          ∧ ((∀ d ∈ s.coreQueue k.val, ∀ r, s.desc d = some r → r.onCore = false) →
              ∀ d ∈ s.coreQueue k.val, ∀ r, s.desc d = some r → r.stage = .queued → r.begun = false →
                (x.desc d).map DRec.stage = some .inbox ∧ d ∈ x.disp.inbox ∧ ∀ j, d ∉ x.coreQueue j))
    ∧ (∀ (k : CoreNo) (z : CoreFaultCause), (s.domain (3 + k.val / 8)).up = false ∨ (z = .noRetire ∧ s.coreQueue k.val = []) →
        ∃ t, exec (.coreFault k z) s = .next t ∧ s.sameBut t)
    ∧ (∀ c : Cl, (s.cst c.val = .draining → s.drained c.val = true →
          ∃ x : State, exec (.clusterDrained c) s = .next (s.settled x.opGone.after) ∧ x.cst c.val = .quiesced
            ∧ ∀ k, k / 2 ^ 21 = c.val → mget x.eng.sram k 0 = 0)
        ∧ (s.cst c.val ≠ .draining ∨ s.drained c.val = false → ∃ t, exec (.clusterDrained c) s = .next t ∧ s.sameBut t))
    ∧ (∀ (c : Cl) (ok : Bool),
        (s.pwr.current ≠ some (.repair c.val) ∨ s.cst c.val ≠ .quiesced → ∃ t, exec (.clusterRepair c ok) s = .next t ∧ s.sameBut t)
        ∧ (s.pwr.current = some (.repair c.val) → s.cst c.val = .quiesced → s.pwr.turn = [] →
            (s.pwr.cycled = false → s.repairedLately c.val = true →
              ∃ x : State, exec (.clusterRepair c ok) s = .next (s.settled x.after) ∧ s.keeps x [.pwr] ∧ x.pwr.current = none)
            ∧ (s.pwr.cycled = false → s.repairedLately c.val = false →
              ∃ x : State, exec (.clusterRepair c ok) s = .next (s.settled x.after) ∧ x.pwr.cycled = true
                ∧ mget x.pwr.repaired c.val 0 = s.time.counter)
            ∧ (s.pwr.cycled = true →
              ∃ x : State, exec (.clusterRepair c ok) s = .next (s.settled x.after) ∧ s.keeps x [.host, .kr, .eng, .ent, .tam, .pwr, .life] ∧ x.pwr.current = none
                ∧ (s.rejoinBar c.val = none → ok = true → x.cst c.val = .serving ∧ x.pwr.servingBits.getLsbD c.val = true
                    ∧ x.pwr.repairs = s.pwr.repairs ++ [(c.val, true)])
                ∧ (s.rejoinBar c.val = none → ok = false → x.cst c.val = .failed ∧ x.pwr.repairs = s.pwr.repairs ++ [(c.val, false)])
                ∧ (s.rejoinBar c.val ≠ none → x.cst c.val = .quiesced ∧ x.pwr.repairs = s.pwr.repairs ++ [(c.val, false)]))))
    ∧ (∀ p : Fn,
        (mhas s.gate.oldWin p.val = false ∨ (∃ r ∈ s.disp.descs, r.oldWin = true ∧ r.fn = p.val) →
          ∃ t, exec (.hostWindowRetire p) s = .next t ∧ s.sameBut t)
        ∧ (mhas s.gate.oldWin p.val = true → (∀ r ∈ s.disp.descs, ¬(r.oldWin = true ∧ r.fn = p.val)) → s.vault.pgFault = false →
          ∃ x : State, exec (.hostWindowRetire p) s = .next (s.settled x.after) ∧ s.keeps x [.gate, .disp]
            ∧ mhas x.gate.oldWin p.val = false ∧ x.gate.gates = s.gate.gates))
    ∧ ∀ (c : Capture) (q : DRec), s.ent.capture = some c → s.desc c.desc = some q → s.canComplete q 0 →
        let b := captureBytes s.ent.instants c
        (8 ∣ c.samples → b.length = popCount 16 c.sources * c.samples / 8)
        ∧ (s.hostPasses 0 false c.addr b.length true = true →
        ∃ u x : State, exec .rawCaptureDone s = .next (s.settled x.settle.after) ∧ s.keeps u [.host, .ent] ∧ u.hostGet c.addr b.length = b
          ∧ u.ent.capture = none ∧ u.completes x q (if u.recordFlags q &&& 0x17 = 0 then 0x0000 else 0x0001) [] 0 [])

/-! ### The board (18 R422; 02 R56) -/

/-- Each SMBus request is answered with its item and clears the item's new bit, ALERTS with the new bits, clearing none; while the
interface is not served nothing changes. SR-IOV enables virtual functions 1 to n and none beyond. -/
def Obligations.BoardReads : Prop :=
  ∀ s : State,
    (∀ (ts : List Word16) (i : Nat), ∀ r ∈ [(Instr.smbIdentity, 1, s.identity),
          (.smbTemperatures ts, 2, fit 18 ((ts.take 9).flatMap fun t => toLE 2 t.toNat)),
          (.smbTally, 3, toLE 2 s.tam.tally ++ [if s.tam.pending then 1 else 0]),
          (.smbLog i, 4, (s.tam.log[i]?).elim [] LogEntry.bytes), (.smbFreq, 5, s.freqReport), (.smbHealth, 6, s.health)],
        (s.smbServed = true → ∃ t, exec r.1 s = .next t ∧ s.keeps t [.host] ∧ t.host = { s.host with smbResp := r.2.2 }
          ∧ ∀ k < 8, t.life.newItems.getLsbD k = (s.life.newItems.getLsbD k && !decide (k = r.2.1)))
        ∧ (s.smbServed = false → ∃ t, exec r.1 s = .next t ∧ s.sameBut t))
    ∧ (s.smbServed = true → ∃ t, exec .smbAlerts s = .next t ∧ s.keeps t [.host] ∧ t.life.newItems = s.life.newItems
        ∧ t.host = { s.host with smbResp := [s.life.newItems] })
    ∧ (s.smbServed = false → ∃ t, exec .smbAlerts s = .next t ∧ s.sameBut t)
    ∧ ∀ n : Fn, ∃ x : State, exec (.sriovVfEnable n) s = .next (s.settled x.after)
        ∧ ∀ m : Fn, m.val ≠ 0 → (x.func m.val).present = decide (m ≤ n)
          ∧ (m ≤ n → (s.func m.val).present = false → (x.func m.val).fnReady = (s.life.boot == .done))
          ∧ (n < m → (x.func m.val).fnReady = false ∨ (s.func m.val).present = false)

/-! ### Engine pages and contexts (07 R187 to R195; 08 R209 to R223; 09 R228 to R241; 03 R70 to R73) -/

/-- An OPEN gets the lowest closed pages of its partition once the engine grants, a PAU's the lowest free context of the PAU with more
free ones; else it waits. One from a core that runs nothing, out of reach, or that has opened already changes nothing. A CLOSE
zeroes what was held (07 R188; 08 R209; 09 R228). -/
def Obligations.PagesOpened : Prop :=
  ∀ (who : Who) (c : Cl) (s : State),
    let w := who.val
    let first := fun (e p : Nat) => ∀ o ∈ s.eng.opens, ¬(o.cl = c.val ∧ o.eng = e ∧ o.part = p)
    let bars := fun (e : Nat) => s.tagOf w = none ∨ reachesCl w c.val = false ∨ s.opened w c.val e = true
    (∀ e : Eng, bars (engNo e) → ∃ t, exec (.engineOpen who c e) s = .next t ∧ s.sameBut t)
    ∧ (∀ (e : Eng) (p : Nat) (m : Bool), s.tagOf w = some (p, m) → reachesCl w c.val = true → s.opened w c.val (engNo e) = false → first (engNo e) p →
        let l := s.closedPages c.val (engNo e) p
        ∃ t, exec (.engineOpen who c e) s = .next t ∧ s.keeps t [.eng]
          ∧ (∀ n r, l = n :: r → s.grants c.val (engNo e) = true →
              let k := pageKey c.val (engNo e) p n
              let ab := (s.cpage k).state == .abandoned
              t.cpage k = { s.cpage k with holder := w + 1, desc := s.descOf w, state := if ab then .abandoned else .opened }
              ∧ (∀ j, j ≠ k → t.cpage j = s.cpage j) ∧ t.eng.opens = s.eng.opens
              ∧ mget t.eng.openRes (openKey w c.val (engNo e)) 0 = BitVec.ofNat 32 (n + if ab then 0x100 else 0))
          ∧ (l = [] ∨ s.grants c.val (engNo e) = false →
              t.eng.opens = s.eng.opens ++ [{ who := w, part := p, cl := c.val, eng := engNo e, count := 1 }] ∧ t.eng.pages = s.eng.pages))
    ∧ (∀ v : Word32, bars 3 ∨ 4 < v.toNat → ∃ t, exec (.dgeOpen who c v) s = .next t ∧ s.sameBut t)
    ∧ (∀ (v : Word32) (p : Nat) (m : Bool), v.toNat ≤ 4 → s.tagOf w = some (p, m) → reachesCl w c.val = true → s.opened w c.val 3 = false → first 3 p →
        let n := max 1 v.toNat
        let l := s.closedPages c.val 3 p
        ∃ t, exec (.dgeOpen who c v) s = .next t ∧ s.keeps t [.eng]
          ∧ (n ≤ l.length → s.grants c.val 3 = true →
              (∀ i ∈ l.take n, (t.dpage (dpageKey c.val p i)).holder = w + 1) ∧ t.eng.opens = s.eng.opens
              ∧ mget t.eng.pageSet (w * 8 + c.val) 0 = BitVec.ofNat 32 ((l.take n).map (2 ^ ·)).sum)
          ∧ (l.length < n ∨ s.grants c.val 3 = false →
              t.eng.opens = s.eng.opens ++ [{ who := w, part := p, cl := c.val, eng := 3, count := n }] ∧ t.eng.dpages = s.eng.dpages))
    ∧ (s.tagOf w = none ∨ (s.heldCtx w).isSome = true ∨ w ∈ mget s.eng.pauWait (halfOf w) [] → ∃ t, exec (.pauOpen who) s = .next t ∧ s.sameBut t)
    ∧ (∀ p m, s.tagOf w = some (p, m) → s.heldCtx w = none → mget s.eng.pauWait (halfOf w) [] = [] →
        let a := s.freeCtxs (2 * halfOf w)
        let b := s.freeCtxs (2 * halfOf w + 1)
        let u := if a.length < b.length then 2 * halfOf w + 1 else 2 * halfOf w
        ∃ t, exec (.pauOpen who) s = .next t ∧ s.keeps t [.eng]
          ∧ (∀ n r, s.freeCtxs u = n :: r → (t.ctx (4 * u + n)).holder = w + 1 ∧ (t.ctx (4 * u + n)).part = p
              ∧ (t.ctx (4 * u + n)).desc = s.descOf w ∧ mget t.eng.pauWait (halfOf w) [] = [])
          ∧ (s.freeCtxs u = [] → mget t.eng.pauWait (halfOf w) [] = [w] ∧ t.eng.ctxs = s.eng.ctxs))
    ∧ (s.eng.opens = [] →
        (∀ a : PageAddr, (∀ k, s.heldPage a = some k → pkPart k < 32 → pageKey (pkCl k) (pkEng k) (pkPart k) (pkPage k) = k →
            ∃ t, exec (.engineClose a) s = .next t ∧ s.keeps t [.eng, .kr] ∧ t.cpage k = {} ∧ ∀ j, j ≠ k → t.cpage j = s.cpage j)
          ∧ (s.heldPage a = none → ∃ t, exec (.engineClose a) s = .next t ∧ s.sameBut t))
        ∧ ∀ a : DgeAddr, (∀ k, s.heldDpage a = some k → dpageKey (dkCl k) (pkPart k) (pkPage k) = k →
            ∃ t, exec (.dgeClose a) s = .next t ∧ s.keeps t [.eng, .kr] ∧ t.dpage k = {})
          ∧ (s.heldDpage a = none → ∃ t, exec (.dgeClose a) s = .next t ∧ s.sameBut t))
    ∧ (∀ k, s.heldCtx w = some k → mget s.eng.pauWait (k / 4 / 2) [] = [] →
        ∃ t, exec (.pauClose who) s = .next t ∧ s.keeps t [.eng, .kr] ∧ t.ctx k = {} ∧ ∀ j, j ≠ k → t.ctx j = s.ctx j)
    ∧ (s.heldCtx w = none → ∃ t, exec (.pauClose who) s = .next t ∧ s.sameBut t)

/-- Each of the 23 requests, written to OP of a page that is neither BUSY nor in WAIT: it enters the arbiter when its keys are there,
waits for a key in flight, BUF_UNWRAP also for the block behind its IV (10 R247), ends REFUSED where a key was refused; where its form is
wrong or a register is empty it ends in FAULT, and the descriptor served completes ENGINE_FAULT; results read as not ready from there on.
GCM_INIT_ENC and the end of a GMAC also take the next invocation counter of a key that still passes the checks of its fetch as their nonce
(03 R74), or wait for it in WAIT, which ends when the reserve has come or with PAGE_TIMEOUT (07 R189 to R191, R199 to R201).
A request whose blocks have run and whose checks have passed leaves its page READY with what the operation made of it; a misuse ends it in
FAULT with ENGINE_FAULT, a store of what is not authenticated with AUTH_FAILED (R196), and what it could not do in REFUSED with the
status; ENC and DEC with DST 0 leave the last block in RESULT. A failed check is an engine fault, counted, and the descriptor served is
gone (07 R189 to R195). -/
def Obligations.RequestsRun : Prop :=
  (∀ (a : PageAddr) (w : Word32) (s : State),
      (∀ c ∈ [(Instr.enc a w, (0x10 : Byte)), (.dec a w, 0x11), (.bufWrap a w, 0x12), (.bufUnwrap a w, 0x13), (.bufRandom a w, 0x14),
          (.bufLoad a w, 0x15), (.bufStore a w, 0x16), (.bufXor a w, 0x17), (.macInit a w, 0x20), (.macUpdate a w, 0x21), (.macGen a w, 0x22),
          (.macVer a w, 0x23), (.gcmInitEnc a w, 0x30), (.gcmInitDec a w, 0x31), (.gcmAad a w, 0x32), (.gcmText a w, 0x33),
          (.gcmTagGen a w, 0x34), (.gcmTagVer a w, 0x35), (.pinOpen a w, 0x40), (.pinSeal a w, 0x41), (.pinRef a w, 0x42), (.refVer a w, 0x43),
          (.refPut a w, 0x44)],
        (s.heldPage a = none → ∃ t, exec c.1 s = .next t ∧ s.sameBut t)
        ∧ ∀ k, s.heldPage a = some k →
          let x := s.cpage k
          let q : OpReq := { code := c.2, word := w }
          let y := { x with state := .busy, req := some q, entered := false, first := x.din, feed := [], result := [], verdict := 0, vcheck := 0,
                            progress := 0 }
          let regs := (q.needs y).map y.reg
          let next := fun (z : CPage) => ∃ t : State, exec c.1 s = .next (s.settled t.after) ∧ s.keeps t [.eng] ∧ t.cpage k = z
            ∧ ∀ j, j ≠ k → t.cpage j = s.cpage j
          let wrong := (x.desc = 0 → next y.faulted)
            ∧ (x.desc ≠ 0 → ∀ r, (s.mergeFlags (x.desc - 1)).desc (x.desc - 1) = some r → r.durable = false → r.written = [] → s.canComplete r 0 →
                ∃ v, exec c.1 s = .next (s.settled v.settle.after) ∧ s.completes v r 0x0801 [] 0 [])
          (x.state = .busy ∨ x.state = .wait → ∃ t, exec c.1 s = .next t ∧ s.sameBut t)
          ∧ (x.state ≠ .busy → x.state ≠ .wait →
            (q.formOk (pkEng k) y = false → wrong)
            ∧ (q.formOk (pkEng k) y = true →
              (q.takesNonce y = false → (∀ r ∈ regs, r.filled = true) → ¬(c.2 = 0x13 ∧ q.src = 0) →
                ∃ z : State, exec c.1 s = .next (s.settled z.after) ∧ s.keeps z [.eng] ∧ z.cpage k = { y with entered := true }
                  ∧ (∀ j, j ≠ k → z.cpage j = s.cpage j)
                  ∧ (let i := arbInput (pkCl k) x.who (s.fwdMark x.who)
                     (z.arb (pkCl k)).inputQ i (pkEng k) = (s.arb (pkCl k)).inputQ i (pkEng k)
                       ++ [{ who := x.who, part := pkPart k, page := pkPage k, count := q.count }]))
              ∧ ((∀ r ∈ regs, r.filled = true) → c.2 = 0x13 → q.src = 0 → next y)
              ∧ (∀ st, (∀ r ∈ regs, r = .refused st) → regs ≠ [] → next (y.refused st))
              ∧ ((∀ r ∈ regs, ∀ st, r ≠ .refused st) → KeyReg1.inFlight ∈ regs → next y)
              ∧ ((∀ r ∈ regs, r = .empty) → regs ≠ [] → wrong)
              ∧ (q.takesNonce y = true → (∀ r ∈ regs, r.filled = true) → ∀ key ro i tr, y.reg ((q.needs y).headD q.kb) = .held key ro i tr →
                (∀ st, (s.setCpage k y).nonceRefusal (pkPart k) key ro i = some st → next (y.refused st))
                ∧ ((s.setCpage k y).nonceRefusal (pkPart k) key ro i = none → ∀ n t, runV (takeNonce i) (s.setCpage k y) = (.ok n, t) →
                  ∃ z : State, exec c.1 s = .next (s.settled z.after)
                    ∧ z.cpage k = { t.cpage k with nonce := nonceBytes t (pkPart k) (2 * pkCl k + pkEng k) n, nonceLocked := true,
                                                   state := .busy, entered := true })))))
      ∧ ∀ k q, s.heldPage a = some k → (s.cpage k).req = some q →
          ((s.cpage k).state = .wait → ∀ key ro i tr n t, (s.cpage k).reg ((q.needs (s.cpage k)).headD q.kb) = .held key ro i tr →
            s.nonceRefusal (pkPart k) key ro i = none → runV (takeNonce i) s = (.ok n, t) →
            ∃ z : State, exec (.nonceWaitResume a) s = .next (s.settled z.after) ∧ (z.cpage k).state = .busy ∧ (z.cpage k).entered = true
              ∧ (z.cpage k).nonce = nonceBytes t (pkPart k) (2 * pkCl k + pkEng k) n)
          ∧ ((s.cpage k).state ≠ .wait → ∀ c ∈ [Instr.nonceWaitResume a, .nonceWaitTimeout a], ∃ t, exec c s = .next t ∧ s.sameBut t)
          ∧ ((s.cpage k).state = .wait → ∃ t, exec (.nonceWaitTimeout a) s = .next t ∧ s.keeps t [.eng] ∧ t.cpage k = (s.cpage k).refused 0x0503
              ∧ ∀ j, j ≠ k → t.cpage j = s.cpage j))
  ∧ (∀ (a : PageAddr) (dm : Bytes) (s : State) (k : Nat) (q : OpReq), s.heldPage a = some k → (s.cpage k).req = some q → (s.cpage k).state = .busy →
      (s.cpage k).entered = true →
      let c := Instr.engineRequestDone a dm true
      let x := s.cpage k
      let run := runV (runOp (s.pageOpnd x.who x.desc (pkPart k)) x q dm) s
      let spent := fun (t : State) => (t.endReq (pkCl k) (pkEng k) fun q => q.ofPage k).countBlocks (pkCl k) (pkEng k) q.count
      let fails := fun (u : State) (d : Nat) (st : Word16) =>
        (d = 0 → ∃ z : State, exec c s = .next (s.settled z.after) ∧ u.keeps z [.eng] ∧ z.cpage k = (u.cpage k).faulted)
        ∧ (d ≠ 0 → ∀ r, (u.mergeFlags (d - 1)).desc (d - 1) = some r → r.durable = false → r.written = [] → u.canComplete r 0 →
            ∃ v, exec c s = .next (s.settled v.settle.after) ∧ u.completes v r st [] 0 [])
      (x.progress.toNat < q.count → ∃ t, exec c s = .next t ∧ s.sameBut t)
      ∧ (q.count ≤ x.progress.toNat →
        (∀ y t, run = (.ok y, t) → ∃ z : State, exec c s = .next (s.settled z.after)
            ∧ (pkEng k < 2 → t.keeps z [.eng]) ∧ t.keeps z [.host, .kr, .eng, .ent, .life]
            ∧ z.cpage k = { y with state := .ready, req := none, entered := false, revoked := (t.cpage k).revoked }
            ∧ ∀ j, j ≠ k → z.cpage j = t.cpage j)
        ∧ (∀ t wr, run = (.error (.fail 0x0801 wr), t) → fails (spent t) ((spent t).cpage k).desc 0x0801)
        ∧ (∀ t wr, run = (.error (.fail 0x0301 wr), t) → fails (spent t) x.desc 0x0301)
        ∧ (∀ st wr t, run = (.error (.fail st wr), t) → st ≠ 0x0801 → st ≠ 0x0301 → ∃ z : State,
            exec c s = .next (s.settled z.after) ∧ (spent t).keeps z [.eng] ∧ z.cpage k = (t.cpage k).refused st)
        ∧ ∀ key ro i tr, x.reg q.kb = .held key ro i tr → q.src = 0 → q.dst = 0 →
            let n := algBlock key.alg.toNat
            let b := (fit n x.first ++ x.feed).take (n * q.count)
            n * q.count ≤ (fit n x.first ++ x.feed).length →
            ∀ o ∈ [((0x10 : Byte), ecbEnc key.alg.toNat key.key b), (0x11, ecbDec key.alg.toNat key.key b)], q.code = o.1 →
              ∃ z : State, exec c s = .next (s.settled z.after) ∧ (pkEng k < 2 → s.keeps z [.eng]) ∧ (z.cpage k).state = .ready
                ∧ (z.cpage k).result = o.2.drop (o.2.length - min n o.2.length))
      ∧ (s.granted k = false → ∃ t, exec (.engineRequestDone a dm false) s = .next t ∧ s.sameBut t)
      ∧ (s.granted k = true → ∃ z : State, exec (.engineRequestDone a dm false) s = .next (s.settled z.after)
          ∧ (x.desc = 0 → (pkEng k < 2 → s.keeps z [.eng]) ∧ (z.cpage k).state = .fault ∧ (z.cpage k).kbuf = [] ∧ (z.cpage k).pinf = none
              ∧ mget z.eng.faults (4 * pkCl k + pkEng k) 0 = satInc (mget s.eng.faults (4 * pkCl k + pkEng k) 0))
          ∧ (x.desc ≠ 0 → z.desc (x.desc - 1) = none)))

/-- A fetch that is issued sets its key register in flight and takes its place on the key bus; when the bus ends the first fetch,
the register holds the key, or shows the status that refused it, in KSTAT too, and a refusal by class or usage ends the descriptor
KEY_USAGE_DENIED (01 R19); a fetch that needs a vault object waits for it (06 R172). A read of a result gives its word when it is ready,
else the not-ready pattern with EARLY_READ (03 R70 to R73; 07 R189, R191; 08 R218; 09 R229). -/
def Obligations.KeysFetched : Prop :=
  ∀ s : State,
    (∀ (g : KeyTarget) (w : Word32),
      (s.fetchSource g = none → ∃ t, exec (.keyFetchIssue g w) s = .next t ∧ s.sameBut t)
      ∧ ∀ p d ro al, s.fetchSource g = some (p, d, ro, al) → ∃ t f, exec (.keyFetchIssue g w) s = .next t ∧ s.keeps t [.eng, .kr]
          ∧ t.kr.fetches = s.kr.fetches.filter (fun h => h.tgt != g) ++ [f] ∧ f.tgt = g ∧ f.part = p ∧ f.index = w.toNat % 2 ^ 16
          ∧ f.trans = w.getLsbD 16 ∧ f.gen.toNat = w.toNat / 2 ^ 24 ∧ f.role = ro ∧ f.algset = al
          ∧ f.desc = (if d = 0 then none else some (d - 1))
          ∧ (∀ a kb k, g = .cipher a kb → s.heldPage a = some k → (t.cpage k).reg kb = .inFlight)
          ∧ (∀ a k, g = .digest a → s.heldDpage a = some k → (t.dpage k).ka = .inFlight)
          ∧ (∀ x k, g = .pau x → s.heldCtx x.val = some k → (t.ctx k).ka = .inFlight))
    ∧ (s.kr.ready = false ∨ s.kr.bus = .halted → ∃ t, exec .keyFetch s = .next t ∧ s.sameBut t)
    ∧ (s.kr.ready = true → s.kr.bus ≠ .halted → ∀ f r, s.kr.fetches = f :: r →
        (f.failed = none → ∀ i x t, s.fetchAll f = (.ok (i, x), t) →
          let held : KeyReg1 := .held x f.role i f.trans
          let got := fun (z : State) => t.keeps z [.eng, .kr] ∧ z.kr = { t.kr with fetches := t.kr.fetches.erase f }
          ∃ z : State, exec .keyFetch s = .next (s.settled z.after)
            ∧ (∀ a kb k, f.tgt = .cipher a kb → t.heldPage a = some k → (t.cpage k).req = none → got z ∧ (z.cpage k).reg kb = held)
            ∧ (∀ a k, f.tgt = .digest a → t.heldDpage a = some k → (t.dpage k).pend = .none → got z ∧ (z.dpage k).ka = held)
            ∧ (∀ v k, f.tgt = .pau v → t.heldCtx v.val = some k → (t.ctx k).state ≠ .busy → got z ∧ (z.ctx k).ka = held))
        ∧ (∀ st t, (f.failed = some st ∧ t = s) ∨ (f.failed = none ∧ ∃ w, s.fetchAll f = (.error (.fail st w), t)) →
          ∀ a kb k, f.tgt = .cipher a kb → t.heldPage a = some k → (t.cpage k).req = none →
            (f.desc = none ∨ st ≠ 0x0204 → ∃ z : State, exec .keyFetch s = .next (s.settled z.after) ∧ t.keeps z [.eng, .kr]
              ∧ z.kr = { t.kr with fetches := t.kr.fetches.erase f } ∧ (z.cpage k).reg kb = .refused st ∧ (z.cpage k).kstat = st)
            ∧ ∀ d q, f.desc = some d → st = 0x0204 → (t.mergeFlags d).desc d = some q → q.durable = false → q.written = [] →
                t.canComplete q 0 → ∃ z : State, exec .keyFetch s = .next (s.settled z.settle.after) ∧ t.completes z q 0x0204 [] 0 [])
        ∧ (f.failed = none → r = [] → ∀ l n t, s.fetchAll f = (.error (.park l n), t) → becomesThen .keyFetch s (s.fetchWaits f l n)))
    ∧ (∀ (a : PageAddr) (i : Fin 4),
        (s.heldPage a = none → ∃ t, exec (.resultRead (.cipher a i)) s = .next t ∧ s.keeps t [.host] ∧ t.host = { s.host with readData := 0xFFFF0000 })
        ∧ ∀ k, s.heldPage a = some k → ∃ t, exec (.resultRead (.cipher a i)) s = .next t ∧ s.keeps t [.host, .eng]
          ∧ ((s.cpage k).state = .ready → t.eng = s.eng ∧ t.host = { s.host with readData := wordOf (s.cpage k).result i.val })
          ∧ ((s.cpage k).state ≠ .ready → t.cpage k = { s.cpage k with earlyRead := true } ∧ t.host = { s.host with readData := 0xFFFF0000 }))
    ∧ (∀ (a : DgeAddr) (i : Fin 16) k, s.heldDpage a = some k → ∃ t, exec (.resultRead (.digest a i)) s = .next t ∧ s.keeps t [.host, .eng]
          ∧ ((s.dpage k).state = .ready → (s.dpage k).dest = 0 → t.eng = s.eng ∧ t.host = { s.host with readData := wordOf (s.dpage k).result i.val })
          ∧ ((s.dpage k).state ≠ .ready ∨ (s.dpage k).dest ≠ 0 →
              t.dpage k = { s.dpage k with earlyRead := true } ∧ t.host = { s.host with readData := 0xFFFF0000 }))
    ∧ ∀ (v : Who) k, s.heldCtx v.val = some k → ∃ t, exec (.resultRead (.pauLen v)) s = .next t ∧ s.keeps t [.host, .eng]
          ∧ ((s.ctx k).state = .ready → t.eng = s.eng ∧ t.host = { s.host with readData := (s.ctx k).resultLen })
          ∧ ((s.ctx k).state ≠ .ready → t.ctx k = { s.ctx k with earlyRead := true } ∧ t.host = { s.host with readData := 0xFFFF0000 })

/-- A digest page: INIT makes a fresh context of a configuration it accepts; a word goes into the buffer up to DECL_LEN, a full
buffer requests the engine, which takes one request of a core at a time (10 R247), and a core's word while BUSY is 1 sets OVERRUN;
KEY_ABSORB, FINAL and SAVE are requests of a FEEDING page; each ends with its blocks: one buffered block absorbed a request, the key at the
head of the stream, the digest in RESULT or compared, the context saved under the context key. Misuse is FAULT and counted, a failed check
an engine fault (08 R210 to R223). -/
def Obligations.DigestRuns : Prop :=
  ∀ (a : DgeAddr) (s : State),
    (s.heldDpage a = none → ∀ c ∈ [Instr.dgeInit a, .keyAbsorb a, .dgeFinal a, .dgeSave a, .dgeBlockDone a true],
      ∃ t, exec c s = .next t ∧ s.sameBut t)
    ∧ ∀ k, s.heldDpage a = some k →
      let x := s.dpage k
      let m := 4 * dkCl k + 3
      let unchained := ∀ i < 8, ∀ b, (s.dpage (sibling k i)).pend ≠ .chain b
      let misused := fun (z : State) => s.keeps z [.eng] ∧ (z.dpage k).state = .fault ∧ (z.dpage k).stream = [] ∧ (z.dpage k).buf = []
        ∧ (unchained → mget z.eng.misuse m 0 = satInc (mget s.eng.misuse m 0))
      let asks := fun (z : State) (y : DPage) (n : Nat) => s.keeps z [.eng]
        ∧ (s.dgeAsks (dkCl k) x.who = false → z.dpage k = { y with entered := true, waits := 0 } ∧
            let i := arbInput (dkCl k) x.who (s.fwdMark x.who)
            (z.arb (dkCl k)).inputQ i 3 = (s.arb (dkCl k)).inputQ i 3 ++ [{ who := x.who, part := pkPart k, page := pkPage k, count := n }])
        ∧ (s.dgeAsks (dkCl k) x.who = true → z.dpage k = { y with waits := n } ∧ z.eng.arbs = s.eng.arbs)
      let then' := fun (c : Instr) (f : State → Prop) => ∃ z : State, exec c s = .next (s.settled z.after) ∧ f z
      (x.state = .busy → ∃ t, exec (.dgeInit a) s = .next t ∧ s.sameBut t)
      ∧ (x.state ≠ .busy → x.state ≠ .feeding → s.initOk k = true →
          ∃ t, exec (.dgeInit a) s = .next t ∧ s.keeps t [.eng] ∧ t.dpage k = { x.fresh with state := .feeding } ∧ ∀ j, j ≠ k → t.dpage j = s.dpage j)
      ∧ (x.state = .feeding ∨ (x.state ≠ .busy ∧ s.initOk k = false) → ∃ t, exec (.dgeInit a) s = .next t ∧ misused t)
      ∧ (∀ w : Word32, x.state = .feeding → x.blockBusy = false → x.src.toNat < 2 → then' (.dgeDataWrite a w) fun z => s.keeps z [.eng]
            ∧ (x.wanted = 0 → z.dpage k = { x with trunc := true })
            ∧ (0 < x.wanted → let y := x.take (toLE 4 w.toNat)
                (y.blockBusy = false → z.dpage k = y) ∧ (y.blockBusy = true → asks z y 1)))
      ∧ (∀ w : Word32, x.state ≠ .feeding ∨ x.blockBusy = true → x.src = 0 →
          ∃ t, exec (.dgeDataWrite a w) s = .next t ∧ s.keeps t [.eng] ∧ t.dpage k = { x with overrun := true })
      ∧ (x.state = .feeding → x.secret = true → x.fed = 0 → x.keyed = 0 → x.blockBusy = false → (x.framedKey []).isSome = true →
          let y := { x with state := .busy, pend := .keyAbsorb, entered := false }
          (∀ key ro i tr, x.ka = .held key ro i tr → then' (.keyAbsorb a) fun z =>
              ((y.takeKey key ro).full = true → asks z { y.takeKey key ro with blockBusy := true } 1)
              ∧ ((y.takeKey key ro).full = false → s.keeps z [.eng] ∧ z.dpage k = { y.takeKey key ro with state := .feeding, pend := .none }))
          ∧ (x.ka = .inFlight → then' (.keyAbsorb a) fun z => s.keeps z [.eng] ∧ z.dpage k = y)
          ∧ (∀ st, x.ka = .refused st → then' (.keyAbsorb a) fun z => s.keeps z [.eng] ∧ (z.dpage k).state = .refused ∧ (z.dpage k).kstat = st)
          ∧ (x.ka = .empty → then' (.keyAbsorb a) misused))
      ∧ (x.state ≠ .busy → x.state ≠ .feeding ∨ x.secret = false ∨ x.fed ≠ 0 ∨ x.keyed ≠ 0 ∨ x.blockBusy = true ∨ (x.framedKey []).isSome = false →
          then' (.keyAbsorb a) misused)
      ∧ (x.state = .feeding → x.finalOk = true → unchained →
          let y := { x with state := .busy, pend := .final }
          (x.blockBusy = false → then' (.dgeFinal a) fun z => asks z y x.finalBlocks)
          ∧ (x.blockBusy = true → then' (.dgeFinal a) fun z => s.keeps z [.eng] ∧ z.dpage k = y))
      ∧ (x.state ≠ .busy → x.state ≠ .feeding ∨ x.finalOk = false → then' (.dgeFinal a) misused)
      ∧ (x.state = .feeding → unchained →
          let y := { x with state := .busy, pend := .save }
          (x.blockBusy = false → then' (.dgeSave a) fun z => asks z y 1)
          ∧ (x.blockBusy = true → then' (.dgeSave a) fun z => s.keeps z [.eng] ∧ z.dpage k = y))
      ∧ (x.state ≠ .busy → x.state ≠ .feeding → then' (.dgeSave a) misused)
      ∧ (x.entered = true → s.dgeRan k = true → x.waits = 0 → unchained →
          let done := then' (.dgeBlockDone a true)
          let y := { x with entered := false }
          (x.blockBusy = true → y.absorbed.full = false →
            (x.pend = .none → done fun z => s.keeps z [.eng] ∧ z.dpage k = y.absorbed)
            ∧ (x.pend = .keyAbsorb → done fun z => s.keeps z [.eng] ∧ z.dpage k = { y.absorbed with state := .feeding, pend := .none }))
          ∧ (x.blockBusy = true → y.absorbed.full = true → done fun z => s.keeps z [.eng] ∧ (z.dpage k).blockBusy = true
              ∧ (z.dpage k).stream = y.absorbed.stream ∧ (z.dpage k).buf = y.absorbed.buf)
          ∧ (x.blockBusy = false → x.pend = .final → x.result = [] →
            (x.dest = 0 → done fun z => s.keeps z [.eng] ∧ (z.dpage k).state = .ready ∧ (z.dpage k).result = x.value)
            ∧ (x.dest = 2 → done fun z => s.keeps z [.eng] ∧ (z.dpage k).state = .ready
              ∧ (z.dpage k).verdict = (if x.value.take x.cmpLen.toNat = (fit 64 x.expect).take x.cmpLen.toNat then 0x9669 else 0x3CC3)))
          ∧ (x.blockBusy = false → x.pend = .save → x.whereSt.toNat < 2 → (s.areaCheck k true).2 = true →
            done fun z => s.keeps z [.eng] ∧ (z.dpage k).state = .feeding ∧ (z.dpage k).saveSeq = x.saveSeq + 1 ∧ (z.dpage k).whereSt = 2
              ∧ mhas z.eng.saved k = true ∧ z.sramGet x.who x.area 320 = savedBytes (s.ck k) k x (x.saveSeq + 1))
          ∧ ∃ z : State, exec (.dgeBlockDone a false) s = .next (s.settled z.after)
            ∧ (x.desc = 0 → (z.dpage k).state = .fault ∧ mget z.eng.faults m 0 = satInc (mget s.eng.faults m 0))
            ∧ (x.desc ≠ 0 → z.desc (x.desc - 1) = none))

/-- Each of the 15 PAU operations, written to OP of a context that is neither BUSY nor in AWAIT: it enters the PAU's arbiter with its key
there and the operands that it has read and checked, and drives the digest page bound to it (R234); it ends INVALID at a public operand
that fails its check, in FAULT where its registers are wrong. When it has run it is READY with its output in the holder's SRAM, RESULT_LEN
and verdict; while its bound page's result or a digest has not come it yields the datapath (R243), in AWAIT for a digest, and it waits
for random with what it has drawn; a failed check is an engine fault (09 R229 to R243). -/
def Obligations.PauRuns : Prop :=
  ∀ s : State,
    (∀ who : Who, ∀ c ∈ [(Instr.mldsaKeygen who, (0x01 : Byte)), (.mldsaSign who, 0x02), (.mldsaVerify who, 0x03), (.mlkemKeygen who, 0x11),
        (.mlkemEncap who, 0x12), (.mlkemDecap who, 0x13), (.ecKeygen who, 0x21), (.ecdsaSign who, 0x22), (.ecdsaVerify who, 0x23),
        (.ecdhEph who, 0x24), (.rsaKeygen who, 0x31), (.rsaSign who, 0x32), (.rsaPublic who, 0x33), (.rsaOaepWrap who, 0x34),
        (.rsaOaepUnwrap who, 0x35)],
      (s.heldCtx who.val = none → becomesThen c.1 s s)
      ∧ ∀ k, s.heldCtx who.val = some k →
        let x := s.ctx k
        let y := { x with state := .busy, op := c.2, entered := false, trReady := false, verdict := 0, vcheck := 0, progress := 0, resultLen := 0,
                          digest := none, operands := [], xofWait := false, waitRandom := false }
        let u := s.setCtx k y
        (x.state = .busy ∨ x.state = .await → becomesThen c.1 s s)
        ∧ (x.state ≠ .busy → x.state ≠ .await →
          (u.pauFormOk k c.2.toNat = false → ∃ z, becomesThen c.1 s z ∧ s.keeps z [.eng] ∧ (z.ctx k).state = .fault ∧ (z.ctx k).ka = .empty
            ∧ (z.ctx k).holder = x.holder)
          ∧ ∀ v b, u.pauFormOk k c.2.toNat = true → u.pauRead k x.inOff.toNat (x.inBytes c.2.toNat) = (v, some b) →
            ((x.inBytes c.2.toNat ≠ 0 ∧ x.inLen.toNat ≠ b.length) ∨ x.publicOk c.2.toNat b = false →
              ∃ z, becomesThen c.1 s z ∧ s.keeps z [.eng] ∧ (z.ctx k).state = .invalid)
            ∧ (x.inBytes c.2.toNat = 0 ∨ x.inLen.toNat = b.length → x.publicOk c.2.toNat b = true →
              let runs := ∃ z, becomesThen c.1 s z ∧ s.keeps z [.eng, .disp] ∧ (z.ctx k).state = .busy ∧ (z.ctx k).op = c.2
                ∧ (z.ctx k).entered = true ∧ (z.ctx k).operands = b
                ∧ (∃ q ∈ (z.arb (8 + k / 4)).inputQ (arbInput (8 + k / 4) x.who (s.fwdMark x.who)) 0, q.who = x.who ∧ q.page = k % 4)
                ∧ (c.2.toNat ∈ xofOps → (z.dpage (u.boundPage x x.xofPage.toNat)).state = .busy
                    ∨ (z.dpage (u.boundPage x x.xofPage.toNat)).state = .feeding)
              (c.2.toNat ∉ keyedOps → runs)
              ∧ (c.2.toNat ∈ keyedOps →
                (∀ key ro i tr, x.ka = .held key ro i tr →
                  key.alg.toNat = (if c.2 = 0x02 then 8 else if c.2 = 0x13 then 9 else if c.2 = 0x22 then (if x.p384 then 11 else 10) else 12) → runs)
                ∧ (x.ka = .inFlight → ∃ z, becomesThen c.1 s z ∧ s.keeps z [.eng, .disp] ∧ z.ctx k = { y with operands := b })
                ∧ (∀ st, x.ka = .refused st → ∃ z, becomesThen c.1 s z ∧ s.keeps z [.eng, .disp] ∧ (z.ctx k).state = .refused ∧ (z.ctx k).kstat = st)
                ∧ (x.ka = .empty → ∃ z, becomesThen c.1 s z ∧ s.keeps z [.eng, .disp] ∧ (z.ctx k).state = .fault)))))
    ∧ ∀ u j : Fin 4,
      let k := 4 * u.val + j.val
      let x := s.ctx k
      let c := Instr.pauOpDone u j true
      let granted := ∃ i q, ((s.arb (8 + u.val)).engine 0).owner = some (i, q) ∧ q.page = j.val
      (∀ chk, x.state ≠ .busy ∨ x.entered = false ∨ ¬granted → ∃ t, exec (.pauOpDone u j chk) s = .next t ∧ s.sameBut t)
      ∧ (x.state = .busy → x.entered = true → granted →
        (x.xofWait = true → ∃ z, becomesThen c s z ∧ s.keeps z [.eng] ∧ z.ctx k = x ∧ ((z.arb (8 + u.val)).engine 0).owner = none)
        ∧ (x.xofWait = false → x.op.toNat ∈ digestOps → x.digest = none →
          ∃ z, becomesThen c s z ∧ s.keeps z [.eng] ∧ z.ctx k = { x with state := .await } ∧ ((z.arb (8 + u.val)).engine 0).owner = none)
        ∧ (x.xofWait = false → x.op.toNat ∉ digestOps ∨ x.digest ≠ none →
          let o := s.pageOpnd x.who x.desc x.part
          let run := runV (runPau o x x.operands (x.digest.getD [])) ((s.setCtx k { x with waitRandom := false }).rewind o.d)
          (∀ out e t v, run = (.ok (.ready out e), t) →
            let w := (t.xofEnds k).pauMasked k
            let tr := if (w.ctx k).op = 0x02 ∨ (w.ctx k).op = 0x03 then 64 else 0
            w.pauWrite k ((w.ctx k).outOff.toNat + tr) out = (v, true) →
            ∃ z, becomesThen c s z ∧ v.keeps z [.eng] ∧ (z.ctx k).state = .ready ∧ (z.ctx k).resultLen = BitVec.ofNat 32 (tr + out.length)
              ∧ ((w.ctx k).who ≠ 64 → z.sramGet (w.ctx k).who ((w.ctx k).outOff.toNat + tr) out.length = out)
              ∧ (e = some true → (z.ctx k).verdict = 0x9669 ∧ (z.ctx k).vcheck = 0x6996)
              ∧ (e = some false → (z.ctx k).verdict = 0x3CC3 ∧ (z.ctx k).vcheck = 0xC33C) ∧ (e = none → (z.ctx k).verdict = 0))
          ∧ (∀ t, run = (.ok .invalid, t) → ∃ z, becomesThen c s z ∧ t.keeps z [.eng] ∧ (z.ctx k).state = .invalid)
          ∧ (∀ t, run = (.ok .exhausted, t) → ∃ z, becomesThen c s z ∧ t.keeps z [.eng] ∧ (z.ctx k).state = .exhausted)
          ∧ (∀ st wr t, run = (.error (.fail st wr), t) → st ≠ 0x0801 →
              ∃ z, becomesThen c s z ∧ t.keeps z [.eng] ∧ (z.ctx k).state = .refused ∧ (z.ctx k).kstat = st)
          ∧ (∀ wr t, run = (.error (.fail 0x0801 wr), t) → ∃ z, becomesThen c s z ∧ t.keeps z [.eng] ∧ (z.ctx k).state = .fault)
          ∧ ∀ t, run = (.error (.wait .waitRandom), t) →
              ∃ z, becomesThen c s z ∧ s.keeps z [.eng, .disp, .kr, .ent] ∧ z.ctx k = { x with waitRandom := true }
                ∧ ((t.desc o.d).isSome = true → z.ent = t.ent))
        ∧ ∃ z, becomesThen (.pauOpDone u j false) s z ∧ (x.desc = 0 → s.keeps z [.eng] ∧ (z.ctx k).state = .fault
              ∧ mget z.eng.faults (32 + u.val) 0 = satInc (mget s.eng.faults (32 + u.val) 0))
            ∧ (x.desc ≠ 0 → z.desc (x.desc - 1) = none))

/-! ### Withy links and the mesh (14 R329 to R356) -/

/-- A port that can train comes up with its lanes and starts its exchange; a link that goes down loses its keys, sequences, credits
and exchange and trains again. A flit counts on the receiving direction; its tag and SEQ decide whether it is accepted; the eighth
tag failure in a row takes the link down. An exchange that failed is started again (14 R332 to R337). -/
def Obligations.LinksRun : Prop :=
  ∀ (s : State) (p : Fin 4),
    let x := s.port p.val
    let only := fun (c : Instr) (y : Port) =>
      ∃ t, exec c s = .next t ∧ s.keeps t [.mesh] ∧ t.port p.val = y ∧ ∀ q, q ≠ p.val → t.port q = s.port q
    let down : Port := { enable := x.enable, lateReplies := x.lateReplies, retries := x.retries, training := s.trains p.val }
    let falls := fun (c : Instr) => ∃ t, exec c s = .next t ∧ s.keeps t [.mesh] ∧ t.port p.val = down ∧ t.shakeOf p.val = {}
    let still := fun (c : Instr) => ∃ t, exec c s = .next t ∧ s.sameBut t
    let starts := fun (c : Instr) (u : State) =>
      (∀ v, u.wardenWork (fun o => random o 96) = (none, v) →
        ∃ t, exec c s = .next t ∧ t.port p.val = u.port p.val ∧ t.shakeOf p.val = { st := .failed })
      ∧ ∀ b v, u.wardenWork (fun o => random o 96) = (some b, v) →
          let m := v.ownHello p.val (b.take 64) (b.drop 64)
          ∃ t, exec c s = .next t ∧ v.keeps t [.mesh] ∧ t.mesh.ports = v.mesh.ports
            ∧ t.shakeOf p.val = { st := .sent, seed := b.take 64, mine := m }
            ∧ t.mesh.sent = v.mesh.sent ++ [{ port := p.val, src := v.ownId, dst := 8, type := 0x50, body := m }]
    (x.up = true → falls (.linkDown p)) ∧ (x.up = false → still (.linkDown p))
    ∧ (s.trains p.val = true → falls (.retrain p)) ∧ (s.trains p.val = false → still (.retrain p))
    ∧ (s.trains p.val = true → x.up = false → only (.trainTimeout p) { x with training := true, lanes := 0 })
    ∧ (s.trains p.val = false ∨ x.up = true → still (.trainTimeout p))
    ∧ (∀ l : Fin 5, (s.trains p.val = false ∨ x.up = true ∨ l.val ∉ [1, 2, 4] → still (.linkTrain p l))
        ∧ (s.trains p.val = true → x.up = false → l.val ∈ [1, 2, 4] →
            let y : Port := { x with up := true, training := false, lanes := l.val }
            (s.meshed = false → only (.linkTrain p l) y) ∧ (s.meshed = true → starts (.linkTrain p l) (s.setPort p.val y))))
    ∧ (s.meshed = false ∨ x.up = false ∨ (x.attested = false ∧ (s.shakeOf p.val).st ≠ .failed) → still (.attestRetry p))
    ∧ (s.meshed = true → x.up = true → x.attested = false → (s.shakeOf p.val).st = .failed → starts (.attestRetry p) s)
    ∧ (s.meshed = true → x.up = true → x.attested = true → becomes (.attestRetry p) s s.pairFar)
    ∧ ∀ f : Bytes, f.length = 64 →
        let c := Instr.flitReceive p f
        let crcOk := (crc64 (f.take 56)).toNat = leAt f 0x38 8
        let known := leAt f 8 1 ∈ [0x50, 0x51, 0x52]
        (x.up = false → still c)
        ∧ (x.up = true → flitClass f = 5 → ¬crcOk ∨ flitSom f = false ∨ known → still c)
        ∧ (x.up = true → flitClass f = 5 → crcOk → flitSom f = true → ¬known →
            ∃ t, exec c s = .next t ∧ s.keeps t [.mesh] ∧ t.mesh = { s.mesh with unknownMsgs := satInc s.mesh.unknownMsgs })
        ∧ (x.up = true → flitClass f ≠ 5 → x.rxKey = none → still c)
        ∧ ∀ key, x.up = true → flitClass f ≠ 5 → x.rxKey = some key →
            let y : Port := { x with rxCtr := x.rxCtr + 1,
                                     rxKey := if (x.rxCtr.toNat + 1) % 2 ^ 31 = 0 then some (rekeyed key) else some key }
            let passes := flitClass f ≤ 4 ∧ flitTagOk key (s.flitNonce p.val) f = true
            (passes → flitClass f = 0 → only c (({ y with tagFails := 0 } : Port).control f))
            ∧ (passes → flitClass f ≠ 0 → flitSeq f = x.rxSeq + 1 →
                only c (({ y with tagFails := 0, rxSeq := flitSeq f, acked := flitSeq f, nak := false } : Port).control f))
            ∧ (passes → flitClass f ≠ 0 → flitSeq f ≠ x.rxSeq + 1 → only c { y with tagFails := 0, nak := true })
            ∧ (¬passes → x.tagFails < 7 → only c { y with tagFails := x.tagFails + 1, nak := true })
            ∧ (¬passes → 7 ≤ x.tagFails → falls c)

/-- A HELLO fails the exchange unless every check of step 2 holds, and is answered with a ciphertext and signature; a KEM whose
signature verifies gives both directions their keys and sends FINISH as the first flit under them; a FINISH that passes its tag
makes the port ATTESTED and its pair key stand, and a member whose heartbeat has come is in the map. A failure is counted and leaves the port up (14 R337, R338). -/
def Obligations.MeshAttests : Prop :=
  ∀ (s : State) (p : Fin 4),
    let still := fun (c : Instr) => ∃ t, exec c s = .next t ∧ s.sameBut t
    let fails := fun (c : Instr) (u : State) (k : Nat) =>
      ∃ t, exec c s = .next t ∧ u.keeps t [.mesh] ∧ t.shakeOf k = { st := .failed } ∧ t.mesh.attestFails = satInc u.mesh.attestFails
        ∧ t.mesh.ports = u.mesh.ports ∧ t.mesh.pairKeys = u.mesh.pairKeys
    (∀ h : Hello,
      let c := Instr.hello p h
      let k := s.shakeKey p.val h.meshId.val
      let u := if (s.shakeOf k).st = .sent then s else s.startShake k
      let x := u.shakeOf k
      let digest := fun ct => shakeDigest u.ownId h.meshId.val x.mine (Hello.wire h) ct
      let answer := fun o : Opnd => (do
        let rnd ← random o 32
        let ct := Config.take 1088 (Config.mlkemEncapCt h.encapKey rnd)
        let sig ← identitySign o shakeContext (digest ct)
        pure (rnd, ct, sig) : V (Bytes × Bytes × Bytes))
      (s.meshed = false ∨ (s.port p.val).up = false → still c)
      ∧ (s.meshed = true → (s.port p.val).up = true →
        (x.st ≠ .sent → becomes c s u)
        ∧ (x.st = .sent → u.helloOk k h = false → fails c u k)
        ∧ (∀ r, u.mesh.roster = some r →
            (u.helloOk k h = true ↔
              Config.mldsaVerify (Config.label 3) (Config.label 2) (h.endorsement.take 64 ++ h.idKey) (h.endorsement.drop 64) = true
              ∧ (∃ m ∈ r.members, m.meshId = h.meshId.val ∧ m.serial = h.serial ∧ m.idDigest = shake 32 h.idKey ∧ m.meshId ≠ u.ownId)
              ∧ h.rosterDigest = u.rosterDigest ∧ h.ownerDigest = u.ownerDigest ∧ (h.lifecycle = 2 ∨ h.lifecycle = 3)
              ∧ r.minFw.toNat ≤ h.version.toNat ∧ (k < 4 → r.partner r.position k = some (h.position.val, h.port.val))))
        ∧ (x.st = .sent → u.helloOk k h = true → ∀ v, u.wardenWork answer = (none, v) → fails c u k)
        ∧ ∀ rnd ct sig v, x.st = .sent → u.helloOk k h = true → u.wardenWork answer = (some (rnd, ct, sig), v) →
            ∃ t, exec c s = .next t ∧ v.keeps t [.mesh]
              ∧ t.shakeOf k = { x with st := .helloOk, theirs := (Hello.wire h), peer := h.meshId.val, idKey := h.idKey, ct := ct,
                                       secret := Config.take 32 (Config.mlkemEncapSs h.encapKey rnd) }
              ∧ (k < 4 → t.mesh.ports = v.mesh.ports
                  ∧ t.mesh.sent = v.mesh.sent ++ [{ port := k, src := v.ownId, dst := 8, type := 0x51, body := ct ++ sig }])))
    ∧ (∀ ct sig : Bytes,
      let c := Instr.kem p ct sig
      let x := s.shakeOf p.val
      let digest := shakeDigest s.ownId x.peer x.mine x.theirs ct
      let good := Config.mldsaVerify x.idKey shakeContext digest sig = true ∧ ct.length = 1088
      let keys := shakeKeys s.ownId x.peer x.secret (Config.take 32 (Config.mlkemDecap x.seed ct))
        (shakeDigest s.ownId x.peer x.mine x.theirs x.ct) digest
      ((s.port p.val).attested = false → x.st ≠ .helloOk → still c)
      ∧ ((s.port p.val).attested = false → x.st = .helloOk → ¬good → fails c s p.val)
      ∧ ((s.port p.val).attested = false → x.st = .helloOk → good →
          ∃ t, exec c s = .next t ∧ s.keeps t [.mesh]
            ∧ t.shakeOf p.val = { x with st := .keyed, keys := keys, seed := [], secret := [] }
            ∧ (t.port p.val).txKey = some (if s.ownId < x.peer then keys.take 32 else slice keys 32 32)
            ∧ (t.port p.val).rxKey = some (if s.ownId < x.peer then slice keys 32 32 else keys.take 32)
            ∧ (t.port p.val).rxCtr = 0 ∧ (t.port p.val).txCtr = 1 ∧ (t.port p.val).replay = [1] ∧ (t.port p.val).attested = false
            ∧ (∀ q, q ≠ p.val → t.port q = s.port q) ∧ t.mesh.attestFails = s.mesh.attestFails
            ∧ t.mesh.sent = s.mesh.sent ++ [{ port := p.val, src := s.ownId, dst := 8, type := 0x52, body := [] }])
      ∧ (∀ k, (s.port p.val).attested = true → s.kemOwner ct sig = some k → becomes c s (s.takeKem k ct sig))
      ∧ ((s.port p.val).attested = true → s.kemOwner ct sig = none →
          ∃ t, exec c s = .next t ∧ s.keeps t [.mesh] ∧ t.mesh.ports = s.mesh.ports
            ∧ ∀ i < 8, t.shakeOf (8 + i) = if (s.shakeOf (8 + i)).st = .helloOk then { st := .failed } else s.shakeOf (8 + i)))
    ∧ ∀ f : Bytes,
      let c := Instr.finish p f
      let paired := fun (t u : State) (k : Nat) => t.keeps u [.mesh] ∧ u.mesh.ports = t.mesh.ports
        ∧ u.shakeOf k = { st := .done, peer := (t.shakeOf k).peer }
        ∧ mget u.mesh.pairKeys (t.shakeOf k).peer [] = slice (t.shakeOf k).keys 64 32 ∧ mget u.mesh.pairCtr (t.shakeOf k).peer 0 = 0
      let met := fun (t u : State) (i : Nat) => if mhas t.mesh.beats i then u.setMember i true else u
      (∀ t, s.rxFlit p.val f = (t, none) → becomes c s t)
      ∧ ∀ t b, s.rxFlit p.val f = (t, some b) →
          let y := t.port p.val
          let x := t.shakeOf p.val
          (flitClass f ≠ 4 ∨ leAt b 0 1 ≠ 0x52 → becomes c s t)
          ∧ (flitClass f = 4 → leAt b 0 1 = 0x52 → y.attested = false → x.st ≠ .keyed → becomes c s t)
          ∧ (flitClass f = 4 → leAt b 0 1 = 0x52 → y.attested = false → x.st = .keyed →
              ∃ u : State, paired t u p.val
                ∧ becomes c s ((met t u x.peer).setPort p.val { y with attested := true, peerId := x.peer }).pairFar)
          ∧ (flitClass f = 4 → leAt b 0 1 = 0x52 → y.attested = true →
              let k := 8 + bits (leAt b 1 1) 0 3
              ((t.shakeOf k).st ≠ .keyed → becomes c s t)
              ∧ ((t.shakeOf k).st = .keyed → ∃ u : State, paired t u k ∧ becomes c s (met t u (t.shakeOf k).peer)))

/-- A message that reaches this device for another goes on with one more hop, and one it does not hear changes nothing. At the
home a FWD is held and answered with ACCEPT, refused, or left waiting; FWD_DATA that fits goes to the receive area. At the origin
a reply that fits no live request is counted; the others end or go on with the request they name (14 R336, R350 to R354). -/
def Obligations.MeshForwards : Prop :=
  ∀ (s : State) (m : Msg),
    let goes := fun (c : Instr × Nat × Bool) (x : State) => if c.2.2 then becomesThen c.1 s x else becomes c.1 s x
    let all : List (Instr × Nat × Bool) := [(.fwd m, 0x10, true), (.accept m, 0x20, false), (.result m, 0x21, true),
      (.refuse m, 0x22, true), (.fwdMore m, 0x43, false), (.fwdData m, 0x23, true), (.txn m, 0x30, true), (.txnAck m, 0x31, false),
      (.txnDone m, 0x32, true), (.resync m, 0x33, false), (.heartbeat m, 0x40, true), (.timeSync m, 0x41, false),
      (.recipeSync m, 0x42, false)]
    let port := s.port m.port.val
    (∀ c ∈ all, s.meshed = false ∨ s.tam.felledState = true ∨ s.mesh.stale = true ∨ (m.src.val = s.ownId ∧ m.dst.val ≠ s.ownId)
        ∨ (m.src.val ≠ s.ownId ∧ port.attested = false) → goes c s)
    ∧ (∀ c ∈ all, s.meshed = true → s.tam.felledState = false → s.mesh.stale = false → m.src.val ≠ s.ownId → port.attested = true →
        m.dst.val ≠ s.ownId →
        goes c (s.emit { port := m.port.val, src := m.src.val, dst := m.dst.val, type := c.2.1, tag := m.tag.toNat, attempt := m.attempt.toNat,
                         part := m.part.val, hops := m.hops.val + 1, aux := m.aux.toNat, body := m.body }))
    ∧ (s.hears m →
      let held := s.mesh.held.find? fun h => h.is m.src.val m.tag.toNat
      let step := fwdStep m.body
      let r : DRec := { id := s.disp.nextId, fn := m.part.val, ring := meshRing + m.src.val, idx := BitVec.ofNat 32 m.tag.toNat,
                        bytes := fit 64 (m.body.take 64), image := step, stage := .inbox }
      let inp := m.body.drop (64 + step.length)
      let h : Held := { src := m.src.val, tag := m.tag, attempt := m.attempt, part := m.part.val, body := inp, got := inp.length,
                        asked := inp.length, port := m.port.val }
      let accepts := fun (u : State) (a : Word16) =>
        becomesThen (.fwd m) s (u.send m.src.val 0x20 m.tag.toNat m.attempt.toNat a.toNat [] m.part.val)
      (∀ g, held = some g → accepts s g.attempt)
      ∧ (held = none → s.life.st ≠ .operational ∨ s.vault.ready = false ∨ s.mesh.resyncing = true →
          becomesThen (.fwd m) s (s.send m.src.val 0x22 m.tag.toNat m.attempt.toNat 2 [] m.part.val))
      ∧ (held = none → s.life.st = .operational → s.vault.ready = true → s.mesh.resyncing = false →
          (r.takesRandom = true → s.ent.ready = false →
            becomesThen (.fwd m) s (s.send m.src.val 0x22 m.tag.toNat m.attempt.toNat 1 [] m.part.val))
          ∧ (r.takesRandom = false ∨ s.ent.ready = true →
              (512 ≤ s.fwdQueue → ∃ x, becomesThen (.fwd m) s x ∧ s.keeps x [.mesh] ∧ x.mesh = { s.mesh with waitFwd := s.mesh.waitFwd ++ [m] })
              ∧ (s.fwdQueue < 512 → ∃ u : State, accepts u m.attempt ∧ s.keeps u [.disp, .mesh]
                  ∧ u.disp = { s.disp with nextId := r.id + 1, descs := s.disp.descs ++ [r], inbox := s.disp.inbox ++ [r.id] }
                  ∧ u.mesh = { s.mesh with held := s.mesh.held ++ [h] }))))
    ∧ (s.hears m →
      let data := m.body.drop 8
      let held := s.mesh.held.find? fun h => h.is m.src.val m.tag.toNat && h.attempt == m.attempt
      (held = none → becomesThen (.fwdData m) s s) ∧ (∀ h, held = some h → s.heldDesc h = none → becomesThen (.fwdData m) s s)
      ∧ ∀ h r, held = some h → s.heldDesc h = some r →
          (leAt m.body 0 8 ≠ h.got ∨ r.inLen < h.got + data.length → becomesThen (.fwdData m) s s)
          ∧ (leAt m.body 0 8 = h.got → h.got + data.length ≤ r.inLen →
              (∀ u, s.receive r.core m.port.val h.got data r.fn = (u, false) → becomesThen (.fwdData m) s (u.refuseHeld h 3))
              ∧ ∀ u, s.receive r.core m.port.val h.got data r.fn = (u, true) →
                  let g := { h with body := h.body ++ data, got := h.got + data.length }
                  becomesThen (.fwdData m) s ((u.setHeld g).askMore g r.inLen).1))
    ∧ (s.hears m →
      let replies : List (Instr × Nat × Bool) := [(.accept m, 0x20, false), (.result m, 0x21, true), (.refuse m, 0x22, true), (.fwdMore m, 0x43, false)]
      (s.replyTo m = none → ∀ c ∈ replies, ∃ x, goes c x ∧ s.keeps x [.mesh]
        ∧ x.port m.port.val = { port with lateReplies := satInc port.lateReplies } ∧ x.mesh.fwds = s.mesh.fwds)
      ∧ ∀ f, s.replyTo m = some f →
          let gone := s.mesh.fwds.filter fun g => g.dst != f.dst || g.tag != f.tag
          (∃ x, becomes (.accept m) s x ∧ s.keeps x [.mesh]
            ∧ x.mesh.fwds = s.mesh.fwds.map fun g =>
                if g.dst = f.dst ∧ g.tag = f.tag then { f with accepted := true, attempt := BitVec.ofNat 16 m.aux.toNat } else g)
          ∧ (∀ r, s.desc f.desc = some r → r.run = none →
              let fl := setFlag (BitVec.ofNat 15 (leAt m.body 2 2)) cfForwarded
              ∃ u : State, s.keeps u [.mesh] ∧ u.mesh = { s.mesh with fwds := gone }
                ∧ (let v := u.modDesc r.id fun q => { q with flags := q.flags ||| fl }
                   let st := BitVec.ofNat 16 (leAt m.body 0 2)
                   let out := slice m.body 16 (leAt m.body 4 4)
                   (succeeded st = true → becomesThen (.result m) s (v.complete r.id st out (slice m.body 8 8)))
                   ∧ (succeeded st = false → becomesThen (.result m) s ((v.putOut r out).finish r.id st))))
          ∧ (∀ r run, s.desc f.desc = some r → r.run = some run →
              let fl := setFlag (BitVec.ofNat 15 (leAt m.body 2 2)) cfForwarded
              ∃ u : State, s.keeps u [.mesh] ∧ u.mesh = { s.mesh with fwds := gone }
                ∧ becomesThen (.result m) s ((if bit (leAt m.body 2 2) 15 then u.noteCounter f else u).stepResult r.id (BitVec.ofNat 16 (leAt m.body 0 2)) fl (slice m.body 8 8)
                    (slice m.body 16 (leAt m.body 4 4))))
          ∧ (let v : State := { s with mesh := { s.mesh with beats := mset s.mesh.beats f.dst { mget s.mesh.beats f.dst {} with entReady := false } } }
             (m.aux.toNat ≠ 1 ∨ s.ent.fail = false ∨ v.randomHome = [] →
                ∃ u : State, s.keeps u [.mesh] ∧ u.mesh = { s.mesh with fwds := gone } ∧ becomesThen (.refuse m) s (u.endWith f.desc stMesh))
             ∧ (m.aux.toNat = 1 → s.ent.fail = true → v.randomHome ≠ [] →
                ∃ u : State, s.keeps u [.mesh] ∧ u.mesh = { v.mesh with fwds := gone }
                  ∧ (f.step = none → becomesThen (.refuse m) s (u.unwait f.desc))
                  ∧ ∀ run inp, f.step = some (run, inp) → becomesThen (.refuse m) s ((u.saveRun f.desc run).unwait f.desc)))
          ∧ (let off := leAt m.body 0 8
             let data := slice (s.fwdInput f) off 4096
             ∃ u : State, s.keeps u [.mesh]
               ∧ u.mesh.fwds = (s.mesh.fwds.map fun g => if g.dst = f.dst ∧ g.tag = f.tag then { f with sent := max f.sent (off + data.length) } else g)
               ∧ becomes (.fwdMore m) s (u.send f.dst 0x23 f.tag f.attempt.toNat 0 (toLE 8 off ++ data) f.part)))

/-- The coordinator refuses an origin's transaction with TXN_DONE or gives it the next RSEQ, records it and sends it to every member;
a member acknowledges one it has applied already. The last TXN_ACK sends TXN_DONE. RESYNC is answered from the journal with the
recipe store, or not at all; heartbeats set and MEMBER_DEAD clears MEMBER_MAP's bits; TIME_SYNC stamps at the coordinator and
corrects the trim elsewhere; what comes as a KEY message from a member without a pair key changes nothing (14 R338, R343 to R346, R355,
R356; notes/assumptions/38.md). -/
def Obligations.MeshAgrees : Prop :=
  ∀ s : State,
    (∀ m : Msg, s.hears m → m.src.val ≠ s.ownId → mhas s.mesh.pairKeys m.src.val = false →
      becomesThen (.txn m) s s ∧ becomes (.txnAck m) s s ∧ becomesThen (.txnDone m) s s ∧ becomes (.resync m) s s)
    ∧ (∀ m : Msg, s.hears m → m.src.val = s.ownId ∨ mhas s.mesh.pairKeys m.src.val = true →
      let n := txnRseq m.body
      let i := m.src.val
      let done := fun (st : Word16) (u : State) => becomesThen (.txn m) s (u.send i 0x32 m.tag.toNat m.attempt.toNat 0 (toLE 2 st.toNat))
      let leads := s.coordinator = s.ownId ∧ s.quorum = true ∧ s.mesh.resyncing = false
      let known := s.mesh.journal.find? fun t => t.origin == i && t.tag == m.tag && t.attempt == m.attempt
        && txnKind t.body == txnKind m.body && (txnPay m.body).isPrefixOf (txnPay t.body)
      (n ≠ 0 → n ≤ s.mesh.rseq → becomesThen (.txn m) s (s.send s.coordinator 0x31 0 0 n (toLE 2 0)))
      ∧ (s.mesh.rseq < n → ∃ u : State, s.keeps u [.mesh] ∧ (∃ t ∈ u.mesh.journal, t.rseq = n)
          ∧ becomesThen (.txn m) s (u.txnPump (u.mesh.journal.length + 1)))
      ∧ (n = 0 → txnKind m.body = 4 → i ≠ s.coordinatorBut s.ownId → becomesThen (.txn m) s s)
      ∧ (n = 0 → txnKind m.body = 4 → i = s.coordinatorBut s.ownId →
          ∃ x, becomesThen (.txn m) s x ∧ s.keeps x [.mesh] ∧ x.mesh.mrk = some (txnPay m.body)
            ∧ x.mesh.sealedMrk = s.tam.storageKey.map fun q => (q, txnPay m.body))
      ∧ (n = 0 → txnKind m.body ≠ 4 → ¬leads → becomesThen (.txn m) s s)
      ∧ (∀ t, n = 0 → txnKind m.body ≠ 4 → leads → known = some t →
          (t.done = false → becomesThen (.txn m) s s)
          ∧ (t.done = true → becomesThen (.txn m) s (s.send i 0x32 m.tag.toNat m.attempt.toNat t.rseq (toLE 2 stDone.toNat))))
      ∧ (n = 0 → txnKind m.body ≠ 4 → leads → known = none →
          (∀ st, s.txnRefusal m.body m.attempt = some st → done st s)
          ∧ (s.txnRefusal m.body m.attempt = none → (s.txnKey m.body).1 = none → done (if s.ent.fail then stEntFailed else stEntNotReady) s)
          ∧ (txnKind m.body ≠ 3 → s.txnKey m.body = (some [], s))
          ∧ ∀ k v, s.txnRefusal m.body m.attempt = none → s.txnKey m.body = (some k, v) →
              let everyone := v.ownId :: v.peers
              let t : Txn := { rseq := v.lastRseq + 1, origin := i, tag := m.tag, attempt := m.attempt,
                               body := txnBody (v.lastRseq + 1) (txnKind m.body + 16 * i) (txnPay m.body), waiting := everyone }
              ∃ u : State, v.keeps u [.mesh] ∧ u.mesh.rseq = v.mesh.rseq ∧ t ∈ u.mesh.journal
                ∧ (k ≠ [] → mget u.mesh.unitKeys t.rseq [] = k)
                ∧ becomesThen (.txn m) s (everyone.foldl (fun (w : State) i => w.sendTxn i t) u))
      ∧ (∃ u : State, becomes (.txnAck m) s (u.txnFinished m.aux.toNat) ∧ s.keeps u [.mesh]
          ∧ u.mesh = { s.mesh with journal := s.mesh.journal.map fun x =>
              if x.rseq = m.aux.toNat then { x with waiting := x.waiting.filter (· != i) } else x })
      ∧ (∃ u : State, s.keeps u [.mesh]
          ∧ u.mesh = { s.mesh with journal := s.mesh.journal.map fun t => if t.rseq = m.aux.toNat then { t with done := true } else t }
          ∧ (s.txnOf m.tag.toNat = none → becomesThen (.txnDone m) s u)
          ∧ ∀ r x, s.txnOf m.tag.toNat = some (r, x) →
              ∃ v : State, u.keeps v [.mesh] ∧ v.mesh = { u.mesh with asked := mdel s.mesh.asked r.id }
                ∧ (let st := BitVec.ofNat 16 (leAt m.body 0 2)
                   let alone := r.run = none ∧ succeeded st = true
                   (r.run = none → succeeded st = false → becomesThen (.txnDone m) s (v.endWith r.id st))
                   ∧ (alone → r.durable = false → becomesThen (.txnDone m) s (v.complete r.id x.status x.out x.inl))
                   ∧ (alone → r.durable = true → s.vault.pgFault = false →
                       becomesThen (.txnDone m) s (v.modDesc r.id fun q => { q with stage := .waitDurable x }))
                   ∧ (alone → r.durable = true → s.vault.pgFault = true → becomesThen (.txnDone m) s (v.finish r.id stPageTimeout))
                   ∧ (r.run.isSome = true → becomesThen (.txnDone m) s
                       (v.stepResult r.id (if succeeded st then flaggedStatus stDone x.flags else st) x.flags x.inl x.out))))
      ∧ (let k := leAt m.body 0 8
         let reaches := s.lastRseq ≤ k ∨ ∃ t ∈ s.mesh.journal, t.rseq = k + 1
         (s.coordinatorBut i ≠ s.ownId ∨ s.mesh.resyncing = true ∨ ¬reaches → becomes (.resync m) s s)
         ∧ (s.coordinatorBut i = s.ownId → s.mesh.resyncing = false → reaches → ∃ u : State, s.keeps u [.mesh]
             ∧ u = (s.mesh.journal.filter fun t => decide (k < t.rseq)).foldl (fun (v : State) t => v.sendTxn i t) (s.sendMrk i)
             ∧ becomes (.resync m) s (u.send i 0x42 0 0 s.lastRseq s.recipeBody))))
    ∧ (∀ m : Msg, s.hears m →
      let i := m.src.val
      ((s.mesh.resyncing = false → becomes (.recipeSync m) s s)
         ∧ (s.mesh.resyncing = true → ∃ x, becomes (.recipeSync m) s x ∧ s.keeps x [.mesh, .life]
             ∧ x.life.recipes = recipesIn 128 (m.body.drop (2 + 8 * leAt m.body 0 2))
             ∧ (m.aux.toNat ≤ s.mesh.rseq → x.mesh.resyncing = false)
             ∧ (s.mesh.rseq < m.aux.toNat → x.mesh.resyncing = true ∧ x.mesh.resyncTo = some m.aux.toNat)))
      ∧ (let b := m.body
         let beat : Beat := { fresh := true, lifecycle := BitVec.ofNat 4 (leAt b 0 1), entReady := bit (leAt b 1 1) 0,
                              vaultReady := bit (leAt b 1 1) 1, queued := leAt b 2 2, map := byteAt b 4 }
         let u : State := { s with mesh := { s.mesh with beats := mset s.mesh.beats i beat } }
         (mhas s.mesh.pairKeys i = false → becomesThen (.heartbeat m) s u)
         ∧ (mhas s.mesh.pairKeys i = true → becomesThen (.heartbeat m) s ((u.setMember i true).countBeat i).drawMrk))
      ∧ (s.coordinator = s.ownId →
          let now := toLE 8 s.time.counter.toNat
          becomes (.timeSync m) s (s.send i 0x41 0 0 0 (m.body.take 8 ++ now ++ now ++ zeros 8)))
      ∧ (s.coordinator ≠ s.ownId → i ≠ s.coordinator ∨ s.time.lock = true → becomes (.timeSync m) s s)
      ∧ (s.coordinator ≠ s.ownId → i = s.coordinator → s.time.lock = false →
          let t := fun j => (leAt m.body (8 * j) 8 : Int)
          ∃ x, becomes (.timeSync m) s x ∧ s.keeps x [.time]
            ∧ x.time = { s.time with trim := trimFor s.time.lastF.toInt (((t 1 - t 0) - ((s.time.counter.toNat : Int) - t 2)) / 2) }))
    ∧ (s.meshed = false ∨ s.tam.felledState = true → becomes .heartbeatSend s s ∧ becomes .timeSyncSend s s)
    ∧ (s.meshed = true → s.tam.felledState = false →
        (∃ x, becomes .heartbeatSend s x ∧ s.keeps x [.mesh] ∧ x.mesh.roster = s.mesh.roster ∧ x.mesh.fwds = s.mesh.fwds
          ∧ ∀ i, (∃ m ∈ s.members, m.meshId = i) → i ≠ s.ownId → (∃ p, s.route i 0 = some p) →
              ∃ q ∈ x.mesh.sent, q.src = s.ownId ∧ q.dst = i ∧ q.type = 0x40 ∧ q.body = s.beatBody)
        ∧ (s.time.lock = true ∨ s.coordinator = s.ownId → becomes .timeSyncSend s s)
        ∧ (s.time.lock = false → s.coordinator ≠ s.ownId →
            becomes .timeSyncSend s (s.send s.coordinator 0x41 0 0 0 (toLE 8 s.time.counter.toNat ++ zeros 24))))
    ∧ ∀ i : Fin 8,
        (s.meshed = false ∨ i.val = s.ownId → becomes (.memberDead i) s s)
        ∧ (s.meshed = true → i.val ≠ s.ownId →
            let u := (s.mesh.fwds.filter fun f => f.dst == i.val).foldl State.unreachable
              { s with mesh := { s.mesh with
                pairKeys := mdel s.mesh.pairKeys i.val, hs := mdel s.mesh.hs (8 + i.val), beats := mdel s.mesh.beats i.val
                waitFwd := s.mesh.waitFwd.filter fun m => m.src.val != i.val } }
            let v := (u.mesh.journal.filter fun t => t.waiting.contains i.val).foldl (fun (v : State) t => v.txnAnswered t.rseq i.val) u
            becomesThen (.memberDead i) s (if v.mesh.memberMap.getLsbD i.val then v.setMember i.val false else v))

/-! ### Tokens (16 R383 to R389) -/

/-- TOKEN_DATA appends a word and TOKEN_CMD 2 empties the buffer. A refused token has the status of the first failed condition and is
counted; whatever comes of it the buffer is empty, DEV_NONCE is renewed and TOKEN_RESULT is written. OPEN_SESSION fells the device,
ENROL writes the owner and the roster, RECOVER erases them and resets (16 R384, R386, R388, R389; notes/assumptions/39.md). -/
def Obligations.TokensApply : Prop :=
  ∀ s : State,
    let dbg : State := { s with life := { s.life with dbgEn := true } }
    let b := s.life.token
    let applied := fun (c : Instr) =>
      ∀ st, dbg.tokenRefusal b = some st → ∃ t, exec c s = .next t ∧ s.keeps t [.life, .ent] ∧ t.life.token = [] ∧ t.life.tokenResult = st
        ∧ (st ≠ stDone → t.life.tokenFails = satInc s.life.tokenFails) ∧ t.life.st = s.life.st ∧ t.life.session = s.life.session
        ∧ (s.ent.ready = true → ∀ v n, dbg.wardenCalls 2 = some (v, n) → t.life.devNonce = n ∧ t.ent = v.ent)
        ∧ (s.ent.ready = true → dbg.wardenCalls 2 = none → t.life.devNonce = [] ∧ t.ent = s.ent)
        ∧ (s.ent.ready = false → t.life.devNonce = s.life.devNonce ∧ t.ent = s.ent)
    let still := fun (c : Instr) => ∃ t, exec c s = .next t ∧ s.sameBut t
    (∀ w : Word32, ∃ t, exec (.tokenData w) s = .next t ∧ s.keeps t [.life] ∧ t.life.dbgEn = true
      ∧ t.life.token = if b.length + 4 ≤ 16384 then b ++ toLE 4 w.toNat else b)
    ∧ (∃ t, exec .tokenEmpty s = .next t ∧ s.keeps t [.life] ∧ t.life.token = [] ∧ t.life.dbgEn = true)
    ∧ (s.ent.ready = false → dbg.tokenRefusal b = some stEntNotReady)
    ∧ (s.ent.ready = true → s.tokFormOk b = false → dbg.tokenRefusal b = some stBad)
    ∧ (s.ent.ready = true → s.tokFormOk b = true → s.tokBound b = false ∨ s.tokSigned b = false → dbg.tokenRefusal b = some stAuth)
    ∧ (s.ent.ready = true → s.tokFormOk b = true → s.tokBound b = true → s.tokSigned b = true → s.tokAllowed b = false →
        dbg.tokenRefusal b = some stAccess)
    ∧ (tokKind b ≠ 2 → tokKind b ≠ 3 → applied .openSession) ∧ (tokKind b = 2 → applied .enrol) ∧ (tokKind b = 3 → applied .recover)
    ∧ (tokKind b = 2 ∨ tokKind b = 3 → still .openSession) ∧ (tokKind b ≠ 2 → still .enrol) ∧ (tokKind b ≠ 3 → still .recover)
    ∧ (dbg.tokenRefusal b = none →
        (tokKind b = 1 → ∃ u : State, s.keeps u [.life, .ent] ∧ u.life.token = [] ∧ u.life.tokenResult = stDone
          ∧ (∀ v n, dbg.wardenCalls 2 = some (v, n) → u.life.devNonce = n ∧ u.ent = v.ent) ∧ u.life.tokenFails = s.life.tokenFails
          ∧ ∃ t, exec .openSession s = .next t ∧ t.life.session = true ∧ t.tam = u.debugFell.tam ∧ t.kr = u.debugFell.kr)
        ∧ (tokKind b = 2 → ∀ k v, dbg.wardenWork (fun o => random o 32) = (some k, v) →
            ∃ t, exec .enrol s = .next t ∧ t.vault.rootSlots = [] ∧ t.vault.ready = false ∧ t.vault.started = false
              ∧ t.tam.storageKey = some k ∧ t.tam.canary = .valid
              ∧ t.mesh.roster = some (rosterOf ((tokBody b).drop 1952)) ∧ t.mesh.slotHome = [] ∧ t.mesh.rseq = 0
              ∧ t.life.ownerKey = some ((tokBody b).take 1952) ∧ t.life.cmdSeq = 0 ∧ t.life.recipes = []
              ∧ t.life.rversions = v.life.rversions ∧ t.life.token = [] ∧ t.life.tokenResult = stDone
              ∧ t.life.st = if v.life.st = .blank then .owned else v.life.st)
        ∧ (tokKind b = 2 → ∀ v, dbg.wardenWork (fun o => random o 32) = (none, v) →
            ∃ t, exec .enrol s = .next t ∧ t.life.tokenResult = stEntNotReady ∧ t.life.token = [] ∧ t.life.ownerKey = s.life.ownerKey)
        ∧ (tokKind b = 3 → ∃ u : State, becomes .recover s u.warm ∧ s.keeps u [.life, .ent, .vault, .tam, .mesh, .pwr]
            ∧ u.vault.rootSlots = [] ∧ u.tam = { s.tam with storageKey := none, canary := .emptied, filters := [] }
            ∧ u.mesh.roster = none ∧ u.mesh.slotHome = [] ∧ u.mesh.sealedMrk = none ∧ u.mesh.mrk = none ∧ u.mesh.unitKeys = []
            ∧ u.pwr = { s.pwr with stored := [] } ∧ u.life.ownerKey = none ∧ u.life.recipes = [] ∧ u.life.rversions = s.life.rversions ∧ u.life.st = .blank
            ∧ u.life.imageA = s.life.imageA ∧ u.life.imageB = s.life.imageB ∧ u.life.svnFloor = s.life.svnFloor
            ∧ u.life.token = [] ∧ u.life.tokenResult = stDone))
    ∧ (s.life.session = false → ∃ t, exec .debugSessionEnd s = .next t ∧ s.keeps t [.life]
        ∧ t.life = { s.life with dbgEn := false, newItems := t.life.newItems })
    ∧ (s.life.session = true → becomes .debugSessionEnd s ({ s with life := { s.life with dbgEn := false } } : State).warm)

/-! ### What the verbs compute (04 R97 to R121; 07 R198 to R204) -/

/-- With its key fetched and its engines serving, MAC_GENERATE puts out the leftmost TLEN bytes of the MAC and MAC_VERIFY compares them
(04 R106, R108); the generic verbs put out ECB, CBC or CTR of whole blocks (04 R119; 07 R198); GCM encryption uses the next nonce of
its slot, and decryption fails AUTH_FAILED on another tag, after its plaintext was streamed (07 R204). A GCM fetch counts its slot's
nonce up by one and takes the value it had (03 R74). Work on an engine that fails its release check is ENGINE_FAULT, with a part of
the output written at most (07 R195). -/
def Obligations.CiphersCompute : Prop :=
  ∀ (o : Opnd) (s u t : State) (i : Nat) (x : Slot),
    let n := algBlock (u.slot i).alg.toNat
    let iv := o.inl.take (algBlock x.alg.toNat)
    let whole := (genMode o = 2 ∨ o.inLen % n = 0) ∧ (n = 16 ∨ ∀ b ∈ o.inl.drop 8, b = 0)
    let mode := fun (ecb cbc : Bytes) => if genMode o = 0 then ecb else if genMode o = 1 then cbc else ctrMode x.alg.toNat x.key iv o.inp
    let ciphered := mode (ecbEnc x.alg.toNat x.key o.inp) (cbcEnc x.alg.toNat x.key iv o.inp)
    let mac := fun (m : Bytes) => Config.take (macTlen o) (if macAlgo o = 3 then Config.retailMac (macPad o) x.key m else Config.cmac x.alg.toNat x.key m)
    (s.fetches u t o o.keyA (genReq mEnc) i x →
      (whole → t.engineServes o → runV (runGenericEncrypt o) s = (.ok { out := ciphered }, t.worked o))
      ∧ (¬whole → runV (runGenericEncrypt o) s = (.error (.fail 0x0101 []), u))
      ∧ (whole → ¬t.engineServes o → ∃ w v, runV (runGenericEncrypt o) s = (.error (.fail stEngine w), v) ∧ w <+: ciphered))
    ∧ (s.fetches u t o o.keyA (genReq mDec) i x → whole → t.engineServes o →
        runV (runGenericDecrypt o) s
          = (.ok { out := mode (ecbDec x.alg.toNat x.key o.inp) (cbcDec x.alg.toNat x.key iv o.inp) }, t.worked o))
    ∧ (s.fetches u t o o.keyA (macReq o mGen) i x → macAlgo o ≠ 2 → t.engineServes o →
        runV (runMacGenerate o) s = (.ok { out := mac o.inp }, t.worked o))
    ∧ (∀ c, macAlgo o = 2 → runV (probe o o.keyA (macReq o mGen)) s = (.ok (), u) →
        runV (fetchGcm o o.keyA (macReq o mGen)) u = (.ok (x, c), t) → t.engineServes o →
        let nonce := nonceBytes (t.worked o) o.p ((t.worked o).fceOf o.cl c) c
        runV (runMacGenerate o) s
          = (.ok { out := nonce ++ gcmTag x.alg.toNat x.key nonce o.inp [] (macTlen o), inl := nonce.drop 4 }, t.worked o))
    ∧ (s.fetches u t o o.keyA (macReq o mVer) i x → t.engineServes o →
        let value := fun m => if macAlgo o = 2 then gcmTag x.alg.toNat x.key (o.inl.take 12) m [] (macTlen o) else mac m
        (value (o.inp.take o.auxLen) = o.inp.drop o.auxLen → runV (runMacVerify o) s = (.ok {}, t.worked o))
        ∧ (value (o.inp.take o.auxLen) ≠ o.inp.drop o.auxLen → runV (runMacVerify o) s = (.error (.fail 0x0301 []), t.worked o)))
    ∧ (∀ c, runV (probe o o.keyA (gcmReq mEnc)) s = (.ok (), u) →
        runV (fetchGcm o o.keyA (gcmReq mEnc)) u = (.ok (x, c), t) → t.engineServes o →
        let nonce := nonceBytes t o.p (t.fceOf o.cl c) c
        let ct := gcmCrypt x.alg.toNat x.key nonce (o.inp.drop o.auxLen)
        runV (runGcmEncrypt o) s
          = (.ok { out := nonce ++ ct ++ gcmTag x.alg.toNat x.key nonce (o.inp.take o.auxLen) ct (gcmTlen o), inl := nonce.drop 4 },
              t.worked o))
    ∧ (s.fetches u t o o.keyA (gcmReq mDec) i x → t.engineServes o →
        let m := o.inLen - o.auxLen - gcmTlen o
        let ct := slice o.inp o.auxLen m
        let pt := gcmCrypt x.alg.toNat x.key (o.inl.take 12) ct
        let good := gcmTag x.alg.toNat x.key (o.inl.take 12) (o.inp.take o.auxLen) ct (gcmTlen o) = o.inp.drop (o.auxLen + m)
        (good → runV (runGcmDecrypt o) s = (.ok { out := pt }, t.worked o))
        ∧ (¬good → runV (runGcmDecrypt o) s = (.error (.fail 0x0301 pt), t.worked o)))
    ∧ ∀ c, runV (takeNonce i) s = (.ok c, u) →
        c = (s.slot i).nonce.toNat ∧ (s.slot i).nonce ≠ BitVec.allOnes 64
        ∧ u.slot i = { s.slot i with nonce := (s.slot i).nonce + 1 } ∧ ∀ j, j ≠ i → u.slot j = s.slot j

/-- A PIN translation from a zone key opens the incoming block, refuses it AUTH_FAILED where its control nibble, length or fill is
wrong, and puts out a block of the format asked for, with fresh random where the format has any (04 R97 to R99); every field so
built opens to the PIN it was built from. PIN_VERIFY compares the fresh value with the stored one (04 R100). -/
def Obligations.PinsTranslate : Prop :=
  (∀ (fmt : Nat) (pin : List Nat) (rnd : Bytes), fmt ∈ [0, 1, 3, 4] → 4 ≤ pin.length → pin.length ≤ 12 → (∀ d ∈ pin, d < 10) → rnd.length = 8 →
    pinOfField fmt (nibbles (buildField fmt pin rnd)) = some pin ∧ (buildField fmt pin rnd).length = pinBlockSize fmt)
  ∧ ∀ (o : Opnd) (s a b : State), pinSrc o = 2 → runV (probe o o.keyA (pinSrcReq o)) s = (.ok (), a) →
      let opened := fun (x : Slot) => openPin (pinIn o) x.alg.toNat x.key (slice o.inp 0 (pinBlockSize (pinIn o))) (acctField o)
      (runV (probe o o.keyB (pinDestReq o)) a = (.ok (), b) →
        ∀ i x t, runV (fetch o o.keyA (pinSrcReq o)) b = (.ok (i, x), t) → t.engineServes o →
          (opened x = none → runV (runPinTranslate o) s = (.error (.fail 0x0301 []), t.worked o))
          ∧ ∀ pin j y u, opened x = some pin → runV (fetch o o.keyB (pinDestReq o)) (t.worked o) = (.ok (j, y), u) →
              let block := fun rnd => sealField (pinOut o) y.alg.toNat y.key (buildField (pinOut o) pin rnd) (acctField o)
              (fmtRandom (pinOut o) = false → u.engineServes o → runV (runPinTranslate o) s = (.ok { out := block [] }, u.worked o))
              ∧ ∀ rnd v, fmtRandom (pinOut o) = true → runV (random o 8) u = (.ok rnd, v) → v.engineServes o →
                  runV (runPinTranslate o) s = (.ok { out := block rnd }, v.worked o))
      ∧ ∀ r c, runV (probe o o.keyB (pinRefReq false)) a = (.ok (), b) → runV (needRef o) b = (.ok r, c) →
          ∀ i x t, runV (fetch o o.keyA (pinSrcReq o)) c = (.ok (i, x), t) → t.engineServes o →
            (opened x = none → runV (runPinVerify o) s = (.error (.fail 0x0301 []), t.worked o))
            ∧ ∀ pin j y u m v, opened x = some pin → runV (fetch o o.keyB (pinRefReq false)) (t.worked o) = (.ok (j, y), u) →
                runV (getRec (r / 32) (r % 32)) u = (.ok m, v) →
                (slice m 0x30 16 = refValue y.alg.toNat y.key pin (acctField o) → runV (runPinVerify o) s = (.ok {}, v))
                ∧ (slice m 0x30 16 ≠ refValue y.alg.toNat y.key pin (acctField o) → runV (runPinVerify o) s = (.error (.fail 0x0301 []), v))

/-- The transaction counter of a DUKPT terminal is accepted by its policy (04 R103, Table 4.6): under ADVANCE above the highest, under
WINDOW also 1 to 63 below it and not yet seen, under NONE always; the record's highest and seen bits follow, the rest of it stands, and
under the first two no counter is ever accepted twice in a row. The DUKPT verbs then work under the key of 04 R105: with their base
key probed, transient slots reserved, terminal found, counter accepted and working key derived, each in its turn. -/
def Obligations.CountersAccepted : Prop :=
  (∀ (b : Bytes) (c : Nat), b.length = 128 → c < 2 ^ 32 →
    let h := trHighest b
    let d := c - h
    (trPolicy b = 0 → (h < c ↔ (acceptCtr b c).isSome))
    ∧ (trPolicy b = 1 → (h < c ∨ (1 ≤ h - c ∧ h - c ≤ 63 ∧ bit (trSeen b) (h - c) = false) ↔ (acceptCtr b c).isSome))
    ∧ (2 ≤ trPolicy b → (acceptCtr b c).isSome)
    ∧ ∀ b', acceptCtr b c = some b' →
        trHighest b' = max h c ∧ b'.length = 128
        ∧ (∀ i, ¬(0x10 ≤ i ∧ i < 0x14) → ¬(0x18 ≤ i ∧ i < 0x20) → byteAt b' i = byteAt b i)
        ∧ (trPolicy b ≠ 1 → trSeen b' = trSeen b)
        ∧ (trPolicy b = 1 → h < c → bit (trSeen b') 0 = true ∧ ∀ k, 1 ≤ k → k < 64 → bit (trSeen b') k = (decide (d ≤ k) && bit (trSeen b) (k - d)))
        ∧ (trPolicy b = 1 → c < h → ∀ k < 64, bit (trSeen b') k = (decide (k = h - c) || bit (trSeen b) k))
        ∧ (trPolicy b ≤ 1 → acceptCtr b' c = none))
  ∧ ∀ (o : Opnd) (s a b c d t : State) (tm : Nat) (x : Slot),
      runV (probe o o.keyA (dkReq o)) s = (.ok (), a) → runV (reserveDukpt o) a = (.ok (), b) →
      runV (terminalOf o (dkTdes o) (bit o.opt 0)) b = (.ok tm, c) → runV (acceptCounter o (dkTdes o) tm) c = (.ok (), d) →
      t.engineServes o →
      let working := fun usage variant mode =>
        runV (workingKey o (dkTdes o) tm usage variant (if dkTdes o then 4 else dkWork o + 1) mode) d = (.ok x, t)
      let mac := fun m => Config.take (dkTlen o) (if dkTdes o then Config.retailMac (dkPad o) x.key m else Config.cmac x.alg.toNat x.key m)
      let n := if dkTdes o then 8 else 16
      (working (if dkBoth o = 1 then 0x2002 else 0x2001) 2 mGen → runV (runDukptMacGenerate o) s = (.ok { out := mac o.inp }, t.worked o))
      ∧ (working (if dkBoth o = 1 then 0x2002 else 0x2000) 1 mVer →
        (mac (o.inp.take o.auxLen) = o.inp.drop o.auxLen → runV (runDukptMacVerify o) s = (.ok {}, t.worked o))
        ∧ (mac (o.inp.take o.auxLen) ≠ o.inp.drop o.auxLen → runV (runDukptMacVerify o) s = (.error (.fail 0x0301 []), t.worked o)))
      ∧ (working (if dkBoth o = 1 then 0x3002 else 0x3000) 3 mDec →
        runV (runDukptDataDecrypt o) s = (.ok { out := cbcDec x.alg.toNat x.key (o.inp.take n) (o.inp.drop n) }, t.worked o))
      ∧ (working (if dkBoth o = 1 then 0x3002 else 0x3001) 4 mEnc →
        runV (runDukptDataEncrypt o) s = (.ok { out := cbcEnc x.alg.toNat x.key (o.inp.take n) (o.inp.drop n) }, t.worked o))

/-- The support verbs' answers (04 R120, R121; 15 R367): COMPARE and VERIFY accept or fail AUTH_FAILED; DIGEST without a key and
RANDOM put out their value; VAULT_GET reads and VAULT_PUT writes a data record's 96 bytes; COUNTER_INC adds 1 to 255 to a counter and
answers the new value, or completes LENGTH_LIMIT at the end of its 64 bits; TIME_READ answers the counter and FREQ_REPORT the report. -/
def Obligations.SupportAnswers : Prop :=
  ∀ (o : Opnd) (s : State),
    (s.engineServes o →
      (o.inp.take o.auxLen = o.inp.drop o.auxLen → runV (runSupportCompare o) s = (.ok {}, s.worked o))
      ∧ (o.inp.take o.auxLen ≠ o.inp.drop o.auxLen → runV (runSupportCompare o) s = (.error (.fail 0x0301 []), s.worked o))
      ∧ (dgKeyed o = false → dgVerify o = false → o.decl = none →
          runV (runSupportDigest o) s = (.ok { out := Config.take (dgLen o) (Config.digest (dgAlgo o) o.inp) }, s.worked o))
      ∧ (let np := pubLen (sgScheme o) (sgUnits o)
         let ns := sigLen (sgScheme o) (sgUnits o)
         let rest := o.inp.drop (np + ns)
         let good := verifySig (sgScheme o) (o.inp.take np) (rest.take o.auxLen) (rest.drop o.auxLen) (slice o.inp np ns)
         (good = true → runV (runSupportVerify o) s = (.ok {}, s.worked o))
         ∧ (good = false → runV (runSupportVerify o) s = (.error (.fail 0x0301 []), s.worked o))))
    ∧ (∀ b t, runV (random o o.auxLen) s = (.ok b, t) → runV (runSupportRandom o) s = (.ok { out := b }, t))
    ∧ (∀ pg i b t, runV (namedRec o.p (recNum o) 0x09) s = (.ok (pg, i, b), t) →
        runV (runVaultGet o) s = (.ok { out := slice b 0x20 96 }, t)
        ∧ ∀ u, bit o.opt 0 = false → recNum o ≠ 0 → runV (dirtyRoom pg) t = (.ok (), u) →
            runV (runVaultPut o) s = (.ok { inl := o.inl.take 8, durable := true }, u.putRec pg i (b.take 0x20 ++ o.inp)))
    ∧ (∀ n t, bit o.opt 0 = false → recNum o = 0 → runV (newNumbered o.p 0x09 (zeros 24 ++ o.inp)) s = (.ok n, t) →
        runV (runVaultPut o) s = (.ok { inl := toLE 8 n, durable := true }, t))
    ∧ (∀ pg i b t, recNum o ≠ 0 → runV (namedRec o.p (recNum o) 0x0A) s = (.ok (pg, i, b), t) →
        let v := leAt b 8 8 + o.param
        (2 ^ 64 ≤ v → runV (runCounterInc o) s = (.error (.fail 0x0103 []), t))
        ∧ ∀ u, v < 2 ^ 64 → runV (dirtyRoom pg) t = (.ok (), u) →
            runV (runCounterInc o) s = (.ok { inl := toLE 8 v, durable := true }, u.putRec pg i (putAt b 8 (toLE 8 v))))
    ∧ runV (runTimeRead o) s = (.ok { inl := toLE 8 s.time.counter.toNat }, s)
    ∧ runV (runFreqReport o) s = (.ok { out := s.freqReport }, s)
    ∧ runV (formNop.run o) s = (.ok {}, s)
end

