-- ==== Sys2Proof/Laws/Map.lean ====
section
/-! SUPPORT. Reading a finite table after a write or a deletion. -/

namespace Sys2Proof

variable {α : Type}

@[simp] theorem mget_nil (k : Nat) (d : α) : mget [] k d = d := rfl

@[simp] theorem mget_mset_self (m : Map α) (k : Nat) (v d : α) : mget (mset m k v) k d = v := by
  induction m with
  | nil => simp [mset, mget]
  | cons c r ih =>
    obtain ⟨j, w⟩ := c
    by_cases h : j = k
    · simp [mset, h, mget]
    · by_cases h' : k < j <;> simp [mset, h, h', mget, ih]

theorem mget_mset_ne (m : Map α) {k j : Nat} (v d : α) (h : j ≠ k) : mget (mset m k v) j d = mget m j d := by
  induction m with
  | nil => simp [mset, mget, Ne.symm h]
  | cons c r ih =>
    obtain ⟨i, w⟩ := c
    by_cases hk : i = k
    · subst hk
      simp [mset, mget, Ne.symm h]
    · by_cases h' : k < i
      · simp [mset, hk, h', mget, Ne.symm h]
      · simp only [mset, hk, h', if_false, mget, ih]

theorem mget_mset (m : Map α) (k j : Nat) (v d : α) : mget (mset m k v) j d = if j = k then v else mget m j d := by
  by_cases h : j = k
  · simp [h]
  · simp [h, mget_mset_ne m v d h]

@[simp] theorem mget_mdel_self (m : Map α) (k : Nat) (d : α) : mget (mdel m k) k d = d := by
  induction m with
  | nil => rfl
  | cons c r ih =>
    obtain ⟨i, w⟩ := c
    by_cases h : i = k
    · simpa [mdel, h] using ih
    · simpa [mdel, h, mget] using ih

theorem mget_mdel_ne (m : Map α) {k j : Nat} (d : α) (h : j ≠ k) : mget (mdel m k) j d = mget m j d := by
  induction m with
  | nil => rfl
  | cons c r ih =>
    obtain ⟨i, w⟩ := c
    by_cases hi : i = k
    · subst hi
      simpa [mdel, mget, Ne.symm h] using ih
    · by_cases hj : i = j
      · subst hj
        simp [mdel, hi, mget]
      · simpa [mdel, hi, mget, hj] using ih

end Sys2Proof
end

