-- ==== Sys2Proof/Laws/State.lean ====
section
/-! SUPPORT. What each named update of the state leaves alone, one lemma a field, and what its own reader reads after it. -/

namespace Sys2Proof.Machine

variable (s : State)

/-! ### postWrite -/

@[simp] theorem State.postWrite_pending (fn a : Nat) (b : Bytes) : (s.postWrite fn a b).pending = s.pending := rfl
@[simp] theorem State.postWrite_disp (fn a : Nat) (b : Bytes) : (s.postWrite fn a b).disp = s.disp := rfl
@[simp] theorem State.postWrite_kr (fn a : Nat) (b : Bytes) : (s.postWrite fn a b).kr = s.kr := rfl
@[simp] theorem State.postWrite_vault (fn a : Nat) (b : Bytes) : (s.postWrite fn a b).vault = s.vault := rfl
@[simp] theorem State.postWrite_eng (fn a : Nat) (b : Bytes) : (s.postWrite fn a b).eng = s.eng := rfl
@[simp] theorem State.postWrite_ent (fn a : Nat) (b : Bytes) : (s.postWrite fn a b).ent = s.ent := rfl
@[simp] theorem State.postWrite_tam (fn a : Nat) (b : Bytes) : (s.postWrite fn a b).tam = s.tam := rfl
@[simp] theorem State.postWrite_gate (fn a : Nat) (b : Bytes) : (s.postWrite fn a b).gate = s.gate := rfl
@[simp] theorem State.postWrite_mesh (fn a : Nat) (b : Bytes) : (s.postWrite fn a b).mesh = s.mesh := rfl
@[simp] theorem State.postWrite_time (fn a : Nat) (b : Bytes) : (s.postWrite fn a b).time = s.time := rfl
@[simp] theorem State.postWrite_pwr (fn a : Nat) (b : Bytes) : (s.postWrite fn a b).pwr = s.pwr := rfl
@[simp] theorem State.postWrite_life (fn a : Nat) (b : Bytes) : (s.postWrite fn a b).life = s.life := rfl

/-! ### setFunc -/

@[simp] theorem State.setFunc_pending (n : Nat) (f : Func) : (s.setFunc n f).pending = s.pending := rfl
@[simp] theorem State.setFunc_disp (n : Nat) (f : Func) : (s.setFunc n f).disp = s.disp := rfl
@[simp] theorem State.setFunc_kr (n : Nat) (f : Func) : (s.setFunc n f).kr = s.kr := rfl
@[simp] theorem State.setFunc_vault (n : Nat) (f : Func) : (s.setFunc n f).vault = s.vault := rfl
@[simp] theorem State.setFunc_eng (n : Nat) (f : Func) : (s.setFunc n f).eng = s.eng := rfl
@[simp] theorem State.setFunc_ent (n : Nat) (f : Func) : (s.setFunc n f).ent = s.ent := rfl
@[simp] theorem State.setFunc_tam (n : Nat) (f : Func) : (s.setFunc n f).tam = s.tam := rfl
@[simp] theorem State.setFunc_gate (n : Nat) (f : Func) : (s.setFunc n f).gate = s.gate := rfl
@[simp] theorem State.setFunc_mesh (n : Nat) (f : Func) : (s.setFunc n f).mesh = s.mesh := rfl
@[simp] theorem State.setFunc_time (n : Nat) (f : Func) : (s.setFunc n f).time = s.time := rfl
@[simp] theorem State.setFunc_pwr (n : Nat) (f : Func) : (s.setFunc n f).pwr = s.pwr := rfl
@[simp] theorem State.setFunc_life (n : Nat) (f : Func) : (s.setFunc n f).life = s.life := rfl

/-! ### setRing -/

@[simp] theorem State.setRing_pending (n r : Nat) (x : Ring) : (s.setRing n r x).pending = s.pending := rfl
@[simp] theorem State.setRing_disp (n r : Nat) (x : Ring) : (s.setRing n r x).disp = s.disp := rfl
@[simp] theorem State.setRing_kr (n r : Nat) (x : Ring) : (s.setRing n r x).kr = s.kr := rfl
@[simp] theorem State.setRing_vault (n r : Nat) (x : Ring) : (s.setRing n r x).vault = s.vault := rfl
@[simp] theorem State.setRing_eng (n r : Nat) (x : Ring) : (s.setRing n r x).eng = s.eng := rfl
@[simp] theorem State.setRing_ent (n r : Nat) (x : Ring) : (s.setRing n r x).ent = s.ent := rfl
@[simp] theorem State.setRing_tam (n r : Nat) (x : Ring) : (s.setRing n r x).tam = s.tam := rfl
@[simp] theorem State.setRing_gate (n r : Nat) (x : Ring) : (s.setRing n r x).gate = s.gate := rfl
@[simp] theorem State.setRing_mesh (n r : Nat) (x : Ring) : (s.setRing n r x).mesh = s.mesh := rfl
@[simp] theorem State.setRing_time (n r : Nat) (x : Ring) : (s.setRing n r x).time = s.time := rfl
@[simp] theorem State.setRing_pwr (n r : Nat) (x : Ring) : (s.setRing n r x).pwr = s.pwr := rfl
@[simp] theorem State.setRing_life (n r : Nat) (x : Ring) : (s.setRing n r x).life = s.life := rfl

/-! ### setPart -/

@[simp] theorem State.setPart_pending (p : Nat) (x : Part) : (s.setPart p x).pending = s.pending := rfl
@[simp] theorem State.setPart_host (p : Nat) (x : Part) : (s.setPart p x).host = s.host := rfl
@[simp] theorem State.setPart_disp (p : Nat) (x : Part) : (s.setPart p x).disp = s.disp := rfl
@[simp] theorem State.setPart_kr (p : Nat) (x : Part) : (s.setPart p x).kr = s.kr := rfl
@[simp] theorem State.setPart_eng (p : Nat) (x : Part) : (s.setPart p x).eng = s.eng := rfl
@[simp] theorem State.setPart_ent (p : Nat) (x : Part) : (s.setPart p x).ent = s.ent := rfl
@[simp] theorem State.setPart_tam (p : Nat) (x : Part) : (s.setPart p x).tam = s.tam := rfl
@[simp] theorem State.setPart_gate (p : Nat) (x : Part) : (s.setPart p x).gate = s.gate := rfl
@[simp] theorem State.setPart_mesh (p : Nat) (x : Part) : (s.setPart p x).mesh = s.mesh := rfl
@[simp] theorem State.setPart_time (p : Nat) (x : Part) : (s.setPart p x).time = s.time := rfl
@[simp] theorem State.setPart_pwr (p : Nat) (x : Part) : (s.setPart p x).pwr = s.pwr := rfl
@[simp] theorem State.setPart_life (p : Nat) (x : Part) : (s.setPart p x).life = s.life := rfl

/-! ### setGate -/

@[simp] theorem State.setGate_pending (g : Nat) (x : Gate) : (s.setGate g x).pending = s.pending := rfl
@[simp] theorem State.setGate_host (g : Nat) (x : Gate) : (s.setGate g x).host = s.host := rfl
@[simp] theorem State.setGate_disp (g : Nat) (x : Gate) : (s.setGate g x).disp = s.disp := rfl
@[simp] theorem State.setGate_kr (g : Nat) (x : Gate) : (s.setGate g x).kr = s.kr := rfl
@[simp] theorem State.setGate_vault (g : Nat) (x : Gate) : (s.setGate g x).vault = s.vault := rfl
@[simp] theorem State.setGate_eng (g : Nat) (x : Gate) : (s.setGate g x).eng = s.eng := rfl
@[simp] theorem State.setGate_ent (g : Nat) (x : Gate) : (s.setGate g x).ent = s.ent := rfl
@[simp] theorem State.setGate_tam (g : Nat) (x : Gate) : (s.setGate g x).tam = s.tam := rfl
@[simp] theorem State.setGate_mesh (g : Nat) (x : Gate) : (s.setGate g x).mesh = s.mesh := rfl
@[simp] theorem State.setGate_time (g : Nat) (x : Gate) : (s.setGate g x).time = s.time := rfl
@[simp] theorem State.setGate_pwr (g : Nat) (x : Gate) : (s.setGate g x).pwr = s.pwr := rfl
@[simp] theorem State.setGate_life (g : Nat) (x : Gate) : (s.setGate g x).life = s.life := rfl

/-! ### modDesc -/

@[simp] theorem State.modDesc_pending (d : Nat) (f : DRec → DRec) : (s.modDesc d f).pending = s.pending := rfl
@[simp] theorem State.modDesc_host (d : Nat) (f : DRec → DRec) : (s.modDesc d f).host = s.host := rfl
@[simp] theorem State.modDesc_kr (d : Nat) (f : DRec → DRec) : (s.modDesc d f).kr = s.kr := rfl
@[simp] theorem State.modDesc_vault (d : Nat) (f : DRec → DRec) : (s.modDesc d f).vault = s.vault := rfl
@[simp] theorem State.modDesc_eng (d : Nat) (f : DRec → DRec) : (s.modDesc d f).eng = s.eng := rfl
@[simp] theorem State.modDesc_ent (d : Nat) (f : DRec → DRec) : (s.modDesc d f).ent = s.ent := rfl
@[simp] theorem State.modDesc_tam (d : Nat) (f : DRec → DRec) : (s.modDesc d f).tam = s.tam := rfl
@[simp] theorem State.modDesc_gate (d : Nat) (f : DRec → DRec) : (s.modDesc d f).gate = s.gate := rfl
@[simp] theorem State.modDesc_mesh (d : Nat) (f : DRec → DRec) : (s.modDesc d f).mesh = s.mesh := rfl
@[simp] theorem State.modDesc_time (d : Nat) (f : DRec → DRec) : (s.modDesc d f).time = s.time := rfl
@[simp] theorem State.modDesc_pwr (d : Nat) (f : DRec → DRec) : (s.modDesc d f).pwr = s.pwr := rfl
@[simp] theorem State.modDesc_life (d : Nat) (f : DRec → DRec) : (s.modDesc d f).life = s.life := rfl

/-! ### flag -/

@[simp] theorem State.flag_pending (d i : Nat) : (s.flag d i).pending = s.pending := rfl
@[simp] theorem State.flag_host (d i : Nat) : (s.flag d i).host = s.host := rfl
@[simp] theorem State.flag_kr (d i : Nat) : (s.flag d i).kr = s.kr := rfl
@[simp] theorem State.flag_vault (d i : Nat) : (s.flag d i).vault = s.vault := rfl
@[simp] theorem State.flag_eng (d i : Nat) : (s.flag d i).eng = s.eng := rfl
@[simp] theorem State.flag_ent (d i : Nat) : (s.flag d i).ent = s.ent := rfl
@[simp] theorem State.flag_tam (d i : Nat) : (s.flag d i).tam = s.tam := rfl
@[simp] theorem State.flag_gate (d i : Nat) : (s.flag d i).gate = s.gate := rfl
@[simp] theorem State.flag_mesh (d i : Nat) : (s.flag d i).mesh = s.mesh := rfl
@[simp] theorem State.flag_time (d i : Nat) : (s.flag d i).time = s.time := rfl
@[simp] theorem State.flag_pwr (d i : Nat) : (s.flag d i).pwr = s.pwr := rfl
@[simp] theorem State.flag_life (d i : Nat) : (s.flag d i).life = s.life := rfl

/-! ### setArb -/

@[simp] theorem State.setArb_pending (a : Nat) (x : Arb) : (s.setArb a x).pending = s.pending := rfl
@[simp] theorem State.setArb_host (a : Nat) (x : Arb) : (s.setArb a x).host = s.host := rfl
@[simp] theorem State.setArb_disp (a : Nat) (x : Arb) : (s.setArb a x).disp = s.disp := rfl
@[simp] theorem State.setArb_kr (a : Nat) (x : Arb) : (s.setArb a x).kr = s.kr := rfl
@[simp] theorem State.setArb_vault (a : Nat) (x : Arb) : (s.setArb a x).vault = s.vault := rfl
@[simp] theorem State.setArb_ent (a : Nat) (x : Arb) : (s.setArb a x).ent = s.ent := rfl
@[simp] theorem State.setArb_tam (a : Nat) (x : Arb) : (s.setArb a x).tam = s.tam := rfl
@[simp] theorem State.setArb_gate (a : Nat) (x : Arb) : (s.setArb a x).gate = s.gate := rfl
@[simp] theorem State.setArb_mesh (a : Nat) (x : Arb) : (s.setArb a x).mesh = s.mesh := rfl
@[simp] theorem State.setArb_time (a : Nat) (x : Arb) : (s.setArb a x).time = s.time := rfl
@[simp] theorem State.setArb_pwr (a : Nat) (x : Arb) : (s.setArb a x).pwr = s.pwr := rfl
@[simp] theorem State.setArb_life (a : Nat) (x : Arb) : (s.setArb a x).life = s.life := rfl

/-! ### setDomain -/

@[simp] theorem State.setDomain_pending (d : Nat) (x : Domain) : (s.setDomain d x).pending = s.pending := rfl
@[simp] theorem State.setDomain_host (d : Nat) (x : Domain) : (s.setDomain d x).host = s.host := rfl
@[simp] theorem State.setDomain_disp (d : Nat) (x : Domain) : (s.setDomain d x).disp = s.disp := rfl
@[simp] theorem State.setDomain_kr (d : Nat) (x : Domain) : (s.setDomain d x).kr = s.kr := rfl
@[simp] theorem State.setDomain_vault (d : Nat) (x : Domain) : (s.setDomain d x).vault = s.vault := rfl
@[simp] theorem State.setDomain_eng (d : Nat) (x : Domain) : (s.setDomain d x).eng = s.eng := rfl
@[simp] theorem State.setDomain_ent (d : Nat) (x : Domain) : (s.setDomain d x).ent = s.ent := rfl
@[simp] theorem State.setDomain_tam (d : Nat) (x : Domain) : (s.setDomain d x).tam = s.tam := rfl
@[simp] theorem State.setDomain_gate (d : Nat) (x : Domain) : (s.setDomain d x).gate = s.gate := rfl
@[simp] theorem State.setDomain_mesh (d : Nat) (x : Domain) : (s.setDomain d x).mesh = s.mesh := rfl
@[simp] theorem State.setDomain_time (d : Nat) (x : Domain) : (s.setDomain d x).time = s.time := rfl
@[simp] theorem State.setDomain_life (d : Nat) (x : Domain) : (s.setDomain d x).life = s.life := rfl

/-! ### setExpander -/

@[simp] theorem State.setExpander_pending (c : Nat) (x : Expander) : (s.setExpander c x).pending = s.pending := rfl
@[simp] theorem State.setExpander_host (c : Nat) (x : Expander) : (s.setExpander c x).host = s.host := rfl
@[simp] theorem State.setExpander_disp (c : Nat) (x : Expander) : (s.setExpander c x).disp = s.disp := rfl
@[simp] theorem State.setExpander_kr (c : Nat) (x : Expander) : (s.setExpander c x).kr = s.kr := rfl
@[simp] theorem State.setExpander_vault (c : Nat) (x : Expander) : (s.setExpander c x).vault = s.vault := rfl
@[simp] theorem State.setExpander_eng (c : Nat) (x : Expander) : (s.setExpander c x).eng = s.eng := rfl
@[simp] theorem State.setExpander_tam (c : Nat) (x : Expander) : (s.setExpander c x).tam = s.tam := rfl
@[simp] theorem State.setExpander_gate (c : Nat) (x : Expander) : (s.setExpander c x).gate = s.gate := rfl
@[simp] theorem State.setExpander_mesh (c : Nat) (x : Expander) : (s.setExpander c x).mesh = s.mesh := rfl
@[simp] theorem State.setExpander_time (c : Nat) (x : Expander) : (s.setExpander c x).time = s.time := rfl
@[simp] theorem State.setExpander_pwr (c : Nat) (x : Expander) : (s.setExpander c x).pwr = s.pwr := rfl
@[simp] theorem State.setExpander_life (c : Nat) (x : Expander) : (s.setExpander c x).life = s.life := rfl

/-! ### setPort -/

@[simp] theorem State.setPort_pending (p : Nat) (x : Port) : (s.setPort p x).pending = s.pending := rfl
@[simp] theorem State.setPort_host (p : Nat) (x : Port) : (s.setPort p x).host = s.host := rfl
@[simp] theorem State.setPort_disp (p : Nat) (x : Port) : (s.setPort p x).disp = s.disp := rfl
@[simp] theorem State.setPort_kr (p : Nat) (x : Port) : (s.setPort p x).kr = s.kr := rfl
@[simp] theorem State.setPort_vault (p : Nat) (x : Port) : (s.setPort p x).vault = s.vault := rfl
@[simp] theorem State.setPort_eng (p : Nat) (x : Port) : (s.setPort p x).eng = s.eng := rfl
@[simp] theorem State.setPort_ent (p : Nat) (x : Port) : (s.setPort p x).ent = s.ent := rfl
@[simp] theorem State.setPort_tam (p : Nat) (x : Port) : (s.setPort p x).tam = s.tam := rfl
@[simp] theorem State.setPort_gate (p : Nat) (x : Port) : (s.setPort p x).gate = s.gate := rfl
@[simp] theorem State.setPort_time (p : Nat) (x : Port) : (s.setPort p x).time = s.time := rfl
@[simp] theorem State.setPort_pwr (p : Nat) (x : Port) : (s.setPort p x).pwr = s.pwr := rfl
@[simp] theorem State.setPort_life (p : Nat) (x : Port) : (s.setPort p x).life = s.life := rfl

/-! ### setSlot -/

@[simp] theorem State.setSlot_pending (i : Nat) (x : Slot) : (s.setSlot i x).pending = s.pending := rfl
@[simp] theorem State.setSlot_host (i : Nat) (x : Slot) : (s.setSlot i x).host = s.host := rfl
@[simp] theorem State.setSlot_disp (i : Nat) (x : Slot) : (s.setSlot i x).disp = s.disp := rfl
@[simp] theorem State.setSlot_vault (i : Nat) (x : Slot) : (s.setSlot i x).vault = s.vault := rfl
@[simp] theorem State.setSlot_eng (i : Nat) (x : Slot) : (s.setSlot i x).eng = s.eng := rfl
@[simp] theorem State.setSlot_ent (i : Nat) (x : Slot) : (s.setSlot i x).ent = s.ent := rfl
@[simp] theorem State.setSlot_tam (i : Nat) (x : Slot) : (s.setSlot i x).tam = s.tam := rfl
@[simp] theorem State.setSlot_gate (i : Nat) (x : Slot) : (s.setSlot i x).gate = s.gate := rfl
@[simp] theorem State.setSlot_mesh (i : Nat) (x : Slot) : (s.setSlot i x).mesh = s.mesh := rfl
@[simp] theorem State.setSlot_time (i : Nat) (x : Slot) : (s.setSlot i x).time = s.time := rfl
@[simp] theorem State.setSlot_pwr (i : Nat) (x : Slot) : (s.setSlot i x).pwr = s.pwr := rfl
@[simp] theorem State.setSlot_life (i : Nat) (x : Slot) : (s.setSlot i x).life = s.life := rfl

/-! ### setPage -/

@[simp] theorem State.setPage_pending (n : Nat) (x : VPage) : (s.setPage n x).pending = s.pending := rfl
@[simp] theorem State.setPage_host (n : Nat) (x : VPage) : (s.setPage n x).host = s.host := rfl
@[simp] theorem State.setPage_disp (n : Nat) (x : VPage) : (s.setPage n x).disp = s.disp := rfl
@[simp] theorem State.setPage_kr (n : Nat) (x : VPage) : (s.setPage n x).kr = s.kr := rfl
@[simp] theorem State.setPage_eng (n : Nat) (x : VPage) : (s.setPage n x).eng = s.eng := rfl
@[simp] theorem State.setPage_ent (n : Nat) (x : VPage) : (s.setPage n x).ent = s.ent := rfl
@[simp] theorem State.setPage_tam (n : Nat) (x : VPage) : (s.setPage n x).tam = s.tam := rfl
@[simp] theorem State.setPage_gate (n : Nat) (x : VPage) : (s.setPage n x).gate = s.gate := rfl
@[simp] theorem State.setPage_mesh (n : Nat) (x : VPage) : (s.setPage n x).mesh = s.mesh := rfl
@[simp] theorem State.setPage_time (n : Nat) (x : VPage) : (s.setPage n x).time = s.time := rfl
@[simp] theorem State.setPage_pwr (n : Nat) (x : VPage) : (s.setPage n x).pwr = s.pwr := rfl
@[simp] theorem State.setPage_life (n : Nat) (x : VPage) : (s.setPage n x).life = s.life := rfl

/-! ### setCpage -/

@[simp] theorem State.setCpage_pending (k : Nat) (x : CPage) : (s.setCpage k x).pending = s.pending := rfl
@[simp] theorem State.setCpage_host (k : Nat) (x : CPage) : (s.setCpage k x).host = s.host := rfl
@[simp] theorem State.setCpage_disp (k : Nat) (x : CPage) : (s.setCpage k x).disp = s.disp := rfl
@[simp] theorem State.setCpage_kr (k : Nat) (x : CPage) : (s.setCpage k x).kr = s.kr := rfl
@[simp] theorem State.setCpage_vault (k : Nat) (x : CPage) : (s.setCpage k x).vault = s.vault := rfl
@[simp] theorem State.setCpage_ent (k : Nat) (x : CPage) : (s.setCpage k x).ent = s.ent := rfl
@[simp] theorem State.setCpage_tam (k : Nat) (x : CPage) : (s.setCpage k x).tam = s.tam := rfl
@[simp] theorem State.setCpage_gate (k : Nat) (x : CPage) : (s.setCpage k x).gate = s.gate := rfl
@[simp] theorem State.setCpage_mesh (k : Nat) (x : CPage) : (s.setCpage k x).mesh = s.mesh := rfl
@[simp] theorem State.setCpage_time (k : Nat) (x : CPage) : (s.setCpage k x).time = s.time := rfl
@[simp] theorem State.setCpage_pwr (k : Nat) (x : CPage) : (s.setCpage k x).pwr = s.pwr := rfl
@[simp] theorem State.setCpage_life (k : Nat) (x : CPage) : (s.setCpage k x).life = s.life := rfl

/-! ### setDpage -/

@[simp] theorem State.setDpage_pending (k : Nat) (x : DPage) : (s.setDpage k x).pending = s.pending := rfl
@[simp] theorem State.setDpage_host (k : Nat) (x : DPage) : (s.setDpage k x).host = s.host := rfl
@[simp] theorem State.setDpage_disp (k : Nat) (x : DPage) : (s.setDpage k x).disp = s.disp := rfl
@[simp] theorem State.setDpage_kr (k : Nat) (x : DPage) : (s.setDpage k x).kr = s.kr := rfl
@[simp] theorem State.setDpage_vault (k : Nat) (x : DPage) : (s.setDpage k x).vault = s.vault := rfl
@[simp] theorem State.setDpage_ent (k : Nat) (x : DPage) : (s.setDpage k x).ent = s.ent := rfl
@[simp] theorem State.setDpage_tam (k : Nat) (x : DPage) : (s.setDpage k x).tam = s.tam := rfl
@[simp] theorem State.setDpage_gate (k : Nat) (x : DPage) : (s.setDpage k x).gate = s.gate := rfl
@[simp] theorem State.setDpage_mesh (k : Nat) (x : DPage) : (s.setDpage k x).mesh = s.mesh := rfl
@[simp] theorem State.setDpage_time (k : Nat) (x : DPage) : (s.setDpage k x).time = s.time := rfl
@[simp] theorem State.setDpage_pwr (k : Nat) (x : DPage) : (s.setDpage k x).pwr = s.pwr := rfl
@[simp] theorem State.setDpage_life (k : Nat) (x : DPage) : (s.setDpage k x).life = s.life := rfl

/-! ### setCtx -/

@[simp] theorem State.setCtx_pending (k : Nat) (x : Ctx) : (s.setCtx k x).pending = s.pending := rfl
@[simp] theorem State.setCtx_host (k : Nat) (x : Ctx) : (s.setCtx k x).host = s.host := rfl
@[simp] theorem State.setCtx_disp (k : Nat) (x : Ctx) : (s.setCtx k x).disp = s.disp := rfl
@[simp] theorem State.setCtx_kr (k : Nat) (x : Ctx) : (s.setCtx k x).kr = s.kr := rfl
@[simp] theorem State.setCtx_vault (k : Nat) (x : Ctx) : (s.setCtx k x).vault = s.vault := rfl
@[simp] theorem State.setCtx_ent (k : Nat) (x : Ctx) : (s.setCtx k x).ent = s.ent := rfl
@[simp] theorem State.setCtx_tam (k : Nat) (x : Ctx) : (s.setCtx k x).tam = s.tam := rfl
@[simp] theorem State.setCtx_gate (k : Nat) (x : Ctx) : (s.setCtx k x).gate = s.gate := rfl
@[simp] theorem State.setCtx_mesh (k : Nat) (x : Ctx) : (s.setCtx k x).mesh = s.mesh := rfl
@[simp] theorem State.setCtx_time (k : Nat) (x : Ctx) : (s.setCtx k x).time = s.time := rfl
@[simp] theorem State.setCtx_pwr (k : Nat) (x : Ctx) : (s.setCtx k x).pwr = s.pwr := rfl
@[simp] theorem State.setCtx_life (k : Nat) (x : Ctx) : (s.setCtx k x).life = s.life := rfl

/-! ### setVault -/

@[simp] theorem State.setVault_pending (v : Vault) : (s.setVault v).pending = s.pending := rfl
@[simp] theorem State.setVault_host (v : Vault) : (s.setVault v).host = s.host := rfl
@[simp] theorem State.setVault_disp (v : Vault) : (s.setVault v).disp = s.disp := rfl
@[simp] theorem State.setVault_kr (v : Vault) : (s.setVault v).kr = s.kr := rfl
@[simp] theorem State.setVault_eng (v : Vault) : (s.setVault v).eng = s.eng := rfl
@[simp] theorem State.setVault_ent (v : Vault) : (s.setVault v).ent = s.ent := rfl
@[simp] theorem State.setVault_tam (v : Vault) : (s.setVault v).tam = s.tam := rfl
@[simp] theorem State.setVault_gate (v : Vault) : (s.setVault v).gate = s.gate := rfl
@[simp] theorem State.setVault_mesh (v : Vault) : (s.setVault v).mesh = s.mesh := rfl
@[simp] theorem State.setVault_time (v : Vault) : (s.setVault v).time = s.time := rfl
@[simp] theorem State.setVault_pwr (v : Vault) : (s.setVault v).pwr = s.pwr := rfl
@[simp] theorem State.setVault_life (v : Vault) : (s.setVault v).life = s.life := rfl
@[simp] theorem State.setVault_vault (v : Vault) : (s.setVault v).vault = v := rfl

/-! ### setTime -/

@[simp] theorem State.setTime_pending (t : Time) : (s.setTime t).pending = s.pending := rfl
@[simp] theorem State.setTime_host (t : Time) : (s.setTime t).host = s.host := rfl
@[simp] theorem State.setTime_disp (t : Time) : (s.setTime t).disp = s.disp := rfl
@[simp] theorem State.setTime_kr (t : Time) : (s.setTime t).kr = s.kr := rfl
@[simp] theorem State.setTime_vault (t : Time) : (s.setTime t).vault = s.vault := rfl
@[simp] theorem State.setTime_eng (t : Time) : (s.setTime t).eng = s.eng := rfl
@[simp] theorem State.setTime_ent (t : Time) : (s.setTime t).ent = s.ent := rfl
@[simp] theorem State.setTime_tam (t : Time) : (s.setTime t).tam = s.tam := rfl
@[simp] theorem State.setTime_gate (t : Time) : (s.setTime t).gate = s.gate := rfl
@[simp] theorem State.setTime_mesh (t : Time) : (s.setTime t).mesh = s.mesh := rfl
@[simp] theorem State.setTime_pwr (t : Time) : (s.setTime t).pwr = s.pwr := rfl
@[simp] theorem State.setTime_life (t : Time) : (s.setTime t).life = s.life := rfl
@[simp] theorem State.setTime_time (t : Time) : (s.setTime t).time = t := rfl

/-! ### setTam -/

@[simp] theorem State.setTam_pending (t : Tamper) : (s.setTam t).pending = s.pending := rfl
@[simp] theorem State.setTam_host (t : Tamper) : (s.setTam t).host = s.host := rfl
@[simp] theorem State.setTam_disp (t : Tamper) : (s.setTam t).disp = s.disp := rfl
@[simp] theorem State.setTam_kr (t : Tamper) : (s.setTam t).kr = s.kr := rfl
@[simp] theorem State.setTam_vault (t : Tamper) : (s.setTam t).vault = s.vault := rfl
@[simp] theorem State.setTam_eng (t : Tamper) : (s.setTam t).eng = s.eng := rfl
@[simp] theorem State.setTam_ent (t : Tamper) : (s.setTam t).ent = s.ent := rfl
@[simp] theorem State.setTam_gate (t : Tamper) : (s.setTam t).gate = s.gate := rfl
@[simp] theorem State.setTam_mesh (t : Tamper) : (s.setTam t).mesh = s.mesh := rfl
@[simp] theorem State.setTam_time (t : Tamper) : (s.setTam t).time = s.time := rfl
@[simp] theorem State.setTam_pwr (t : Tamper) : (s.setTam t).pwr = s.pwr := rfl
@[simp] theorem State.setTam_life (t : Tamper) : (s.setTam t).life = s.life := rfl
@[simp] theorem State.setTam_tam (t : Tamper) : (s.setTam t).tam = t := rfl

/-! ### setPwr -/

@[simp] theorem State.setPwr_pending (p : Power) : (s.setPwr p).pending = s.pending := rfl
@[simp] theorem State.setPwr_host (p : Power) : (s.setPwr p).host = s.host := rfl
@[simp] theorem State.setPwr_disp (p : Power) : (s.setPwr p).disp = s.disp := rfl
@[simp] theorem State.setPwr_kr (p : Power) : (s.setPwr p).kr = s.kr := rfl
@[simp] theorem State.setPwr_vault (p : Power) : (s.setPwr p).vault = s.vault := rfl
@[simp] theorem State.setPwr_eng (p : Power) : (s.setPwr p).eng = s.eng := rfl
@[simp] theorem State.setPwr_ent (p : Power) : (s.setPwr p).ent = s.ent := rfl
@[simp] theorem State.setPwr_tam (p : Power) : (s.setPwr p).tam = s.tam := rfl
@[simp] theorem State.setPwr_gate (p : Power) : (s.setPwr p).gate = s.gate := rfl
@[simp] theorem State.setPwr_mesh (p : Power) : (s.setPwr p).mesh = s.mesh := rfl
@[simp] theorem State.setPwr_time (p : Power) : (s.setPwr p).time = s.time := rfl
@[simp] theorem State.setPwr_life (p : Power) : (s.setPwr p).life = s.life := rfl
@[simp] theorem State.setPwr_pwr (p : Power) : (s.setPwr p).pwr = p := rfl

/-! ### setEng -/

@[simp] theorem State.setEng_pending (e : Engines) : (s.setEng e).pending = s.pending := rfl
@[simp] theorem State.setEng_host (e : Engines) : (s.setEng e).host = s.host := rfl
@[simp] theorem State.setEng_disp (e : Engines) : (s.setEng e).disp = s.disp := rfl
@[simp] theorem State.setEng_kr (e : Engines) : (s.setEng e).kr = s.kr := rfl
@[simp] theorem State.setEng_vault (e : Engines) : (s.setEng e).vault = s.vault := rfl
@[simp] theorem State.setEng_ent (e : Engines) : (s.setEng e).ent = s.ent := rfl
@[simp] theorem State.setEng_tam (e : Engines) : (s.setEng e).tam = s.tam := rfl
@[simp] theorem State.setEng_gate (e : Engines) : (s.setEng e).gate = s.gate := rfl
@[simp] theorem State.setEng_mesh (e : Engines) : (s.setEng e).mesh = s.mesh := rfl
@[simp] theorem State.setEng_time (e : Engines) : (s.setEng e).time = s.time := rfl
@[simp] theorem State.setEng_pwr (e : Engines) : (s.setEng e).pwr = s.pwr := rfl
@[simp] theorem State.setEng_life (e : Engines) : (s.setEng e).life = s.life := rfl
@[simp] theorem State.setEng_eng (e : Engines) : (s.setEng e).eng = e := rfl

/-! ### setSentinel -/

@[simp] theorem State.setSentinel_pending (c f : Nat) (x : Sentinel) : (s.setSentinel c f x).pending = s.pending := rfl
@[simp] theorem State.setSentinel_host (c f : Nat) (x : Sentinel) : (s.setSentinel c f x).host = s.host := rfl
@[simp] theorem State.setSentinel_disp (c f : Nat) (x : Sentinel) : (s.setSentinel c f x).disp = s.disp := rfl
@[simp] theorem State.setSentinel_kr (c f : Nat) (x : Sentinel) : (s.setSentinel c f x).kr = s.kr := rfl
@[simp] theorem State.setSentinel_vault (c f : Nat) (x : Sentinel) : (s.setSentinel c f x).vault = s.vault := rfl
@[simp] theorem State.setSentinel_ent (c f : Nat) (x : Sentinel) : (s.setSentinel c f x).ent = s.ent := rfl
@[simp] theorem State.setSentinel_tam (c f : Nat) (x : Sentinel) : (s.setSentinel c f x).tam = s.tam := rfl
@[simp] theorem State.setSentinel_gate (c f : Nat) (x : Sentinel) : (s.setSentinel c f x).gate = s.gate := rfl
@[simp] theorem State.setSentinel_mesh (c f : Nat) (x : Sentinel) : (s.setSentinel c f x).mesh = s.mesh := rfl
@[simp] theorem State.setSentinel_time (c f : Nat) (x : Sentinel) : (s.setSentinel c f x).time = s.time := rfl
@[simp] theorem State.setSentinel_pwr (c f : Nat) (x : Sentinel) : (s.setSentinel c f x).pwr = s.pwr := rfl
@[simp] theorem State.setSentinel_life (c f : Nat) (x : Sentinel) : (s.setSentinel c f x).life = s.life := rfl

/-! ### setCst -/

@[simp] theorem State.setCst_pending (c : Nat) (v : CState) : (s.setCst c v).pending = s.pending := rfl
@[simp] theorem State.setCst_host (c : Nat) (v : CState) : (s.setCst c v).host = s.host := rfl
@[simp] theorem State.setCst_disp (c : Nat) (v : CState) : (s.setCst c v).disp = s.disp := rfl
@[simp] theorem State.setCst_kr (c : Nat) (v : CState) : (s.setCst c v).kr = s.kr := rfl
@[simp] theorem State.setCst_vault (c : Nat) (v : CState) : (s.setCst c v).vault = s.vault := rfl
@[simp] theorem State.setCst_eng (c : Nat) (v : CState) : (s.setCst c v).eng = s.eng := rfl
@[simp] theorem State.setCst_ent (c : Nat) (v : CState) : (s.setCst c v).ent = s.ent := rfl
@[simp] theorem State.setCst_tam (c : Nat) (v : CState) : (s.setCst c v).tam = s.tam := rfl
@[simp] theorem State.setCst_gate (c : Nat) (v : CState) : (s.setCst c v).gate = s.gate := rfl
@[simp] theorem State.setCst_mesh (c : Nat) (v : CState) : (s.setCst c v).mesh = s.mesh := rfl
@[simp] theorem State.setCst_time (c : Nat) (v : CState) : (s.setCst c v).time = s.time := rfl
@[simp] theorem State.setCst_life (c : Nat) (v : CState) : (s.setCst c v).life = s.life := rfl

/-! ### setEnt -/

@[simp] theorem State.setEnt_pending (e : Entropy) : (s.setEnt e).pending = s.pending := rfl
@[simp] theorem State.setEnt_host (e : Entropy) : (s.setEnt e).host = s.host := rfl
@[simp] theorem State.setEnt_disp (e : Entropy) : (s.setEnt e).disp = s.disp := rfl
@[simp] theorem State.setEnt_kr (e : Entropy) : (s.setEnt e).kr = s.kr := rfl
@[simp] theorem State.setEnt_vault (e : Entropy) : (s.setEnt e).vault = s.vault := rfl
@[simp] theorem State.setEnt_eng (e : Entropy) : (s.setEnt e).eng = s.eng := rfl
@[simp] theorem State.setEnt_tam (e : Entropy) : (s.setEnt e).tam = s.tam := rfl
@[simp] theorem State.setEnt_gate (e : Entropy) : (s.setEnt e).gate = s.gate := rfl
@[simp] theorem State.setEnt_mesh (e : Entropy) : (s.setEnt e).mesh = s.mesh := rfl
@[simp] theorem State.setEnt_time (e : Entropy) : (s.setEnt e).time = s.time := rfl
@[simp] theorem State.setEnt_pwr (e : Entropy) : (s.setEnt e).pwr = s.pwr := rfl
@[simp] theorem State.setEnt_life (e : Entropy) : (s.setEnt e).life = s.life := rfl
@[simp] theorem State.setEnt_ent (e : Entropy) : (s.setEnt e).ent = e := rfl

/-! ### setLife -/

@[simp] theorem State.setLife_pending (l : Life) : (s.setLife l).pending = s.pending := rfl
@[simp] theorem State.setLife_host (l : Life) : (s.setLife l).host = s.host := rfl
@[simp] theorem State.setLife_disp (l : Life) : (s.setLife l).disp = s.disp := rfl
@[simp] theorem State.setLife_kr (l : Life) : (s.setLife l).kr = s.kr := rfl
@[simp] theorem State.setLife_vault (l : Life) : (s.setLife l).vault = s.vault := rfl
@[simp] theorem State.setLife_eng (l : Life) : (s.setLife l).eng = s.eng := rfl
@[simp] theorem State.setLife_ent (l : Life) : (s.setLife l).ent = s.ent := rfl
@[simp] theorem State.setLife_tam (l : Life) : (s.setLife l).tam = s.tam := rfl
@[simp] theorem State.setLife_gate (l : Life) : (s.setLife l).gate = s.gate := rfl
@[simp] theorem State.setLife_mesh (l : Life) : (s.setLife l).mesh = s.mesh := rfl
@[simp] theorem State.setLife_time (l : Life) : (s.setLife l).time = s.time := rfl
@[simp] theorem State.setLife_pwr (l : Life) : (s.setLife l).pwr = s.pwr := rfl
@[simp] theorem State.setLife_life (l : Life) : (s.setLife l).life = l := rfl

/-! ### setHs -/

@[simp] theorem State.setHs_pending (k : Nat) (x : Shake) : (s.setHs k x).pending = s.pending := rfl
@[simp] theorem State.setHs_host (k : Nat) (x : Shake) : (s.setHs k x).host = s.host := rfl
@[simp] theorem State.setHs_disp (k : Nat) (x : Shake) : (s.setHs k x).disp = s.disp := rfl
@[simp] theorem State.setHs_kr (k : Nat) (x : Shake) : (s.setHs k x).kr = s.kr := rfl
@[simp] theorem State.setHs_vault (k : Nat) (x : Shake) : (s.setHs k x).vault = s.vault := rfl
@[simp] theorem State.setHs_eng (k : Nat) (x : Shake) : (s.setHs k x).eng = s.eng := rfl
@[simp] theorem State.setHs_ent (k : Nat) (x : Shake) : (s.setHs k x).ent = s.ent := rfl
@[simp] theorem State.setHs_tam (k : Nat) (x : Shake) : (s.setHs k x).tam = s.tam := rfl
@[simp] theorem State.setHs_gate (k : Nat) (x : Shake) : (s.setHs k x).gate = s.gate := rfl
@[simp] theorem State.setHs_time (k : Nat) (x : Shake) : (s.setHs k x).time = s.time := rfl
@[simp] theorem State.setHs_pwr (k : Nat) (x : Shake) : (s.setHs k x).pwr = s.pwr := rfl
@[simp] theorem State.setHs_life (k : Nat) (x : Shake) : (s.setHs k x).life = s.life := rfl

/-! ### setFwd -/

@[simp] theorem State.setFwd_pending (f : Fwd) : (s.setFwd f).pending = s.pending := rfl
@[simp] theorem State.setFwd_host (f : Fwd) : (s.setFwd f).host = s.host := rfl
@[simp] theorem State.setFwd_disp (f : Fwd) : (s.setFwd f).disp = s.disp := rfl
@[simp] theorem State.setFwd_kr (f : Fwd) : (s.setFwd f).kr = s.kr := rfl
@[simp] theorem State.setFwd_vault (f : Fwd) : (s.setFwd f).vault = s.vault := rfl
@[simp] theorem State.setFwd_eng (f : Fwd) : (s.setFwd f).eng = s.eng := rfl
@[simp] theorem State.setFwd_ent (f : Fwd) : (s.setFwd f).ent = s.ent := rfl
@[simp] theorem State.setFwd_tam (f : Fwd) : (s.setFwd f).tam = s.tam := rfl
@[simp] theorem State.setFwd_gate (f : Fwd) : (s.setFwd f).gate = s.gate := rfl
@[simp] theorem State.setFwd_time (f : Fwd) : (s.setFwd f).time = s.time := rfl
@[simp] theorem State.setFwd_pwr (f : Fwd) : (s.setFwd f).pwr = s.pwr := rfl
@[simp] theorem State.setFwd_life (f : Fwd) : (s.setFwd f).life = s.life := rfl

/-! ### setHeld -/

@[simp] theorem State.setHeld_pending (h : Held) : (s.setHeld h).pending = s.pending := rfl
@[simp] theorem State.setHeld_host (h : Held) : (s.setHeld h).host = s.host := rfl
@[simp] theorem State.setHeld_disp (h : Held) : (s.setHeld h).disp = s.disp := rfl
@[simp] theorem State.setHeld_kr (h : Held) : (s.setHeld h).kr = s.kr := rfl
@[simp] theorem State.setHeld_vault (h : Held) : (s.setHeld h).vault = s.vault := rfl
@[simp] theorem State.setHeld_eng (h : Held) : (s.setHeld h).eng = s.eng := rfl
@[simp] theorem State.setHeld_ent (h : Held) : (s.setHeld h).ent = s.ent := rfl
@[simp] theorem State.setHeld_tam (h : Held) : (s.setHeld h).tam = s.tam := rfl
@[simp] theorem State.setHeld_gate (h : Held) : (s.setHeld h).gate = s.gate := rfl
@[simp] theorem State.setHeld_time (h : Held) : (s.setHeld h).time = s.time := rfl
@[simp] theorem State.setHeld_pwr (h : Held) : (s.setHeld h).pwr = s.pwr := rfl
@[simp] theorem State.setHeld_life (h : Held) : (s.setHeld h).life = s.life := rfl

/-! ### Reading back -/

@[simp] theorem State.gateOf_setGate (g : Nat) (x : Gate) : (s.setGate g x).gateOf g = x := by simp [State.gateOf, State.setGate]
theorem State.gateOf_setGate_ne {g j : Nat} (x : Gate) (h : j ≠ g) : (s.setGate g x).gateOf j = s.gateOf j := by
  simp [State.gateOf, State.setGate, mget_mset_ne _ _ _ h]
@[simp] theorem State.arb_setArb (a : Nat) (x : Arb) : (s.setArb a x).arb a = x := by simp [State.arb, State.setArb]
theorem State.arb_setArb_ne {a j : Nat} (x : Arb) (h : j ≠ a) : (s.setArb a x).arb j = s.arb j := by
  simp [State.arb, State.setArb, mget_mset_ne _ _ _ h]
@[simp] theorem State.domain_setDomain (d : Nat) (x : Domain) : (s.setDomain d x).domain d = x := by simp [State.domain, State.setDomain]
theorem State.domain_setDomain_ne {d j : Nat} (x : Domain) (h : j ≠ d) : (s.setDomain d x).domain j = s.domain j := by
  simp [State.domain, State.setDomain, mget_mset_ne _ _ _ h]
@[simp] theorem State.expander_setExpander (c : Nat) (x : Expander) : (s.setExpander c x).expander c = x := by simp [State.expander, State.setExpander]
theorem State.expander_setExpander_ne {c j : Nat} (x : Expander) (h : j ≠ c) : (s.setExpander c x).expander j = s.expander j := by
  simp [State.expander, State.setExpander, mget_mset_ne _ _ _ h]
@[simp] theorem State.port_setPort (p : Nat) (x : Port) : (s.setPort p x).port p = x := by simp [State.port, State.setPort]
theorem State.port_setPort_ne {p j : Nat} (x : Port) (h : j ≠ p) : (s.setPort p x).port j = s.port j := by
  simp [State.port, State.setPort, mget_mset_ne _ _ _ h]
@[simp] theorem State.slot_setSlot (i : Nat) (x : Slot) : (s.setSlot i x).slot i = x := by simp [State.slot, State.setSlot]
theorem State.slot_setSlot_ne {i j : Nat} (x : Slot) (h : j ≠ i) : (s.setSlot i x).slot j = s.slot j := by
  simp [State.slot, State.setSlot, mget_mset_ne _ _ _ h]
@[simp] theorem State.cpage_setCpage (k : Nat) (x : CPage) : (s.setCpage k x).cpage k = x := by simp [State.cpage, State.setCpage]
theorem State.cpage_setCpage_ne {k j : Nat} (x : CPage) (h : j ≠ k) : (s.setCpage k x).cpage j = s.cpage j := by
  simp [State.cpage, State.setCpage, mget_mset_ne _ _ _ h]
@[simp] theorem State.dpage_setDpage (k : Nat) (x : DPage) : (s.setDpage k x).dpage k = x := by simp [State.dpage, State.setDpage]
theorem State.dpage_setDpage_ne {k j : Nat} (x : DPage) (h : j ≠ k) : (s.setDpage k x).dpage j = s.dpage j := by
  simp [State.dpage, State.setDpage, mget_mset_ne _ _ _ h]
@[simp] theorem State.ctx_setCtx (k : Nat) (x : Ctx) : (s.setCtx k x).ctx k = x := by simp [State.ctx, State.setCtx]
theorem State.ctx_setCtx_ne {k j : Nat} (x : Ctx) (h : j ≠ k) : (s.setCtx k x).ctx j = s.ctx j := by
  simp [State.ctx, State.setCtx, mget_mset_ne _ _ _ h]
@[simp] theorem State.part_setPart (p : Nat) (x : Part) : (s.setPart p x).part p = x := by simp [State.part, State.setPart]
theorem State.part_setPart_ne {p j : Nat} (x : Part) (h : j ≠ p) : (s.setPart p x).part j = s.part j := by
  simp [State.part, State.setPart, mget_mset_ne _ _ _ h]
@[simp] theorem State.func_setFunc (n : Nat) (x : Func) : (s.setFunc n x).func n = x := by simp [State.func, State.setFunc]
theorem State.func_setFunc_ne {n j : Nat} (x : Func) (h : j ≠ n) : (s.setFunc n x).func j = s.func j := by
  simp [State.func, State.setFunc, mget_mset_ne _ _ _ h]
@[simp] theorem State.page_setPage (n : Nat) (x : VPage) : (s.setPage n x).page n = x := by simp [State.page, State.setPage]
theorem State.page_setPage_ne {n j : Nat} (x : VPage) (h : j ≠ n) : (s.setPage n x).page j = s.page j := by
  simp [State.page, State.setPage, mget_mset_ne _ _ _ h]
@[simp] theorem State.cst_setCst (c : Nat) (x : CState) : (s.setCst c x).cst c = x := by simp [State.cst, State.setCst]
theorem State.cst_setCst_ne {c j : Nat} (x : CState) (h : j ≠ c) : (s.setCst c x).cst j = s.cst j := by
  simp [State.cst, State.setCst, mget_mset_ne _ _ _ h]

@[simp] theorem State.ring_setRing (n r : Nat) (x : Ring) : (s.setRing n r x).ring n r = x := by
  simp [State.ring, State.setRing, Func.ring]

theorem State.ring_setRing_ne {n r m q : Nat} (x : Ring) (h : ¬(m = n ∧ q = r)) : (s.setRing n r x).ring m q = s.ring m q := by
  unfold State.ring State.setRing
  by_cases hm : m = n
  · subst hm
    rw [State.func_setFunc]
    exact mget_mset_ne _ _ _ fun e => h ⟨rfl, e⟩
  · rw [State.func_setFunc_ne s _ hm]

end Sys2Proof.Machine
end

