-- ==== Sys2Proof/Laws/Host.lean ====
section
/-! SUPPORT. What the shared operations of the host interface do: interrupts, event bits, a mailbox command's end, and the check
of a host request. -/

namespace Sys2Proof.Machine

variable (s : State)

theorem setFlag_getLsbD {n : Nat} (f : BitVec n) (i k : Nat) (h : k < n) :
    (setFlag f i).getLsbD k = (f.getLsbD k || decide (k = i)) := by
  simp only [setFlag, BitVec.getLsbD_or, BitVec.getLsbD_ofNat, h, decide_true, Bool.true_and, Nat.testBit_two_pow]
  by_cases hk : i = k <;> simp [hk, eq_comm]

theorem setFlag_of_set {n : Nat} (f : BitVec n) (i : Nat) (h : f.getLsbD i = true) : setFlag f i = f := by
  apply BitVec.eq_of_getLsbD_eq
  intro k hk
  rw [setFlag_getLsbD _ _ _ hk]
  by_cases e : k = i
  · subst e; simp [h]
  · simp [e]

/-! ### What a vector leaves alone -/

theorem State.sendVector_host (n v : Nat) :
    ∃ f p, s.sendVector n v = { s with host := { s.host with funcs := f, posted := s.host.posted ++ p } } := by
  unfold State.sendVector
  split
  · exact ⟨s.host.funcs, [], by simp⟩
  · simp only
    split
    · exact ⟨_, [], by simp [State.setFunc]; rfl⟩
    · exact ⟨_, _, rfl⟩

theorem State.raiseEvt_host (n i : Nat) :
    ∃ f p, s.raiseEvt n i = { s with host := { s.host with funcs := f, posted := s.host.posted ++ p } } := by
  unfold State.raiseEvt
  simp only
  split
  · exact ⟨s.host.funcs, [], by simp⟩
  · split
    · obtain ⟨f, p, h⟩ := State.sendVector_host (s.setFunc n { s.func n with evtStat := setFlag (s.func n).evtStat i }) n 8
      exact ⟨f, p, by rw [h]; rfl⟩
    · exact ⟨_, [], by simp [State.setFunc]; rfl⟩

/-- The functions after a vector: only pending bits of its own function change. -/
theorem State.sendVector_func (n v m : Nat) :
    ∃ p, (s.sendVector n v).func m = { s.func m with pba := p } ∧ (m ≠ n → p = (s.func m).pba) := by
  unfold State.sendVector
  split
  · exact ⟨_, rfl, fun _ => rfl⟩
  · simp only
    split
    · by_cases h : m = n
      · subst h; exact ⟨_, by rw [State.func_setFunc], fun h => absurd rfl h⟩
      · exact ⟨(s.func m).pba, by rw [State.func_setFunc_ne _ _ h], fun _ => rfl⟩
    · exact ⟨(s.func m).pba, rfl, fun _ => rfl⟩

/-- The function whose event bit is raised. -/
theorem State.raiseEvt_func (n i : Nat) :
    ∃ p, (s.raiseEvt n i).func n = { s.func n with evtStat := setFlag (s.func n).evtStat i, pba := p } := by
  unfold State.raiseEvt
  simp only
  split
  · rename_i h
    exact ⟨(s.func n).pba, by rw [setFlag_of_set _ _ h]⟩
  · split
    · obtain ⟨p, h, -⟩ := State.sendVector_func (s.setFunc n { s.func n with evtStat := setFlag (s.func n).evtStat i }) n 8 n
      exact ⟨p, by rw [h, State.func_setFunc]⟩
    · exact ⟨(s.func n).pba, by rw [State.func_setFunc]⟩

theorem State.raiseEvt_func_ne (n i : Nat) {m : Nat} (hm : m ≠ n) : (s.raiseEvt n i).func m = s.func m := by
  unfold State.raiseEvt
  simp only
  split
  · rfl
  · split
    · obtain ⟨p, h, hp⟩ := State.sendVector_func (s.setFunc n { s.func n with evtStat := setFlag (s.func n).evtStat i }) n 8 m
      rw [h, hp hm, State.func_setFunc_ne _ _ hm]
    · rw [State.func_setFunc_ne _ _ hm]

theorem State.raiseEvt_ring (n i m r : Nat) : (s.raiseEvt n i).ring m r = s.ring m r := by
  by_cases h : m = n
  · subst h
    obtain ⟨p, h⟩ := s.raiseEvt_func m i
    simp only [State.ring, h, Func.ring]
  · simp only [State.ring, s.raiseEvt_func_ne n i h]

/-- An event bit that rises while it is unmasked sends vector 8 where that is not masked (02 R53). -/
theorem State.raiseEvt_posted (n i : Nat) (h0 : (s.func n).evtStat.getLsbD i = false) (h1 : (s.func n).evtMask.getLsbD i = true)
    (h2 : (mget (s.func n).msix 8 {}).mask = false) :
    (s.raiseEvt n i).host.posted
      = s.host.posted ++ [.msix n 8 (mget (s.func n).msix 8 {}).addr.toNat (mget (s.func n).msix 8 {}).data] := by
  unfold State.raiseEvt
  simp only [h0, h1, if_true, Bool.false_eq_true, if_false]
  unfold State.sendVector
  simp only [State.func_setFunc, h2, Bool.false_eq_true, if_false]
  rfl

/-! ### A mailbox command's end -/

theorem State.mboxEnd_host (n code : Nat) (st : Word16) :
    ∃ f p, s.mboxEnd n code st = { s with host := { s.host with funcs := f, posted := s.host.posted ++ p } } := by
  unfold State.mboxEnd
  obtain ⟨f, p, h⟩ := State.raiseEvt_host (s.setFunc n { s.func n with mboxRun := none, mboxResult := BitVec.ofNat 32 (at' code 16 + st.toNat) }) n evMbox
  exact ⟨f, p, by rw [h]; rfl⟩

theorem State.mboxEnd_func (n code : Nat) (st : Word16) :
    ∃ p, (s.mboxEnd n code st).func n
      = { s.func n with mboxRun := none, mboxResult := BitVec.ofNat 32 (at' code 16 + st.toNat),
                        evtStat := setFlag (s.func n).evtStat evMbox, pba := p } := by
  unfold State.mboxEnd
  obtain ⟨p, h⟩ := State.raiseEvt_func (s.setFunc n { s.func n with mboxRun := none, mboxResult := BitVec.ofNat 32 (at' code 16 + st.toNat) }) n evMbox
  exact ⟨p, by rw [h, State.func_setFunc]⟩

theorem State.mboxEnd_func_ne (n code : Nat) (st : Word16) {m : Nat} (hm : m ≠ n) : (s.mboxEnd n code st).func m = s.func m := by
  unfold State.mboxEnd
  rw [State.raiseEvt_func_ne _ _ _ hm, State.func_setFunc_ne _ _ hm]

theorem State.mboxEnd_ring (n code : Nat) (st : Word16) (m r : Nat) : (s.mboxEnd n code st).ring m r = s.ring m r := by
  by_cases h : m = n
  · subst h
    obtain ⟨p, h⟩ := s.mboxEnd_func m code st
    simp only [State.ring, h, Func.ring]
  · simp only [State.ring, s.mboxEnd_func_ne n code st h]

/-! ### A host request's check -/

theorem State.checkHost_pass (master p : Nat) (old : Bool) (a len : Nat) (write : Bool) (h : s.hostPasses p old a len write = true) :
    s.checkHost master p old a len write = (s, true) := by
  unfold State.hostPasses at h
  unfold State.checkHost
  split
  · rfl
  · rename_i e; simp [e] at h

theorem State.checkHost_refuse (master p : Nat) (old : Bool) (a len : Nat) (write : Bool) (h : s.hostPasses p old a len write = false) :
    ∃ f g, s.checkHost master p old a len write = (s.noteRefusal 0 master f write g p, false) := by
  unfold State.hostPasses at h
  unfold State.checkHost
  split
  · rename_i e; simp [e] at h
  · exact ⟨_, _, rfl⟩

end Sys2Proof.Machine
end

