-- ==== Sys2Proof/Laws/Outcome.lean ====
section
/-! SUPPORT. What a command's answer is made of: the state it leads to, with the queue kept and the board controller's bits added. -/

namespace Sys2Proof.Machine

variable (s t : State)

@[simp] theorem State.settled_pending : (s.settled t).pending = s.pending := rfl
@[simp] theorem State.settled_host : (s.settled t).host = t.host := rfl
@[simp] theorem State.settled_disp : (s.settled t).disp = t.disp := rfl
@[simp] theorem State.settled_kr : (s.settled t).kr = t.kr := rfl
@[simp] theorem State.settled_vault : (s.settled t).vault = t.vault := rfl
@[simp] theorem State.settled_eng : (s.settled t).eng = t.eng := rfl
@[simp] theorem State.settled_ent : (s.settled t).ent = t.ent := rfl
@[simp] theorem State.settled_tam : (s.settled t).tam = t.tam := rfl
@[simp] theorem State.settled_gate : (s.settled t).gate = t.gate := rfl
@[simp] theorem State.settled_mesh : (s.settled t).mesh = t.mesh := rfl
@[simp] theorem State.settled_time : (s.settled t).time = t.time := rfl
@[simp] theorem State.settled_pwr : (s.settled t).pwr = t.pwr := rfl
@[simp] theorem State.settled_life_st : (s.settled t).life.st = t.life.st := rfl
@[simp] theorem State.settled_life_boot : (s.settled t).life.boot = t.life.boot := rfl
@[simp] theorem State.settled_life_ownerKey : (s.settled t).life.ownerKey = t.life.ownerKey := rfl
@[simp] theorem State.settled_life_cmdSeq : (s.settled t).life.cmdSeq = t.life.cmdSeq := rfl
@[simp] theorem State.settled_life_active : (s.settled t).life.active = t.life.active := rfl
@[simp] theorem State.settled_life_imageA : (s.settled t).life.imageA = t.life.imageA := rfl
@[simp] theorem State.settled_life_imageB : (s.settled t).life.imageB = t.life.imageB := rfl
@[simp] theorem State.settled_life_running : (s.settled t).life.running = t.life.running := rfl
@[simp] theorem State.settled_life_svnFloor : (s.settled t).life.svnFloor = t.life.svnFloor := rfl
@[simp] theorem State.settled_life_key0Revoked : (s.settled t).life.key0Revoked = t.life.key0Revoked := rfl
@[simp] theorem State.settled_life_fwNone : (s.settled t).life.fwNone = t.life.fwNone := rfl
@[simp] theorem State.settled_life_activating : (s.settled t).life.activating = t.life.activating := rfl
@[simp] theorem State.settled_life_updatePause : (s.settled t).life.updatePause = t.life.updatePause := rfl
@[simp] theorem State.settled_life_dbgEn : (s.settled t).life.dbgEn = t.life.dbgEn := rfl
@[simp] theorem State.settled_life_session : (s.settled t).life.session = t.life.session := rfl
@[simp] theorem State.settled_life_tokenResult : (s.settled t).life.tokenResult = t.life.tokenResult := rfl
@[simp] theorem State.settled_life_devNonce : (s.settled t).life.devNonce = t.life.devNonce := rfl
@[simp] theorem State.settled_life_token : (s.settled t).life.token = t.life.token := rfl
@[simp] theorem State.settled_life_runControl : (s.settled t).life.runControl = t.life.runControl := rfl
@[simp] theorem State.settled_life_tokenFails : (s.settled t).life.tokenFails = t.life.tokenFails := rfl
@[simp] theorem State.settled_life_straps : (s.settled t).life.straps = t.life.straps := rfl
@[simp] theorem State.settled_life_sysRstN : (s.settled t).life.sysRstN = t.life.sysRstN := rfl
@[simp] theorem State.settled_life_perstN : (s.settled t).life.perstN = t.life.perstN := rfl
@[simp] theorem State.settled_life_mainPower : (s.settled t).life.mainPower = t.life.mainPower := rfl
@[simp] theorem State.settled_life_pulses : (s.settled t).life.pulses = t.life.pulses := rfl
@[simp] theorem State.settled_life_recipes : (s.settled t).life.recipes = t.life.recipes := rfl
@[simp] theorem State.settled_life_rversions : (s.settled t).life.rversions = t.life.rversions := rfl
@[simp] theorem State.settled_newItems : (s.settled t).life.newItems = t.life.newItems ||| s.changed t := rfl

theorem answer_eq (s t : State) : answer s t = .next (s.settled t) := rfl

/-! ### Readers of the settled state -/

@[simp] theorem State.settled_func (n : Nat) : (s.settled t).func n = t.func n := rfl
@[simp] theorem State.settled_ring (n r : Nat) : (s.settled t).ring n r = t.ring n r := rfl
@[simp] theorem State.settled_part (p : Nat) : (s.settled t).part p = t.part p := rfl
@[simp] theorem State.settled_gateOf (g : Nat) : (s.settled t).gateOf g = t.gateOf g := rfl
@[simp] theorem State.settled_arb (a : Nat) : (s.settled t).arb a = t.arb a := rfl
@[simp] theorem State.settled_domain (d : Nat) : (s.settled t).domain d = t.domain d := rfl
@[simp] theorem State.settled_expander (c : Nat) : (s.settled t).expander c = t.expander c := rfl
@[simp] theorem State.settled_port (p : Nat) : (s.settled t).port p = t.port p := rfl
@[simp] theorem State.settled_slot (i : Nat) : (s.settled t).slot i = t.slot i := rfl
@[simp] theorem State.settled_page (n : Nat) : (s.settled t).page n = t.page n := rfl
@[simp] theorem State.settled_cpage (k : Nat) : (s.settled t).cpage k = t.cpage k := rfl
@[simp] theorem State.settled_dpage (k : Nat) : (s.settled t).dpage k = t.dpage k := rfl
@[simp] theorem State.settled_ctx (k : Nat) : (s.settled t).ctx k = t.ctx k := rfl
@[simp] theorem State.settled_cst (c : Nat) : (s.settled t).cst c = t.cst c := rfl
@[simp] theorem State.settled_desc (d : Nat) : (s.settled t).desc d = t.desc d := rfl
@[simp] theorem State.settled_sentinel (c f : Nat) : (s.settled t).sentinel c f = t.sentinel c f := rfl
@[simp] theorem State.settled_shakeOf (k : Nat) : (s.settled t).shakeOf k = t.shakeOf k := rfl

end Sys2Proof.Machine
end

