-- ==== Sys2Proof/Laws/Frames.lean ====
section
/-! SUPPORT. Frames: which units the shared operations leave alone. `keeps` is reflexive and transitive, and every operation's lemma
names the units it can change. -/

namespace Sys2Proof.Machine

variable {s t u : State} {l l' : List Area}

theorem State.keeps.refl (s : State) (l : List Area) : s.keeps s l :=
  ⟨fun _ => rfl, fun _ => rfl, fun _ => rfl, fun _ => rfl, fun _ => rfl, fun _ => rfl, fun _ => rfl, fun _ => rfl, fun _ => rfl,
    fun _ => rfl, fun _ => rfl, fun _ => rfl⟩

theorem State.keeps.trans (h : s.keeps t l) (k : t.keeps u l) : s.keeps u l := by
  obtain ⟨a1, a2, a3, a4, a5, a6, a7, a8, a9, a10, a11, a12⟩ := h
  obtain ⟨b1, b2, b3, b4, b5, b6, b7, b8, b9, b10, b11, b12⟩ := k
  refine ⟨fun m => (b1 m).trans (a1 m), fun m => (b2 m).trans (a2 m), fun m => (b3 m).trans (a3 m), fun m => (b4 m).trans (a4 m),
    fun m => (b5 m).trans (a5 m), fun m => (b6 m).trans (a6 m), fun m => (b7 m).trans (a7 m), fun m => (b8 m).trans (a8 m),
    fun m => (b9 m).trans (a9 m), fun m => (b10 m).trans (a10 m), fun m => (b11 m).trans (a11 m), fun m => ?_⟩
  have h1 := a12 m
  have h2 := b12 m
  rw [← h1, ← h2]

theorem State.keeps.mono (h : s.keeps t l) (hl : ∀ a ∈ l, a ∈ l') : s.keeps t l' := by
  obtain ⟨a1, a2, a3, a4, a5, a6, a7, a8, a9, a10, a11, a12⟩ := h
  exact ⟨fun m => a1 (fun z => m (hl _ z)), fun m => a2 (fun z => m (hl _ z)), fun m => a3 (fun z => m (hl _ z)),
    fun m => a4 (fun z => m (hl _ z)), fun m => a5 (fun z => m (hl _ z)), fun m => a6 (fun z => m (hl _ z)),
    fun m => a7 (fun z => m (hl _ z)), fun m => a8 (fun z => m (hl _ z)), fun m => a9 (fun z => m (hl _ z)),
    fun m => a10 (fun z => m (hl _ z)), fun m => a11 (fun z => m (hl _ z)), fun m => a12 (fun z => m (hl _ z))⟩

theorem State.keeps.settled (h : s.keeps t l) : s.keeps (s.settled t) l := by
  obtain ⟨a, b, c, d, e, f, g, h, i, j, k, l⟩ := h
  exact ⟨a, b, c, d, e, f, g, h, i, j, k, l⟩

theorem State.keeps.fold {α : Type} {f : State → α → State} (h : ∀ (s : State) (a : α), s.keeps (f s a) l) (as : List α) (s : State) :
    s.keeps (as.foldl f s) l := by
  induction as generalizing s with
  | nil => exact .refl s l
  | cons a r ih => exact (h s a).trans (ih _)

theorem State.keeps.ite {p : Prop} [Decidable p] (h : s.keeps t l) (k : s.keeps u l) : s.keeps (if p then t else u) l := by
  split <;> assumption

/-! ### One unit replaced -/

theorem keeps_host (s : State) (x : HostIf) (h : .host ∈ l) : s.keeps { s with host := x } l :=
  ⟨fun m => absurd h m, fun _ => rfl, fun _ => rfl, fun _ => rfl, fun _ => rfl, fun _ => rfl, fun _ => rfl, fun _ => rfl, fun _ => rfl,
    fun _ => rfl, fun _ => rfl, fun _ => rfl⟩

theorem keeps_disp (s : State) (x : Disp) (h : .disp ∈ l) : s.keeps { s with disp := x } l :=
  ⟨fun _ => rfl, fun m => absurd h m, fun _ => rfl, fun _ => rfl, fun _ => rfl, fun _ => rfl, fun _ => rfl, fun _ => rfl, fun _ => rfl,
    fun _ => rfl, fun _ => rfl, fun _ => rfl⟩

theorem keeps_kr (s : State) (x : KeyReg) (h : .kr ∈ l) : s.keeps { s with kr := x } l :=
  ⟨fun _ => rfl, fun _ => rfl, fun m => absurd h m, fun _ => rfl, fun _ => rfl, fun _ => rfl, fun _ => rfl, fun _ => rfl, fun _ => rfl,
    fun _ => rfl, fun _ => rfl, fun _ => rfl⟩

theorem keeps_vault (s : State) (x : Vault) (h : .vault ∈ l) : s.keeps { s with vault := x } l :=
  ⟨fun _ => rfl, fun _ => rfl, fun _ => rfl, fun m => absurd h m, fun _ => rfl, fun _ => rfl, fun _ => rfl, fun _ => rfl, fun _ => rfl,
    fun _ => rfl, fun _ => rfl, fun _ => rfl⟩

theorem keeps_eng (s : State) (x : Engines) (h : .eng ∈ l) : s.keeps { s with eng := x } l :=
  ⟨fun _ => rfl, fun _ => rfl, fun _ => rfl, fun _ => rfl, fun m => absurd h m, fun _ => rfl, fun _ => rfl, fun _ => rfl, fun _ => rfl,
    fun _ => rfl, fun _ => rfl, fun _ => rfl⟩

theorem keeps_ent (s : State) (x : Entropy) (h : .ent ∈ l) : s.keeps { s with ent := x } l :=
  ⟨fun _ => rfl, fun _ => rfl, fun _ => rfl, fun _ => rfl, fun _ => rfl, fun m => absurd h m, fun _ => rfl, fun _ => rfl, fun _ => rfl,
    fun _ => rfl, fun _ => rfl, fun _ => rfl⟩

theorem keeps_tam (s : State) (x : Tamper) (h : .tam ∈ l) : s.keeps { s with tam := x } l :=
  ⟨fun _ => rfl, fun _ => rfl, fun _ => rfl, fun _ => rfl, fun _ => rfl, fun _ => rfl, fun m => absurd h m, fun _ => rfl, fun _ => rfl,
    fun _ => rfl, fun _ => rfl, fun _ => rfl⟩

theorem keeps_gate (s : State) (x : Gates) (h : .gate ∈ l) : s.keeps { s with gate := x } l :=
  ⟨fun _ => rfl, fun _ => rfl, fun _ => rfl, fun _ => rfl, fun _ => rfl, fun _ => rfl, fun _ => rfl, fun m => absurd h m, fun _ => rfl,
    fun _ => rfl, fun _ => rfl, fun _ => rfl⟩

theorem keeps_mesh (s : State) (x : Mesh) (h : .mesh ∈ l) : s.keeps { s with mesh := x } l :=
  ⟨fun _ => rfl, fun _ => rfl, fun _ => rfl, fun _ => rfl, fun _ => rfl, fun _ => rfl, fun _ => rfl, fun _ => rfl, fun m => absurd h m,
    fun _ => rfl, fun _ => rfl, fun _ => rfl⟩

theorem keeps_time (s : State) (x : Time) (h : .time ∈ l) : s.keeps { s with time := x } l :=
  ⟨fun _ => rfl, fun _ => rfl, fun _ => rfl, fun _ => rfl, fun _ => rfl, fun _ => rfl, fun _ => rfl, fun _ => rfl, fun _ => rfl,
    fun m => absurd h m, fun _ => rfl, fun _ => rfl⟩

theorem keeps_pwr (s : State) (x : Power) (h : .pwr ∈ l) : s.keeps { s with pwr := x } l :=
  ⟨fun _ => rfl, fun _ => rfl, fun _ => rfl, fun _ => rfl, fun _ => rfl, fun _ => rfl, fun _ => rfl, fun _ => rfl, fun _ => rfl,
    fun _ => rfl, fun m => absurd h m, fun _ => rfl⟩

theorem keeps_life (s : State) (x : Life) (h : .life ∈ l) : s.keeps { s with life := x } l :=
  ⟨fun _ => rfl, fun _ => rfl, fun _ => rfl, fun _ => rfl, fun _ => rfl, fun _ => rfl, fun _ => rfl, fun _ => rfl, fun _ => rfl,
    fun _ => rfl, fun _ => rfl, fun m => absurd h m⟩

theorem State.sameBut_settled (s : State) : s.sameBut (s.settled s) := rfl

/-! ### Host side -/

theorem keeps_checkHost (s : State) (m p : Nat) (old : Bool) (a n : Nat) (w : Bool) :
    s.keeps (s.checkHost m p old a n w).1 [.gate] := by
  unfold State.checkHost
  split
  · exact .refl _ _
  · exact keeps_gate s _ (by decide)

theorem keeps_writeExtents (r : DRec) (es : List (Nat × Nat)) : ∀ (s : State) (b : Bytes), s.keeps (s.writeExtents r es b) [.host, .gate] := by
  induction es with
  | nil => intro s b; exact .refl _ _
  | cons e es ih =>
    intro s b
    have h := keeps_checkHost s r.master r.fn r.oldWin e.1 e.2 true
    have e0 : s.writeExtents r (e :: es) b = (if (s.checkHost r.master r.fn r.oldWin e.1 e.2 true).2 then
        (s.checkHost r.master r.fn r.oldWin e.1 e.2 true).1.postWrite r.fn e.1 (b.take e.2) else
        (s.checkHost r.master r.fn r.oldWin e.1 e.2 true).1).writeExtents r es (b.drop e.2) := rfl
    rw [e0]
    refine (h.mono (l' := [.host, .gate]) (by decide)).trans (State.keeps.trans ?_ (ih _ _))
    split
    · exact keeps_host _ _ (by decide)
    · exact .refl _ _

/-- Writing extents changes nothing of the functions and their rings. -/
theorem writeExtents_funcs (r : DRec) (es : List (Nat × Nat)) : ∀ (s : State) (b : Bytes), (s.writeExtents r es b).host.funcs = s.host.funcs := by
  induction es with
  | nil => intro s b; rfl
  | cons e es ih =>
    intro s b
    have h := (keeps_checkHost s r.master r.fn r.oldWin e.1 e.2 true).1 (by decide)
    have e0 : s.writeExtents r (e :: es) b = (if (s.checkHost r.master r.fn r.oldWin e.1 e.2 true).2 then
        (s.checkHost r.master r.fn r.oldWin e.1 e.2 true).1.postWrite r.fn e.1 (b.take e.2) else
        (s.checkHost r.master r.fn r.oldWin e.1 e.2 true).1).writeExtents r es (b.drop e.2) := rfl
    rw [e0, ih]
    split
    · show (State.checkHost s r.master r.fn r.oldWin e.1 e.2 true).1.host.funcs = _
      rw [h]
    · rw [h]

/-! ### Locks -/

theorem keeps_givePages (who c e p : Nat) (ns : List Nat) : ∀ s : State, s.keeps (s.givePages who c e p ns).1 [.eng] := by
  induction ns with
  | nil => intro s; exact .refl _ _
  | cons n r ih =>
    intro s
    unfold State.givePages
    simp only
    refine State.keeps.trans ?_ (ih _)
    split <;> exact keeps_eng s _ (by decide)

theorem keeps_grantOpen (s : State) (o : OpenReq) : s.keeps (s.grantOpen o) [.eng] := by
  unfold State.grantOpen
  simp only
  have h := keeps_givePages o.who o.cl o.eng o.part (((s.closedPages o.cl o.eng o.part).take o.count))
    ({ s with eng := { s.eng with opens := s.eng.opens.erase o } } : State)
  have h0 : s.keeps ({ s with eng := { s.eng with opens := s.eng.opens.erase o } } : State) [.eng] := keeps_eng s _ (by decide)
  split
  · exact (h0.trans h).trans ((keeps_eng _ _ (by decide)).trans (keeps_eng _ _ (by decide)))
  · exact (h0.trans h).trans (keeps_eng _ _ (by decide))

theorem keeps_serveOpens (c e p n : Nat) : ∀ s : State, s.keeps (s.serveOpens c e p n) [.eng] := by
  induction n with
  | zero => intro s; exact .refl _ _
  | succ n ih =>
    intro s
    unfold State.serveOpens
    split
    · exact .refl _ _
    · split
      · exact (keeps_grantOpen s _).trans (ih _)
      · exact .refl _ _

theorem keeps_dropPage (s : State) (c e p n : Nat) (ab : Bool) : s.keeps (s.dropPage c e p n ab) [.eng, .kr] := by
  unfold State.dropPage State.serveEngine
  simp only
  refine State.keeps.trans ?_ ((keeps_serveOpens ..).mono (by decide))
  have h1 : s.keeps (s.withdrawReq c e fun q => q.part == p && q.page == n) [.eng, .kr] := keeps_eng s _ (by decide)
  have h2 : ∀ z : State, z.keeps (if ab = true then z.setCpage (pageKey c e p n) { state := .abandoned }
      else { z with eng := { z.eng with pages := mdel z.eng.pages (pageKey c e p n) } }) [.eng, .kr] := by
    intro z; split <;> exact keeps_eng z _ (by decide)
  exact (h1.trans (keeps_kr _ _ (by decide))).trans (h2 _)

theorem keeps_dpageMisused (s : State) (k : Nat) : s.keeps (s.dpageMisused k) [.eng] :=
  ((keeps_eng s _ (by decide)).trans (keeps_eng _ _ (by decide))).trans (keeps_eng _ _ (by decide))

theorem keeps_breakChains (f : Nat) : ∀ (s : State) (k : Nat), s.keeps (s.breakChains f k) [.eng] := by
  induction f with
  | zero => intro s k; exact .refl _ _
  | succ f ih =>
    intro s k
    unfold State.breakChains
    exact State.keeps.fold (fun s _ => ((keeps_dpageMisused s _).trans (ih _ _)).ite (.refl _ _)) _ s

theorem keeps_faultChained (s : State) (c p n : Nat) : s.keeps (s.faultChained c p n) [.eng] :=
  State.keeps.fold (fun s _ => ((keeps_dpageMisused s _).trans (keeps_breakChains _ _ _)).ite (.refl _ _)) _ s

theorem keeps_enterDge (s : State) (k n : Nat) : s.keeps (s.enterDge k n) [.eng] := by
  unfold State.enterDge
  exact (keeps_eng s _ (by decide)).ite ((keeps_eng s _ (by decide)).trans (keeps_eng _ _ (by decide)))

theorem keeps_nextDge (s : State) (c who : Nat) : s.keeps (s.nextDge c who) [.eng] := by
  unfold State.nextDge
  split
  · exact (State.keeps.refl s _).ite (keeps_enterDge s _ _)
  · exact .refl _ _

theorem keeps_dropDpage (s : State) (c p n : Nat) (ab : Bool) : s.keeps (s.dropDpage c p n ab) [.eng, .kr] := by
  unfold State.dropDpage State.serveEngine
  simp only
  refine State.keeps.trans ?_ ((keeps_serveOpens ..).mono (by decide))
  refine State.keeps.trans ?_ ((keeps_nextDge ..).mono (by decide))
  have h1 : s.keeps (s.withdrawReq c 3 fun q => q.part == p && q.page == n) [.eng, .kr] := keeps_eng s _ (by decide)
  have h2 : ∀ z : State, z.keeps (if ab = true then z.setDpage (dpageKey c p n) { state := .abandoned, saveSeq := (s.dpage (dpageKey c p n)).saveSeq + 1 }
      else { z with eng := { z.eng with dpages := mdel z.eng.dpages (dpageKey c p n) } }) [.eng, .kr] := by
    intro z; split <;> exact keeps_eng z _ (by decide)
  have h3 : ∀ z : State, z.keeps (if ab = true then ((z.dropContext c p n).breakChains 8 (dpageKey c p n)).faultChained c p n
      else (z.dropContext c p n).breakChains 8 (dpageKey c p n)) [.eng, .kr] := by
    intro z
    have h : z.keeps ((z.dropContext c p n).breakChains 8 (dpageKey c p n)) [.eng, .kr] :=
      (keeps_eng z _ (by decide)).trans ((keeps_breakChains ..).mono (by decide))
    split
    · exact h.trans ((keeps_faultChained ..).mono (by decide))
    · exact h
  exact (((h1.trans (keeps_kr _ _ (by decide))).trans (h3 _)).trans (keeps_eng _ _ (by decide))).trans (h2 _)

theorem keeps_servePau (h n : Nat) : ∀ s : State, s.keeps (s.servePau h n) [.eng] := by
  induction n with
  | zero => intro s; exact .refl _ _
  | succ n ih =>
    intro s
    unfold State.servePau
    split
    · exact .refl _ _
    · simp only
      split
      · exact .refl _ _
      · exact State.keeps.trans ((keeps_eng _ _ (by decide)).trans (keeps_eng _ _ (by decide))) (ih _)

theorem keeps_dpageMisuse (s : State) (k : Nat) : s.keeps (s.dpageMisuse k) [.eng] :=
  (keeps_dpageMisused s k).trans (keeps_breakChains ..)

theorem keeps_dropCtx (s : State) (k : Nat) (ab : Bool) : s.keeps (s.dropCtx k ab) [.eng, .kr] := by
  unfold State.dropCtx
  simp only
  refine State.keeps.trans ?_ ((keeps_servePau ..).mono (by decide))
  have h1 : s.keeps (s.withdrawReq (8 + k / 4) 0 fun q => q.page == k % 4) [.eng, .kr] := keeps_eng s _ (by decide)
  refine State.keeps.trans (t := { (s.withdrawReq (8 + k / 4) 0 fun q => q.page == k % 4) with
    kr := { (s.withdrawReq (8 + k / 4) 0 fun q => q.page == k % 4).kr with
      fetches := (s.withdrawReq (8 + k / 4) 0 fun q => q.page == k % 4).kr.fetches.filter fun f =>
        match f.tgt with
        | .pau w => w.val + 1 != (s.ctx k).holder
        | _ => true } }) (h1.trans (keeps_kr _ _ (by decide))) ?_
  have hf : ∀ (z : State) (i w : Nat), z.keeps (if (z.dpage i).holder = w then z.dpageMisuse i else z) [.eng, .kr] := fun z i w =>
    ((keeps_dpageMisuse z i).mono (by decide)).ite (.refl _ _)
  have hx : ∀ (z : State) (e : Bool) (i w : Nat), z.keeps (if e = true then (if (z.dpage i).holder = w then z.dpageMisuse i else z) else z)
      [.eng, .kr] := fun z e i w => (hf z i w).ite (.refl _ _)
  have hy : ∀ (z : State) (e : BitVec 2) (i w : Nat), z.keeps (if e = 2 then (if (z.dpage i).holder = w then z.dpageMisuse i else z) else z)
      [.eng, .kr] := fun z e i w => (hf z i w).ite (.refl _ _)
  split
  · exact ((hx _ _ _ _).trans (hy _ _ _ _)).trans (keeps_eng _ _ (l := [.eng, .kr]) (by decide))
  · exact keeps_eng _ _ (l := [.eng, .kr]) (by decide)

theorem keeps_releaseLocks (s : State) (f : Nat → Nat → Nat → Bool) (ab : Bool) : s.keeps (s.releaseLocks f ab) [.eng, .kr] := by
  unfold State.releaseLocks
  simp only
  have h0 : s.keeps ({ s with eng := { s.eng with
    opens := s.eng.opens.filter (fun o => !f o.who o.part (s.descOf o.who)),
    pauWait := s.eng.pauWait.map fun (c : Nat × List Nat) =>
      (c.1, c.2.filter fun w => !f w (((s.tagOf w).map (·.1)).getD 0) (s.descOf w)) } } : State) [.eng, .kr] := keeps_eng s _ (by decide)
  refine ((h0.trans (State.keeps.fold (fun s a => ?_) _ _)).trans (State.keeps.fold (fun s a => ?_) _ _)).trans
    (State.keeps.fold (fun s a => ?_) _ _)
  · exact State.keeps.ite (keeps_dropCtx ..) (.refl _ _)
  · exact State.keeps.ite (keeps_dropDpage ..) (.refl _ _)
  · exact State.keeps.ite (keeps_dropPage ..) (.refl _ _)

/-! ### Descriptors -/

theorem keeps_releaseTrans (s : State) (d : Nat) : s.keeps (s.releaseTrans d) [.disp, .kr] := by
  unfold State.releaseTrans
  split
  · exact .refl _ _
  · refine State.keeps.trans (State.keeps.fold (fun s a => ?_) _ _) (keeps_disp _ _ (by decide))
    exact keeps_kr _ _ (by decide)

theorem keeps_takeUp (s : State) (k : Nat) : s.keeps (s.takeUp k) [.disp] := by
  unfold State.takeUp
  split
  · exact .refl _ _
  · split
    · exact .refl _ _
    · exact keeps_disp _ _ (by decide)

theorem keeps_unwait (s : State) (d : Nat) : s.keeps (s.unwait d) [.disp] := by
  unfold State.unwait
  split
  · exact .refl _ _
  · exact (keeps_disp _ _ (by decide)).trans (keeps_takeUp ..)

theorem keeps_closeHeld (s : State) (d : Nat) (ab : Bool) : s.keeps (s.closeHeld d ab) [.eng, .kr] := keeps_releaseLocks s _ ab

theorem keeps_dropFwd (s : State) (d : Nat) : s.keeps (s.dropFwd d) [.mesh] := keeps_mesh s _ (by decide)

theorem keeps_removeDesc (s : State) (d : Nat) (ab : Bool) : s.keeps (s.removeDesc d ab) [.disp, .kr, .eng, .mesh] := by
  unfold State.removeDesc
  split
  · exact .refl _ _
  · have h : s.keeps (((s.closeHeld d ab).releaseTrans d).dropFwd d) [.disp, .kr, .eng, .mesh] :=
      (((keeps_closeHeld s d ab).mono (by decide)).trans ((keeps_releaseTrans (s.closeHeld d ab) d).mono (by decide))).trans
        ((keeps_dropFwd _ d).mono (by decide))
    exact ((h.trans (keeps_disp _ _ (by decide))).trans (keeps_kr _ _ (by decide))).trans ((keeps_takeUp ..).mono (by decide))

theorem keeps_zeroOut (s : State) (d : Nat) : s.keeps (s.zeroOut d) [.host, .gate, .disp] := by
  unfold State.zeroOut
  split
  · exact .refl _ _
  · exact ((keeps_writeExtents ..).mono (by decide)).trans (keeps_disp _ _ (by decide))

theorem keeps_abandonDesc (s : State) (d : Nat) : s.keeps (s.abandonDesc d) [.host, .gate, .disp, .kr, .eng, .mesh] :=
  ((keeps_zeroOut s d).mono (by decide)).trans ((keeps_removeDesc ..).mono (by decide))

theorem abandonDesc_funcs (s : State) (d : Nat) : (s.abandonDesc d).host.funcs = s.host.funcs := by
  unfold State.abandonDesc
  rw [(keeps_removeDesc (s.zeroOut d) d true).1 (by decide)]
  unfold State.zeroOut
  split
  · rfl
  · exact writeExtents_funcs _ _ _ _

end Sys2Proof.Machine
end

