-- ==== Sys2Proof/Laws/Descs.lean ====
section
/-! SUPPORT. Descriptor records after the operations that change them: one record changed, a core taking up its next, and a record
gone. -/

namespace Sys2Proof.Machine

variable (s : State)

theorem find_map_self (l : List DRec) (d : Nat) (f : DRec → DRec) (hf : ∀ r, (f r).id = r.id) :
    (l.map fun r => if r.id = d then f r else r).find? (fun r => r.id == d) = (l.find? fun r => r.id == d).map f := by
  induction l with
  | nil => rfl
  | cons a r ih =>
    by_cases h : a.id = d
    · have h1 : ((f a).id == d) = true := by rw [hf, h]; simp
      have h2 : (a.id == d) = true := by rw [h]; simp
      rw [List.map_cons, if_pos h, List.find?_cons, h1, List.find?_cons, h2]; rfl
    · have h1 : (a.id == d) = false := by simpa using h
      rw [List.map_cons, if_neg h, List.find?_cons, h1, List.find?_cons, h1]; exact ih

theorem find_map_ne (l : List DRec) (d e : Nat) (f : DRec → DRec) (hf : ∀ r, (f r).id = r.id) (he : e ≠ d) :
    (l.map fun r => if r.id = d then f r else r).find? (fun r => r.id == e) = l.find? fun r => r.id == e := by
  induction l with
  | nil => rfl
  | cons a r ih =>
    by_cases h : a.id = d
    · have h1 : ((f a).id == e) = false := by rw [hf, h]; simpa using he.symm
      have h2 : (a.id == e) = false := by rw [h]; simpa using he.symm
      rw [List.map_cons, if_pos h, List.find?_cons, h1, List.find?_cons, h2]; exact ih
    · rw [List.map_cons, if_neg h, List.find?_cons, List.find?_cons, ih]

theorem State.desc_modDesc (d : Nat) (f : DRec → DRec) (hf : ∀ r, (f r).id = r.id) : (s.modDesc d f).desc d = (s.desc d).map f :=
  find_map_self s.disp.descs d f hf

theorem State.desc_modDesc_ne {e : Nat} (d : Nat) (f : DRec → DRec) (hf : ∀ r, (f r).id = r.id) (he : e ≠ d) :
    (s.modDesc d f).desc e = s.desc e := find_map_ne s.disp.descs d e f hf he

theorem State.desc_id {d : Nat} {r : DRec} (h : s.desc d = some r) : r.id = d := by
  have := List.find?_some h
  simpa using this

/-- What a core does when it takes up its next descriptor: at most one record's stage changes. -/
theorem State.takeUp_is (k : Nat) :
    s.takeUp k = s ∨ ∃ e, s.takeUp k = s.modDesc e fun q => { q with stage := .started, begun := true } := by
  unfold State.takeUp
  split
  · exact .inl rfl
  · split
    · exact .inl rfl
    · exact .inr ⟨_, rfl⟩

theorem State.desc_takeUp (k e : Nat) :
    (s.takeUp k).desc e = s.desc e ∨ (s.takeUp k).desc e = (s.desc e).map fun q => { q with stage := .started, begun := true } := by
  rcases s.takeUp_is k with h | ⟨d, h⟩
  · exact .inl (by rw [h])
  · rw [h]
    by_cases he : e = d
    · subst he; exact .inr (s.desc_modDesc e _ fun _ => rfl)
    · exact .inl (s.desc_modDesc_ne d _ (fun _ => rfl) he)

theorem State.takeUp_disp (k : Nat) : (s.takeUp k).disp = { s.disp with descs := (s.takeUp k).disp.descs } := by
  rcases s.takeUp_is k with h | ⟨d, h⟩ <;> (rw [h]; try rfl)

theorem State.takeUp_coreQueue (k j : Nat) : (s.takeUp k).coreQueue j = s.coreQueue j := by
  unfold State.coreQueue; rw [s.takeUp_disp k]

/-- Every record after takeUp stands for one of before, with the same identity and operands. -/
theorem State.mem_takeUp {k : Nat} {q : DRec} (h : q ∈ (s.takeUp k).disp.descs) :
    ∃ r ∈ s.disp.descs, r.id = q.id ∧ r.fn = q.fn ∧ r.ring = q.ring ∧ r.bytes = q.bytes := by
  rcases s.takeUp_is k with e | ⟨d, e⟩
  · rw [e] at h; exact ⟨q, h, rfl, rfl, rfl, rfl⟩
  · rw [e] at h
    obtain ⟨r, hr, rfl⟩ := List.mem_map.1 h
    refine ⟨r, hr, ?_⟩
    split <;> exact ⟨rfl, rfl, rfl, rfl⟩

end Sys2Proof.Machine
end

