-- ==== Sys2Proof/Laws/Memory.lean ====
section
/-! SUPPORT. The host memory: every store keeps the canonical form, a read after a write to the same address gives the byte
written, and a write leaves every other address alone. -/

namespace Sys2Proof.Machine

open Host (Cell)

theorem memWf_iff (m : List Cell) :
    Memory.wf m = true ↔ (m.map Prod.fst).Pairwise (· < ·) ∧ ∀ c ∈ m, c.2 ≠ 0 := by
  simp [Memory.wf]

theorem mset_mem {α : Type} {m : Map α} {k : Nat} {v : α} {c : Nat × α} (h : c ∈ mset m k v) : c = (k, v) ∨ c ∈ m := by
  induction m with
  | nil => simpa [mset] using h
  | cons x r ih =>
    obtain ⟨j, w⟩ := x
    simp only [mset] at h
    split at h
    · rcases List.mem_cons.1 h with h | h
      · exact .inl h
      · exact .inr (List.mem_cons_of_mem _ h)
    · split at h
      · rcases List.mem_cons.1 h with h | h
        · exact .inl h
        · exact .inr h
      · rcases List.mem_cons.1 h with h | h
        · exact .inr (h ▸ List.mem_cons_self)
        · rcases ih h with h | h
          · exact .inl h
          · exact .inr (List.mem_cons_of_mem _ h)

theorem mset_sorted {α : Type} {m : Map α} (k : Nat) (v : α) (h : (m.map Prod.fst).Pairwise (· < ·)) :
    ((mset m k v).map Prod.fst).Pairwise (· < ·) := by
  induction m with
  | nil => simp [mset]
  | cons x r ih =>
    obtain ⟨j, w⟩ := x
    simp only [List.map_cons, List.pairwise_cons] at h
    simp only [mset]
    split
    · rename_i e
      subst e
      simpa using h
    · split
      · rename_i _ hk
        simp only [List.map_cons, List.pairwise_cons]
        refine ⟨fun a ha => ?_, h⟩
        rcases List.mem_cons.1 ha with ha | ha
        · exact ha ▸ hk
        · exact lt_trans hk (h.1 a ha)
      · rename_i e hk
        simp only [List.map_cons, List.pairwise_cons]
        refine ⟨fun a ha => ?_, ih h.2⟩
        obtain ⟨c, hc, rfl⟩ := List.mem_map.1 ha
        rcases mset_mem hc with hc | hc
        · rw [hc]
          show j < k
          omega
        · exact h.1 _ (List.mem_map_of_mem hc)

theorem memPut_wf {m : List Cell} (a : Nat) (v : Byte) (h : Memory.wf m = true) : Memory.wf (memPut m a v) = true := by
  rw [memWf_iff] at *
  unfold memPut
  split
  · refine ⟨?_, fun c hc => h.2 c (List.mem_filter.1 hc).1⟩
    exact List.Pairwise.sublist ((List.filter_sublist).map _) h.1
  · rename_i hv
    refine ⟨mset_sorted a v h.1, fun c hc => ?_⟩
    rcases mset_mem hc with hc | hc
    · exact hc ▸ hv
    · exact h.2 c hc

theorem memPutAll_wf (b : Bytes) {m : List Cell} (a : Nat) (h : Memory.wf m = true) : Memory.wf (memPutAll m a b) = true := by
  induction b generalizing m a with
  | nil => exact h
  | cons v r ih => exact ih (a + 1) (memPut_wf a v h)

theorem memStores_wf (w : List (Nat × Byte)) {m : List Cell} (h : Memory.wf m = true) : Memory.wf (memStores m w) = true := by
  induction w generalizing m with
  | nil => exact h
  | cons c r ih => exact ih (memPut_wf c.1 c.2 h)

@[simp] theorem memGet_memPut_self (m : List Cell) (a : Nat) (v : Byte) : memGet (memPut m a v) a = v := by
  unfold memPut memGet
  split
  · rename_i h
    simp [h]
  · simp

theorem memGet_memPut_ne (m : List Cell) {a b : Nat} (v : Byte) (h : b ≠ a) : memGet (memPut m a v) b = memGet m b := by
  unfold memPut memGet
  split
  · exact mget_mdel_ne m 0 h
  · exact mget_mset_ne m v 0 h

/-- A run of stores leaves the bytes outside it alone. -/
theorem memGet_memPutAll_out (b : Bytes) (m : List Cell) (a x : Nat) (h : x < a ∨ a + b.length ≤ x) :
    memGet (memPutAll m a b) x = memGet m x := by
  induction b generalizing m a with
  | nil => rfl
  | cons v r ih =>
    simp only [List.length_cons] at h
    rw [memPutAll, ih _ _ (by omega), memGet_memPut_ne _ _ (by omega)]

/-- Byte i of a run of stores is read back. -/
theorem memGet_memPutAll_in (b : Bytes) (m : List Cell) (a i : Nat) (h : i < b.length) :
    memGet (memPutAll m a b) (a + i) = b[i] := by
  induction b generalizing m a i with
  | nil => simp at h
  | cons v r ih =>
    cases i with
    | zero => rw [memPutAll, memGet_memPutAll_out _ _ _ _ (by omega)]; simp
    | succ n =>
      have := ih (memPut m a v) (a + 1) n (by simpa using h)
      rw [memPutAll, show a + (n + 1) = a + 1 + n by omega]
      simpa using this

theorem reset_memWf : Memory.wf State.reset.host.mem = true := by decide

end Sys2Proof.Machine
end

