-- ==== Sys2Proof/Laws/Complete.lean ====
section
/-! SUPPORT. What a completion is: the state after completeOne stands to the state before it as State.completes says. -/

namespace Sys2Proof.Machine

variable (s t : State)

theorem toLE_length (n v : Nat) : (toLE n v).length = n := by
  induction n generalizing v with
  | zero => rfl
  | succ n ih => simp [toLE, ih]

theorem fit_length (n : Nat) (b : Bytes) : (fit n b).length = n := by simp [fit, zeros]

theorem State.recordOf_length (q : DRec) (st : Word16) (len : Nat) (inl : Bytes) : (t.recordOf q st len inl).length = 32 := by
  simp [State.recordOf, toLE_length, fit_length]

/-- A range read back right after it was written. -/
theorem hostGet_written (m : List Host.Cell) (a : Nat) (b : Bytes) (h : s.host.mem = memPutAll m a b) :
    s.hostGet a b.length = b := by
  apply List.ext_getElem
  · simp [State.hostGet]
  · intro i h1 h2
    simp only [State.hostGet, List.getElem_map, List.getElem_range, h]
    exact memGet_memPutAll_in b m a i h2

theorem State.sendVector_ring (n v m r : Nat) : (s.sendVector n v).ring m r = s.ring m r := by
  obtain ⟨p, h, -⟩ := s.sendVector_func n v m
  simp only [State.ring, h, Func.ring]

theorem State.signalRing_host (n r : Nat) :
    ∃ f p, s.signalRing n r = { s with host := { s.host with funcs := f, posted := s.host.posted ++ p } } := by
  unfold State.signalRing
  obtain ⟨f, p, h⟩ := State.sendVector_host (s.setRing n r { s.ring n r with pend := 0 }) n (s.ring n r).vector.toNat
  exact ⟨f, p, by rw [h]; rfl⟩

theorem State.signalRing_ring (n r : Nat) : (s.signalRing n r).ring n r = { s.ring n r with pend := 0 } := by
  unfold State.signalRing
  rw [State.sendVector_ring, State.ring_setRing]

theorem State.signalRing_ring_ne (n r : Nat) {m p : Nat} (h : ¬(m = n ∧ p = r)) : (s.signalRing n r).ring m p = s.ring m p := by
  unfold State.signalRing
  rw [State.sendVector_ring, State.ring_setRing_ne _ _ h]

/-- A record noted for interrupts: only its ring's count and pending bits change. -/
theorem State.noteRecord_host (n r : Nat) (b : Bool) :
    ∃ f p, s.noteRecord n r b = { s with host := { s.host with funcs := f, posted := s.host.posted ++ p } }
      ∧ ((s.ring n r).irqEn = false → p = []) := by
  unfold State.noteRecord
  simp only
  split
  · exact ⟨s.host.funcs, [], by simp, fun _ => rfl⟩
  · rename_i h0
    have hirq : ¬(s.ring n r).irqEn = false := by intro e; simp [Ring.irqOff, e] at h0
    split
    · obtain ⟨f, p, h⟩ := State.signalRing_host (s.setRing n r { s.ring n r with pend := (s.ring n r).pend + 1 }) n r
      exact ⟨f, p, by rw [h]; rfl, fun e => absurd e hirq⟩
    · exact ⟨_, [], by simp [State.setRing, State.setFunc]; rfl, fun _ => rfl⟩

theorem State.noteRecord_ring (n r : Nat) (b : Bool) : ∃ k, (s.noteRecord n r b).ring n r = { s.ring n r with pend := k } := by
  unfold State.noteRecord
  simp only
  split
  · exact ⟨_, rfl⟩
  · split
    · exact ⟨0, by rw [State.signalRing_ring, State.ring_setRing]⟩
    · exact ⟨_, by rw [State.ring_setRing]⟩

theorem State.noteRecord_ring_ne (n r : Nat) (b : Bool) {m p : Nat} (h : ¬(m = n ∧ p = r)) :
    (s.noteRecord n r b).ring m p = s.ring m p := by
  unfold State.noteRecord
  simp only
  split
  · rfl
  · split
    · rw [State.signalRing_ring_ne _ _ _ h, State.ring_setRing_ne _ _ h]
    · rw [State.ring_setRing_ne _ _ h]

/-- A record that passes the windows. -/
theorem State.writeRecord_pass (q : DRec) (st : Word16) (len : Nat) (inl : Bytes) (h : s.hostPasses q.fn false (s.recordSlot q) 32 true = true) :
    let y := s.ring q.fn q.ring
    let r := recordBytes q st q.flags (phaseOf y.cqTail.toNat y.log2.toNat) len y.sqHead.toNat s.time.counter.toNat inl
    ∃ f m, s.writeRecord q st len inl
        = { s with host := { s.host with funcs := f, mem := memPutAll s.host.mem (s.recordSlot q) r,
                                         posted := s.host.posted ++ [.mem q.fn (s.recordSlot q) r] ++ m } }
      ∧ (y.irqEn = false → m = [])
      ∧ (∃ k, (s.writeRecord q st len inl).ring q.fn q.ring = { y with cqTail := y.cqTail + 1, outstanding := y.outstanding - 1, pend := k })
      ∧ ∀ a b, ¬(a = q.fn ∧ b = q.ring) → (s.writeRecord q st len inl).ring a b = s.ring a b := by
  intro y r
  have e : s.writeRecord q st len inl
      = ((s.postWrite q.fn (s.recordSlot q) r).setRing q.fn q.ring { y with cqTail := y.cqTail + 1, outstanding := y.outstanding - 1 }).noteRecord
          q.fn q.ring q.irqNow := by
    unfold State.writeRecord
    have hc := s.checkHost_pass ringEngineId q.fn false _ 32 true h
    simp only [State.recordSlot] at hc
    simp only [ringSize, hc, if_true]
    rfl
  rw [e]
  obtain ⟨f, m, h1, h2⟩ := State.noteRecord_host ((s.postWrite q.fn (s.recordSlot q) r).setRing q.fn q.ring
    { y with cqTail := y.cqTail + 1, outstanding := y.outstanding - 1 }) q.fn q.ring q.irqNow
  rw [State.ring_setRing] at h2
  refine ⟨f, m, by rw [h1]; rfl, h2, ?_, ?_⟩
  · obtain ⟨k, hk⟩ := State.noteRecord_ring ((s.postWrite q.fn (s.recordSlot q) r).setRing q.fn q.ring
      { y with cqTail := y.cqTail + 1, outstanding := y.outstanding - 1 }) q.fn q.ring q.irqNow
    exact ⟨k, by rw [hk, State.ring_setRing]⟩
  · intro a b hab
    rw [State.noteRecord_ring_ne _ _ _ _ hab, State.ring_setRing_ne _ _ hab]
    rfl

/-! ### The descriptor gone -/

/-- A removed descriptor is no longer there. -/
theorem State.desc_removeDesc (d : Nat) (ab : Bool) : (s.removeDesc d ab).desc d = none := by
  unfold State.removeDesc
  split
  · assumption
  · rename_i r h
    simp only
    generalize hx : (((s.closeHeld d ab).releaseTrans d).dropFwd d) = x
    rcases State.desc_takeUp { { x with disp := { x.disp with
      descs := x.disp.descs.filter (·.id != d), inbox := x.disp.inbox.erase d, mgmtQ := x.disp.mgmtQ.erase d,
      coreQ := x.disp.coreQ.map fun (c : Nat × List Nat) => (c.1, c.2.erase d),
      recipePlace := x.disp.recipePlace.filter (· != d), mgmtPlace := x.disp.mgmtPlace.filter (· != d) } }
        with kr := { x.kr with poolWait := x.kr.poolWait.erase d } } r.core d with e | e
    · rw [e]; simp [State.desc]
    · rw [e]; simp [State.desc]

/-! ### The output -/

theorem State.writeExtents_one (q : DRec) (a : Nat) (b : Bytes) (hp : s.hostPasses q.fn q.oldWin a b.length true = true) :
    s.writeExtents q [(a, b.length)] b = s.postWrite q.fn a b := by
  unfold State.writeExtents
  rw [s.checkHost_pass _ _ _ _ _ _ hp]
  simp only [if_true, List.take_length]
  unfold State.writeExtents
  rfl

/-- The state after an output of a descriptor that passes its windows. -/
theorem State.putOut_passes (q : DRec) (out : Bytes) (ho : q.outSgl = false)
    (hp : s.hostPasses q.fn q.oldWin q.outAddr out.length true = true) :
    s.putOut q out
      = { (s.modDesc q.id fun p => { p with written := p.written ++ if out.length = 0 then [] else [(q.outAddr, out.length)] }) with
          host := { s.host with
            mem := if out = [] then s.host.mem else memPutAll s.host.mem q.outAddr out,
            posted := s.host.posted ++ if out = [] then [] else [.mem q.fn q.outAddr out] } } := by
  unfold State.putOut State.outExtents
  by_cases h : out = []
  · subst h
    simp only [List.length_nil, if_true, State.writeExtents, List.append_nil]
    rfl
  · have hl : out.length ≠ 0 := by simpa using h
    simp only [hl, if_false, ho, h, Bool.false_eq_true]
    rw [s.writeExtents_one q _ _ hp]
    rfl

theorem flaggedStatus_eq (st : Word16) (f g : BitVec 15) (h : g &&& 0x17 = f &&& 0x17) : flaggedStatus st f = flaggedStatus st g := by
  unfold flaggedStatus anyNoted; rw [h]

/-- The record of a descriptor that carries the flags recordFlags gives it. -/
theorem recordBytes_eq (q p : DRec) (st : Word16) (len : Nat) (inl : Bytes) (h1 : p.hostTag = q.hostTag) (h2 : p.flags = t.recordFlags q) :
    recordBytes p st p.flags (phaseOf (t.ring q.fn q.ring).cqTail.toNat (t.ring q.fn q.ring).log2.toNat) len
        (t.ring q.fn q.ring).sqHead.toNat t.time.counter.toNat inl = t.recordOf q st len inl := by
  unfold recordBytes State.recordOf phaseOf
  rw [h1, h2]
  simp only [at', b2n, beq_iff_eq]
  split <;> simp

/-- A record written by descriptor p in u and its removal: what is there then. -/
theorem State.writeRecord_removed (u : State) (p : DRec) (st : Word16) (len : Nat) (inl : Bytes)
    (h : u.hostPasses p.fn false (u.recordSlot p) 32 true = true) :
    let y := u.ring p.fn p.ring
    let r := recordBytes p st p.flags (phaseOf y.cqTail.toNat y.log2.toNat) len y.sqHead.toNat u.time.counter.toNat inl
    let x := (u.writeRecord p st len inl).removeDesc p.id false
    x.desc p.id = none ∧ x.host.mem = memPutAll u.host.mem (u.recordSlot p) r
      ∧ (∃ m, x.host.posted = u.host.posted ++ [.mem p.fn (u.recordSlot p) r] ++ m ∧ (y.irqEn = false → m = []))
      ∧ (x.ring p.fn p.ring).cqTail = y.cqTail + 1 ∧ (x.ring p.fn p.ring).outstanding = y.outstanding - 1
      ∧ (∀ a b, ¬(a = p.fn ∧ b = p.ring) → x.ring a b = u.ring a b) ∧ u.keeps x [.host, .disp, .kr, .eng, .mesh] := by
  intro y r x
  obtain ⟨f, m, h1, h2, ⟨k, h3⟩, h4⟩ := u.writeRecord_pass p st len inl h
  have hk : (u.writeRecord p st len inl).keeps x [.disp, .kr, .eng, .mesh] := keeps_removeDesc _ _ _
  have hh : x.host = (u.writeRecord p st len inl).host := hk.1 (by decide)
  have hr : ∀ a b, x.ring a b = (u.writeRecord p st len inl).ring a b := fun a b => by unfold State.ring State.func; rw [hh]
  refine ⟨State.desc_removeDesc _ _ _, by rw [hh, h1], ⟨m, by rw [hh, h1], h2⟩, ?_, ?_, ?_, ?_⟩
  · rw [hr, h3]
  · rw [hr, h3]
  · intro a b hab; rw [hr, h4 a b hab]
  · refine State.keeps.trans (t := u.writeRecord p st len inl) ?_ (hk.mono (by decide))
    rw [h1]; exact keeps_host _ _ (by decide)

/-- A descriptor that came over a ring completes as State.completes says. -/
theorem State.completeOne_completes (d : Nat) (q : DRec) (st st' : Word16) (out inl : Bytes) (len : Option Nat) (hq : t.desc d = some q)
    (hst : flaggedStatus st q.flags = st') (hw : succeeded st' = true ∨ q.written = [])
    (hc : t.canComplete q (if succeeded st' then out.length else 0)) :
    t.completes (t.completeOne d st out inl len) q st' (if succeeded st' then out else [])
      (if succeeded st' then len.getD out.length else 0) (if succeeded st' then inl else []) := by
  obtain ⟨c1, c2, c3, c4⟩ := hc
  have hid := t.desc_id hq
  -- the flag of an unaligned time
  obtain ⟨v, hv, hvd, hvh⟩ : ∃ v, (if t.time.lock = true then t else t.flag d cfUnaligned) = v
      ∧ v.desc d = some { q with flags := t.recordFlags q } ∧ ∃ x, v = { t with disp := x } := by
    refine ⟨_, rfl, ?_, ?_⟩
    · unfold State.recordFlags
      by_cases h : t.time.lock = true
      · rw [if_pos h, if_pos h, hq]
      · rw [if_neg h, if_neg h, State.flag, t.desc_modDesc d _ (by intro _; rfl), hq]
        rfl
    · split
      · exact ⟨t.disp, rfl⟩
      · exact ⟨_, rfl⟩
  obtain ⟨xd, rfl⟩ := hvh
  unfold State.completeOne
  simp only [hq]
  rw [hv, hst]
  have hm : ¬ meshRing ≤ q.ring := by unfold meshRing; omega
  have ht : ¬ q.ring = txnRing := by unfold txnRing; omega
  simp only [hm, ht, if_false]
  -- the output
  have key : ∀ (o : Bytes) (w : State) (p : DRec),
      w.host = { t.host with mem := if o = [] then t.host.mem else memPutAll t.host.mem q.outAddr o,
                             posted := t.host.posted ++ if o = [] then [] else [.mem q.fn q.outAddr o] } →
      w.gate = t.gate → w.time = t.time → t.keeps w [.host, .disp] →
      p.id = q.id → p.fn = q.fn → p.ring = q.ring → p.bytes = q.bytes → p.flags = t.recordFlags q → ∀ l i,
      t.completes ((w.writeRecord p st' l i).removeDesc d false) q st' o l i := by
    intro o w p hw hg htime hkp e1 e2 e3 e4 e5 l i
    have hring : ∀ a b, w.ring a b = t.ring a b := by intro a b; unfold State.ring State.func; rw [hw]
    have hslot : w.recordSlot p = t.recordSlot q := by unfold State.recordSlot; rw [e2, e3, hring]
    have hpass : w.hostPasses p.fn false (w.recordSlot p) 32 true = true := by
      rw [hslot, e2]
      have : ∀ n o, w.windows n o = t.windows n o := by intro n o; unfold State.windows State.gateOf; rw [hg]
      unfold State.hostPasses at c4 ⊢
      rw [this]; exact c4
    have := w.writeRecord_removed p st' l i hpass
    simp only at this
    rw [hslot, e2, e3, e1, hid] at this
    have hrec := recordBytes_eq t q p st' l i (by unfold DRec.hostTag; rw [e4]) e5
    rw [hring, htime, hrec] at this
    obtain ⟨a1, a2, ⟨m, a3, a3'⟩, a4, a5, a6, a7⟩ := this
    refine ⟨by rw [hid]; exact a1, ?_, ⟨m, ?_, a3'⟩, a4, a5, fun a b hab => (a6 a b hab).trans (hring a b), ?_⟩
    · have := hostGet_written _ _ _ _ a2
      rw [State.recordOf_length] at this
      exact this
    · rw [a3, hw]
    · exact (hkp.mono (by decide)).trans a7
  by_cases hok : succeeded st' = true
  · simp only [hok, if_true] at c3 ⊢
    rw [State.putOut_passes { t with disp := xd } q out c2 c3]
    have hd : ∀ (x : HostIf), State.desc { ((({ t with disp := xd } : State).modDesc q.id fun p => { p with written := p.written ++ if out.length = 0 then [] else [(q.outAddr, out.length)] })) with host := x } d
        = some { { q with flags := t.recordFlags q } with written := q.written ++ if out.length = 0 then [] else [(q.outAddr, out.length)] } := by
      intro x
      show State.desc (({ t with disp := xd } : State).modDesc q.id _) d = _
      rw [hid, State.desc_modDesc _ d _ (by intro _; rfl), hvd, ← hid]
      rfl
    rw [hd]
    rw [Option.elim_some]
    apply key out
    · rfl
    · rfl
    · rfl
    · exact (keeps_disp t xd (by decide)).trans ((keeps_disp _ _ (by decide)).trans (keeps_host _ _ (by decide)))
    all_goals rfl
  · have hw' := hw.resolve_left hok
    simp only [hok, Bool.false_eq_true, if_false]
    unfold State.zeroOut
    rw [hvd]
    simp only [hw', State.writeExtents]
    rw [State.desc_modDesc _ d _ (by intro _; rfl), hvd]
    rw [Option.map_some, Option.elim_some]
    apply key []
    · simp only [if_true, List.append_nil]
      rfl
    · rfl
    · rfl
    · exact (keeps_disp t xd (by decide)).trans (keeps_disp _ _ (by decide))
    all_goals rfl

end Sys2Proof.Machine
end

