-- ==== Sys2Proof/Laws/Run.lean ====
section
/-! SUPPORT. Running a verb's computation: one lemma for each of its parts, which say what `runV` answers without unfolding the
monad. -/

namespace Sys2Proof.Machine

@[simp] theorem runV_pure {α : Type} (a : α) (s : State) : runV (pure a : V α) s = (.ok a, s) := rfl

@[simp] theorem runV_getV (s : State) : runV getV s = (.ok s, s) := rfl

@[simp] theorem runV_modV (f : State → State) (s : State) : runV (modV f) s = (.ok (), f s) := rfl

@[simp] theorem runV_failV {α : Type} (st : Word16) (s : State) : runV (failV st : V α) s = (.error (.fail st []), s) := rfl

@[simp] theorem runV_stopV {α : Type} (x : Stop) (s : State) : runV (stopV x : V α) s = (.error x, s) := rfl

theorem runV_bind {α β : Type} (m : V α) (f : α → V β) (s : State) :
    runV (m >>= f) s = match runV m s with
      | (.ok a, t) => runV (f a) t
      | (.error e, t) => (.error e, t) := by
  unfold runV
  rw [ExceptT.run_bind, StateT.run_bind]
  rcases h : (ExceptT.run m : StateM State _).run s with ⟨_ | _, t⟩ <;> rfl

theorem runV_bind_ok {α β : Type} {m : V α} {f : α → V β} {s t : State} {a : α} (h : runV m s = (.ok a, t)) :
    runV (m >>= f) s = runV (f a) t := by rw [runV_bind, h]

theorem runV_bind_error {α β : Type} {m : V α} {f : α → V β} {s t : State} {e : Stop} (h : runV m s = (.error e, t)) :
    runV (m >>= f) s = (.error e, t) := by rw [runV_bind, h]

theorem runV_map {α β : Type} (f : α → β) (m : V α) (s : State) :
    runV (f <$> m) s = match runV m s with
      | (.ok a, t) => (.ok (f a), t)
      | (.error e, t) => (.error e, t) := by
  rw [← bind_pure_comp, runV_bind]
  rfl

theorem runV_need (c : Bool) (st : Word16) (s : State) :
    runV (need c st) s = if c then (.ok (), s) else (.error (.fail st []), s) := by cases c <;> rfl

/-- Engines that serve and pass their checks run their blocks and nothing else. -/
theorem runV_engine {o : Opnd} {s : State} (h : s.engineServes o) (out : Bytes) :
    runV (engine o out) s = (.ok (), s.ranBlocks o (engineKinds o.fam o.op)) := by
  unfold engine engineOf
  rw [runV_bind_ok (runV_getV s), h.2, runV_bind_ok (runV_need true _ s), runV_bind_ok (runV_modV _ s), h.1]
  rfl

/-! ### Where work waits -/

/-- What waiting keeps of the state the work reached: nothing but the descriptors, the waits for slots and the entropy drawn. -/
theorem keepWork_keeps (s t : State) (d : Nat) :
    (s.keepWork t d).pending = s.pending ∧ (s.keepWork t d).host = s.host ∧ (s.keepWork t d).vault = s.vault
      ∧ (s.keepWork t d).eng = s.eng ∧ (s.keepWork t d).tam = s.tam ∧ (s.keepWork t d).gate = s.gate
      ∧ (s.keepWork t d).mesh = s.mesh ∧ (s.keepWork t d).time = s.time ∧ (s.keepWork t d).pwr = s.pwr
      ∧ (s.keepWork t d).life = s.life ∧ (s.keepWork t d).kr.slots = s.kr.slots := by
  unfold State.keepWork
  cases t.desc d <;> exact ⟨rfl, rfl, rfl, rfl, rfl, rfl, rfl, rfl, rfl, rfl, rfl⟩

/-- Work whose effects stand answers as it would, but where it waits: there the wait says that it goes on from this point. -/
theorem runV_standing_ok {α : Type} {d : Nat} {m : V α} {s t : State} {a : α} (h : runV m s = (.ok a, t)) :
    runV (standing d m) s = (.ok a, t) := by
  unfold standing
  rw [runV_bind_ok (runV_getV s)]
  unfold runV at h ⊢
  simp only [tryCatch, tryCatchThe, MonadExceptOf.tryCatch, ExceptT.tryCatch, ExceptT.mk, ExceptT.run] at h ⊢
  rw [StateT.run_bind, h]
  rfl

end Sys2Proof.Machine
end

