-- ==== Sys2Proof/Tests/Slice0.lean ====
section
/-! SUPPORT. Tests: what WellFormed refuses, a witness for the hypotheses of each statement, and single commands. -/

namespace Sys2Proof.Tests

set_option Elab.async false

open Sys2Proof Sys2Proof.Machine

/-! ### WellFormed refuses each ill-formed operand -/

def hello0 : Hello :=
  { position := 0, meshId := 0, serial := 0, version := 0, lifecycle := 2, rosterDigest := zeros 32, ownerDigest := zeros 32,
    random := zeros 32, idKey := zeros 1952, encapKey := zeros 1184, endorsement := [], port := 0 }

def msg0 : Msg := { port := 0, src := 1, dst := 0, part := 0, hops := 0, tag := 0, attempt := 0, aux := 0, body := [] }

theorem smoke_poll_store : (Instr.ringPoll (.ring 0 0) [(2 ^ 64, 1)]).wf = false := by decide
theorem smoke_supply_store : (Instr.pageSupply [(5, 1), (2 ^ 64, 1)]).wf = false := by decide
theorem smoke_flit : (Instr.flitReceive 0 (zeros 63)).wf = false := by decide
theorem smoke_finish : (Instr.finish 0 (zeros 65)).wf = false := by decide
theorem smoke_hello_roster : (Instr.hello 0 { hello0 with rosterDigest := zeros 31 }).wf = false := by decide +kernel
theorem smoke_hello_owner : (Instr.hello 0 { hello0 with ownerDigest := [] }).wf = false := by decide +kernel
theorem smoke_hello_random : (Instr.hello 0 { hello0 with random := zeros 33 }).wf = false := by decide +kernel
theorem smoke_hello_id : (Instr.hello 0 { hello0 with idKey := zeros 1951 }).wf = false := by decide +kernel
theorem smoke_hello_encap : (Instr.hello 0 { hello0 with encapKey := zeros 1185 }).wf = false := by decide +kernel
theorem smoke_kem : (Instr.kem 0 (zeros 1087) []).wf = false := by decide +kernel
theorem smoke_readings : (Instr.smbTemperatures (List.replicate 8 0)).wf = false := by decide
theorem smoke_body (n : Nat) (h : 2 ^ 32 ≤ n) (m : Msg) (hm : m.body = List.replicate n 0) :
    ∀ c ∈ [Instr.fwd m, .accept m, .result m, .refuse m, .fwdMore m, .fwdData m, .txn m, .txnAck m, .txnDone m, .resync m,
      .heartbeat m, .timeSync m, .recipeSync m], c.wf = false := by
  simp [Instr.wf, Msg.wf, hm]; omega
theorem smoke_good : ∀ c ∈ [Instr.ringPoll (.ring 0 0) [(2 ^ 64 - 1, 1)], .flitReceive 0 (zeros 64), .hello 0 hello0, .fwd msg0,
    .smbTemperatures (List.replicate 9 0)], c.wf = true := by decide +kernel

/-! ### States for the witnesses -/

/-- A window of the owner's partition over 2^40 bytes from 0. -/
def wholeWin : Gate := { regions := [(0, { valid := true, rd := true, wr := true, sizeExp := 40 })] }

/-- Function 0 with ring 0 as x. -/
def func0 (x : Ring) : Func := { present := true, fnReady := true, rings := [(0, x)] }

def ring0 : Ring := { sqBase := 0x10000, cqBase := 0x20000, piAddr := 0x30000, ciAddr := 0x30040 }

def domUp : Domain := { on := true, pgood := true, iso := false }

/-- A device in service: Operational, booted, cluster 0 serving with its PAUs, a window open, ring 0 of function 0 as x. -/
def rig (x : Ring) : State :=
  { host := { funcs := [(0, func0 x)] }
    gate := { gates := [(0, wholeWin)] }
    pwr := { domains := [(3, domUp), (11, domUp), (19, domUp), (20, domUp)], servingBits := 1, cstate := [(0, .serving)] }
    eng := { seeded := [(0, true)] }
    kr := { keys := some ([], []), ready := true, rebuilt := true, partsLoaded := true }
    vault := { ready := true, started := true, keyed := true }
    ent := { st := .running, ready := true, starting := false, katPassed := true }
    time := { lock := true }
    life := { st := .operational, boot := .done } }

def ringOn : Ring := { ring0 with enabled := true }

/-- A descriptor of ring 0 of function 0, running on core 0. -/
def desc0 : DRec := { id := 0, fn := 0, ring := 0, idx := 0, bytes := zeros 64, stage := .started, begun := true }

/-- The device in service with these descriptors, the first on core 0. -/
def rigD (l : List DRec) : State :=
  { rig { ringOn with outstanding := l.length } with disp := { descs := l, nextId := l.length, coreQ := [(0, (l.take 1).map (·.id))] } }

/-! ### Witnesses: the block, set-up registers, mailbox, polling -/

theorem witness_IdleCycle : State.reset.pending = [] ∧ State.reset.time.holding = false
    ∧ ({ State.reset with time := { holding := true } } : State).time.holding = true
    ∧ ((rig ringOn).arbUp 0 = true ∧ (rig ringOn).arbUp 7 = false ∧ ((rig ringOn).arb 0).coming = none ∧ ∀ c ∈ (rig ringOn).eng.arbs, c.2.coming = none)
    ∧ ∃ m, (({ rig ringOn with eng := { arbs := [(0, { arbReset 0 with coming := some (0, 0) })] } } : State).arb 0).coming = some m := by
  refine ⟨rfl, rfl, rfl, by decide +kernel, ⟨_, rfl⟩⟩

theorem witness_CommandsComplete : (Instr.ringPoll (.ring 0 0) [(2 ^ 64 - 1, 0xFF)]).wf = true := by decide

theorem witness_OutsideStoreStops : storesWf [(2 ^ 64, 1)] = false := by decide

theorem witness_QueueStaysWellFormed : ({ State.reset with pending := [.timeLoRead 0, .warmReset] } : State).queueWf := by
  simp [State.queueWf, Instr.wf]

/-- A change of each item that is told. -/
theorem witness_ChangesAreTold :
    (∃ t, exec .eventWindowClose State.reset = .next t)
    ∧ (∃ t, exec (.ppsEdge 0 0) { rig ring0 with time := { ppsEn := true, counter := 500000000 } } = .next t ∧ t.time.outOfWindow = true)
    ∧ ∃ t, exec .coldReset { rig ring0 with time := { lock := true } } = .next t ∧ t.time.lock = false := by
  refine ⟨⟨_, rfl⟩, ⟨_, rfl, by decide +kernel⟩, ⟨_, rfl, by decide +kernel⟩⟩

/-- On a disabled ring and on an enabled one. -/
theorem witness_RingSetupWrite : (rig ring0).hostReaches 0 ∧ ((rig ring0).ring 0 0).enabled = false ∧ (rig ringOn).hostReaches 0
    ∧ ((rig ringOn).ring 0 0).enabled = true := by
  simp only [State.hostReaches]; decide +kernel

theorem witness_WritesIgnored : (0x7FFC < 0x8000 ∧ (0x7 : BitVec 4) ≠ 0xF) ∧ (0x7FFD < 0x8000 ∧ 0x7FFD % 4 ≠ 0)
    ∧ (0x4000 ≤ 0x4000 ∧ 0x7FFF < 0x8000 ∧ (31 : Fn).val ≠ 0) ∧ State.reset.life.st = .blank := by decide

theorem witness_StatusBitsClear : (rig ring0).hostReaches 0 := by simp only [State.hostReaches]; decide +kernel

theorem witness_TimeRead : ((0 : Fn).val = 0 ∧ (rig ring0).life.st ≠ .blank) ∧ (1 : Fn).val ≠ 0 ∧ State.reset.life.st = .blank
    ∧ ((rig ring0).func 0).present = true
    ∧ ((rig ring0).gateCheck (gateFor 0x04000000) 9 0x04000000 false (((rig ring0).tagOf 9).elim 0 (·.1))).2 = false
    ∧ (({ pinf := some [1, 2, 3, 4] } : CPage).pinf.isSome = true ∧ ({} : CPage).pinf.isSome = false) := by
  decide +kernel

/-- 02 Table 2.3: a fully read register, and one that only the physical function shows. -/
theorem test_register_read :
    (rig ring0).readBar 0 0x1020 = 0x3206 ∧ (rig ring0).readBar 0 0x04 = 0xB0 ∧ (rig ring0).readBar 5 0x6000 = 0 := by
  decide +kernel

/-- RING_ENABLE on a ring of the smallest and the largest size, and each of its refusals; RING_DISABLE on a ring that is off, one
that runs, and one that has drained. -/
theorem witness_RingsSwitched :
    (∀ l ∈ [(6 : BitVec 5), 16],
      let s := rig { ring0 with log2 := l }
      (s.func 0).mboxRun = none ∧ (s.func 0).fnReady = true ∧ s.partLive 0 = true ∧ (s.ring 0 0).enabled = false
      ∧ s.hostPasses 0 false 0x10000 (64 * 2 ^ l.toNat) false = true ∧ s.hostPasses 0 false 0x20000 (32 * 2 ^ l.toNat) true = true
      ∧ leNat (s.hostGet 0x30000 4) = 0 ∧ leNat (s.hostGet 0x30040 4) = 0)
    ∧ ((rig { ring0 with log2 := 17 }).ring 0 0).log2.toNat = 17
    ∧ ({ rig ring0 with gate := {} } : State).hostPasses 0 false 0x30000 4 false = false
    ∧ leNat (({ rig ring0 with host := { funcs := [(0, func0 ring0)], mem := [(0x30000, 1)] } } : State).hostGet 0x30000 4) ≠ 0
    ∧ ((rig ringOn).ring 0 0).enabled = true ∧ ((rig { ringOn with draining := true }).ring 0 0).draining = true
    ∧ (let s : State := { rig ringOn with host := { funcs := [(0, { func0 ringOn with mboxRun := some 0 })] } }
       (s.func 0).mboxRun = some 0 ∧ (s.ring 0 0).outstanding = 0) := by
  decide +kernel

theorem witness_MailboxRefuses :
    (({ rig ringOn with host := { funcs := [(0, { func0 ringOn with mboxRun := some 0 })] } } : State).func 0).mboxRun.isSome = true
    ∧ (State.reset.func 0).mboxRun = none ∧ (State.reset.func 0).fnReady = false
    ∧ (let s : State := { rig ring0 with host := { funcs := [(5, func0 ring0)] } }
       (s.func 5).mboxRun = none ∧ (s.func 5).fnReady = true ∧ s.partLive 5 = false) := by
  decide +kernel

/-- The paging pair, with the smallest and the largest size. -/
def rigPg (l : BitVec 5) (n : BitVec 13) : State :=
  { rig ring0 with vault := { (rig ring0).vault with pgLog2 := l, prqBase := 0x100000, psqBase := 0x200000, psqPi := 0x300000,
                                                     prqCi := 0x300040, pbufBase := 0x400000, pbufCount := n } }

def pagingOk (l : BitVec 5) (c : BitVec 13) : Prop :=
  let s := rigPg l c
  let n := 2 ^ l.toNat
  (s.func 0).mboxRun = none ∧ (s.func 0).fnReady = true ∧ s.partLive 0 = true ∧ s.vault.pgEnabled = false
  ∧ n ≤ c.toNat ∧ c.toNat ≤ 4096
  ∧ s.hostPasses 0 false 0x100000 (32 * n) true = true ∧ s.hostPasses 0 false 0x200000 (16 * n) false = true
  ∧ s.hostPasses 0 false 0x300000 4 false = true ∧ s.hostPasses 0 false 0x300040 4 false = true
  ∧ s.hostPasses 0 false 0x400000 (4096 * c.toNat) false = true ∧ s.hostPasses 0 false 0x400000 (4096 * c.toNat) true = true
  ∧ leNat (s.hostGet 0x300000 4) = 0 ∧ leNat (s.hostGet 0x300040 4) = 0

/-- A virtual function whose partition exists. -/
def rigVf : State := { rig ring0 with host := { funcs := [(5, func0 ring0)] }, vault := { parts := [(5, { live := true })] } }

theorem witness_PagingEnabled :
    pagingOk 6 64 ∧ 2 ^ (12 : BitVec 5).toNat ≤ (4096 : BitVec 13).toNat
    ∧ (rigVf.func 5).mboxRun = none ∧ (rigVf.func 5).fnReady = true ∧ rigVf.partLive 5 = true
    ∧ ({ rigPg 6 64 with gate := {} } : State).hostPasses 0 false 0x300000 4 false = false
    ∧ leNat (({ rigPg 6 64 with host := { funcs := [(0, func0 ring0)], mem := [(0x300003, 1)] } } : State).hostGet 0x300000 4) ≠ 0 := by
  unfold pagingOk
  and_intros <;> decide +kernel

/-- A poll that finds the ring's size of descriptors, one more with nothing consumed, and one more with one consumed. -/
theorem witness_RingPolled :
    let s := rig ringOn
    storesWf [(0x30000, 64)] = true ∧ (s.ring 0 0).piSeen = (s.ring 0 0).sqHead ∧ s.hostPasses 0 false 0x30000 4 false = true
    ∧ s.hostPasses 0 false 0x30040 4 false = true
    ∧ (leNat ((List.range 4).map fun i => memGet (memStores s.host.mem [(0x30000, 64)]) (0x30000 + i)) ≤ 2 ^ 6)
    ∧ 2 ^ 6 < leNat ((List.range 4).map fun i => memGet (memStores s.host.mem [(0x30000, 65)]) (0x30000 + i))
    ∧ leNat ((List.range 4).map fun i => memGet (memStores s.host.mem [(0x30000, 65), (0x30040, 1)]) (0x30040 + i)) = 1
    ∧ ((rig { ringOn with cqTail := 1 }).ring 0 0).cqTail = 1 ∧ ((rig ring0).ring 0 0).enabled = false := by
  decide +kernel

theorem witness_RingFaults :
    let s : State := { rigD [desc0] with gate := {} }
    (s.ring 0 0).enabled = true ∧ (s.ring 0 0).fault = false ∧ (s.ring 0 0).draining = false ∧ (s.ring 0 0).piSeen = (s.ring 0 0).sqHead
    ∧ s.hostPasses 0 false 0x30000 4 false = false ∧ ∃ d ∈ s.disp.descs, d.fn = 0 ∧ d.ring = 0 := by
  decide +kernel

/-- With n descriptors to read, more than one turn's. -/
def rigRead (n : Word32) : State := { rig { ringOn with piSeen := n } with disp := { rr := 255 } }

def readOk (n : Word32) : Prop :=
  (rigRead n).readsOn = true ∧ (rigRead n).nextRing = some 0 ∧ (rigRead n).tam.felledState = false
  ∧ ∀ i < 16, (rigRead n).hostPasses 0 false (0x10000 + 64 * (i % 64)) 64 false = true

theorem witness_DescriptorsRead : readOk 1 ∧ readOk 64 ∧ State.reset.readsOn = false := by
  unfold readOk
  and_intros <;> decide +kernel

def inbox (r : DRec) : State := { rig ringOn with disp := { descs := [{ r with stage := .inbox }], inbox := [0], nextId := 1 } }

/-- A management descriptor: PARTITION_CREATE. -/
def mgmt0 : DRec := { desc0 with bytes := [0x01, 0x0F] ++ zeros 62 }

theorem witness_Dispatched :
    (∀ r ∈ [desc0, mgmt0],
      let s := inbox r
      s.disp.inbox = [0] ∧ s.desc 0 = some { r with stage := .inbox } ∧ s.disp.mgmtPlace = none ∧ s.disp.recipePlace = none
      ∧ s.mesh.waitFwd = [] ∧ s.refusedAtOnce { r with stage := .inbox } = none)
    ∧ (desc0.isMgmt = false ∧ desc0.isRecipe = false ∧ desc0.ring < meshRing)
    ∧ ((inbox desc0).pwr.servingBits.getLsbD 0 = true ∧ (inbox desc0).coreQueue 7 = [])
    ∧ (∀ c < 8, State.reset.pwr.servingBits.getLsbD c = false)
    ∧ mgmt0.isMgmt = true ∧ (inbox mgmt0).disp.mgmtQ.length < 16
    ∧ 16 ≤ ({ (inbox mgmt0).disp with mgmtQ := List.replicate 16 1 } : Disp).mgmtQ.length := by
  decide +kernel

def fenced0 : DRec := { desc0 with id := 1, stage := .fenced }

theorem witness_FenceReleased :
    (∀ l ∈ [[desc0, fenced0], [fenced0]],
      (rigD l).disp.descs.find? (fun q => q.fn == (0 : Fn).val && q.ring == (0 : RingNo).val && q.stage == .fenced) = some fenced0)
    ∧ (∃ q ∈ (rigD [desc0, fenced0]).disp.descs, q.fn = 0 ∧ q.ring = 0 ∧ q.id < fenced0.id)
    ∧ ¬∃ q ∈ (rigD [fenced0]).disp.descs, q.fn = 0 ∧ q.ring = 0 ∧ q.id < fenced0.id := by
  decide +kernel

theorem witness_TimerInterrupts :
    (let x := (rig { ringOn with irqEn := true, vector := 9, timer := 1, pend := 1 }).ring 0 0
     x.irqEn = true ∧ x.vector.toNat < 10 ∧ x.timer ≠ 0 ∧ 0 < x.pend)
    ∧ (let x := (rig { ringOn with irqEn := true, vector := 10, timer := 1, pend := 1 }).ring 0 0
       10 ≤ x.vector.toNat)
    ∧ (let h := ({ (rig ringOn).host with pgTimer := 1, pgPend := 1 } : HostIf); h.pgTimer ≠ 0 ∧ 0 < h.pgPend)
    ∧ (mget (({ func0 ringOn with msix := [(9, { mask := false })] } : Func)).msix 9 {}).mask = false
    ∧ (mget (func0 ringOn).msix 9 {}).mask = true := by
  decide +kernel

/-- A descriptor that waits for two transient slots, and a pool of n slots. -/
def waiter : DRec := { desc0 with stage := .waitSlots 2 }
def rigPool (n : Nat) : State :=
  { rigD [waiter] with kr := { (rig ringOn).kr with poolWait := [0] }, vault := { (rig ringOn).vault with parts := [(0, { live := true, size := n })] } }

theorem witness_SlotsReserved : (rig ringOn).firstWaiter 0 = none ∧ (rigPool 2).firstWaiter 0 = some (waiter, 2)
    ∧ 2 - waiter.trans.length ≤ ((rigPool 2).freePool 0).length ∧ (rigPool 1).firstWaiter 0 = some (waiter, 2)
    ∧ ((rigPool 1).freePool 0).length < 2 - waiter.trans.length := by
  decide +kernel

/-! ### Witnesses: verbs, recipes, management -/

/-- A descriptor image with a selector, input, output room, PARAM and inline operands. -/
def image (sel inLen outCap param : Nat) (inl : Bytes) : Bytes :=
  toLE 2 sel ++ zeros 14 ++ toLE 8 0x40000 ++ toLE 4 inLen ++ zeros 4 ++ toLE 8 0x50000 ++ toLE 4 outCap ++ toLE 4 param ++ fit 16 inl

def descOf (sel inLen outCap param : Nat) (inl : Bytes) : DRec := { desc0 with bytes := image sel inLen outCap param inl }

/-- One numbered record of a type in page 100 of partition 0, resident with the nodes above it; page 101 is unread. -/
def rigRec (r : DRec) (type : Byte) : State :=
  let s := rigD [r]
  { s with vault := { s.vault with pages := [(100, { kind := 0, part := 0, recs := [(0, [type] ++ zeros 127)] })]
                                   nodes := [(2 ^ 24 + 1, [(37, 2)]), (2 ^ 25, [])], rootEntry := 1 } }

/-- VAULT_GET of that record. -/
def getDesc : DRec := descOf 0x0908 0 96 0 (toLE 8 3200)

theorem witness_VerbCompletes :
    (∃ (r q : DRec) (t : State) (a : Answer), (Instr.nop 0).verb = some (0, 0, 0, true) ∧ verbForm 0 0 = some formNop
      ∧ (rigD [desc0]).meshed = false ∧ (rigD [desc0]).startedAs 0 0 0 = some r
      ∧ runV (verbWork r formNop true) ((rigD [desc0]).rewind 0) = (.ok a, t) ∧ t.desc 0 = some q ∧ a.durable = false ∧ q.durable = false
      ∧ t.canComplete q a.out.length)
    ∧ ∃ (r q : DRec) (t : State) (a : Answer), (Instr.vaultGet 0).verb = some (0, 9, 8, true) ∧ verbForm 9 8 = some formVaultGet
      ∧ (rigRec getDesc 9).meshed = false ∧ (rigRec getDesc 9).startedAs 0 9 8 = some r
      ∧ runV (verbWork r formVaultGet true) ((rigRec getDesc 9).rewind 0) = (.ok a, t) ∧ t.desc 0 = some q ∧ a.durable = false ∧ q.durable = false
      ∧ a.out.length = 96 ∧ t.canComplete q a.out.length := by
  refine ⟨⟨_, _, _, _, rfl, rfl, rfl, rfl, rfl, rfl, rfl, rfl, ?_⟩, ⟨_, _, _, _, rfl, rfl, rfl, rfl, rfl, rfl, rfl, rfl, rfl, ?_⟩⟩ <;>
    simp only [State.canComplete] <;> decide +kernel

/-- COUNTER_INC by 1. -/
def incDesc : DRec := descOf 0x090A 0 0 1 (toLE 8 3200)

/-- COUNTER_INC waits for its commit, or ends where the paging rings have stopped; VAULT_GET of page 101 parks. -/
theorem witness_VerbWaits :
    (∃ (r q : DRec) (t : State) (a : Answer), (Instr.counterInc 0).verb = some (0, 9, 10, true) ∧ verbForm 9 10 = some formCounterInc
      ∧ (rigRec incDesc 10).meshed = false ∧ (rigRec incDesc 10).startedAs 0 9 10 = some r
      ∧ runV (verbWork r formCounterInc true) ((rigRec incDesc 10).rewind 0) = (.ok a, t) ∧ t.desc 0 = some q ∧ a.durable = true
      ∧ t.vault.pgFault = false ∧ q.written = [] ∧ t.canComplete q 0)
    ∧ (∃ (r q : DRec) (t : State) (a : Answer), let s : State := { rigD [desc0] with vault := { (rigD [desc0]).vault with pgFault := true } }
        s.startedAs 0 0 0 = some r ∧ runV (verbWork r formNop true) (s.rewind 0) = (.ok a, t) ∧ t.desc 0 = some q ∧ t.vault.pgFault = true
        ∧ q.written = [] ∧ t.canComplete q 0)
    ∧ ∃ (r : DRec) (t : State), let s := rigRec (descOf 0x0908 0 96 0 (toLE 8 3232)) 9
        s.startedAs 0 9 8 = some r ∧ runV (verbWork r formVaultGet true) (s.rewind 0) = (.error (.park 0 101), t) := by
  refine ⟨⟨_, _, _, _, rfl, rfl, rfl, rfl, rfl, rfl, rfl, rfl, rfl, ?_⟩, ⟨_, _, _, _, rfl, rfl, rfl, rfl, rfl, ?_⟩, ⟨_, _, rfl, rfl⟩⟩ <;>
    simp only [State.canComplete] <;> decide +kernel

/-- VAULT_GET of a record of another type. -/
theorem witness_VerbFails : ∃ (r q : DRec) (t : State), let s := rigRec getDesc 10
    s.startedAs 0 9 8 = some r ∧ runV (verbWork r formVaultGet true) (s.rewind 0) = (.error (.fail 0x0701 []), t) ∧ (t.mergeFlags 0).desc 0 = some q
    ∧ q.durable = false ∧ q.written = [] ∧ t.canComplete q 0 := by
  refine ⟨_, _, _, rfl, rfl, rfl, rfl, rfl, ?_⟩
  simp only [State.canComplete]; decide +kernel

/-- A recipe of one END step with this status, and EXEC_LIMIT 1; its descriptor before the step, and after n steps. -/
def recipe1 (st : Nat) : Bytes := zeros 0x16 ++ toLE 2 1 ++ zeros 0x68 ++ [4] ++ zeros 0x2F ++ toLE 2 st ++ zeros 0x0E
def recipeDesc (st n : Nat) : DRec := { descOf 0x8000 0 0 0 [] with image := recipe1 st, run := some { executed := n } }

theorem witness_RecipeEnds :
    (∀ c ∈ [(0, 0), (0x0301, 0), (0, 1)],
      let r := recipeDesc c.1 c.2
      let s := rigD [r]
      s.desc 0 = some r ∧ r.stage = .started ∧ r.isRecipe = true ∧ r.run = some { executed := c.2 } ∧ r.durable = false ∧ r.written = []
      ∧ stKind (imgStep r.image 0) = 4 ∧ leAt (imgStep r.image 0) 0x30 2 = c.1)
    ∧ imgExecLimit (recipe1 0) = 1
    ∧ ((rigD [recipeDesc 0 0]).refEnv (recipeDesc 0 0) {}).read (stInl (imgStep (recipe1 0) 0)) = some []
    ∧ (rigD [recipeDesc 0 0]).canComplete (recipeDesc 0 0) 0 := by
  refine ⟨by decide +kernel, by decide +kernel, by decide +kernel, ?_⟩
  simp only [State.canComplete]; decide +kernel

/-- An accepted management command of an operation with this body, at the head of the Warden's queue. -/
def mgmtDesc (op outCap : Nat) (body : Bytes) : DRec :=
  { descOf (0x0F00 + op) 0 outCap 0 [] with stage := .mgmt, phase := 1, image := body, ring := 0 }
def rigM (r : DRec) : State := { rigD [r] with disp := { descs := [r], nextId := 1, mgmtQ := [0] } }

/-- QUOTA_REPORT ends; PARTITION_CREATE waits for its commit, and fails for a partition that is there; DEVICE_RESET waits. -/
theorem witness_ManagementActs :
    (∃ (q : DRec) (t : State) (a : Answer), let r := mgmtDesc 4 64 (zeros 8); let s := rigM r
      (Instr.quotaReport 0 true).mgmt = some (0, opQuotaReport, true) ∧ s.meshed = false ∧ s.mgmtAs 0 4 = some r ∧ r.phase ≠ 0
      ∧ opQuotaReport.sel r.image = true ∧ runV (opQuotaReport.run (s.mgmtOpnd r true)) ((s.takeMgmt 0).rewind 0) = (.ok a, t) ∧ t.desc 0 = some q
      ∧ a.durable = false ∧ q.durable = false ∧ t.canComplete q a.out.length)
    ∧ (∃ (q : DRec) (t : State) (a : Answer), let r := mgmtDesc 1 0 ([31] ++ zeros 7); let s := rigM r
      s.mgmtAs 0 1 = some r ∧ runV (opPartitionCreate.run (s.mgmtOpnd r true)) ((s.takeMgmt 0).rewind 0) = (.ok a, t) ∧ t.desc 0 = some q ∧ a.durable = true
      ∧ t.vault.pgFault = false)
    ∧ (∃ (q : DRec) (t : State), let r := mgmtDesc 24 0 []; let s := rigM r
      s.mgmtAs 0 24 = some r ∧ runV (opDeviceReset.run (s.mgmtOpnd r true)) ((s.takeMgmt 0).rewind 0) = (.error (.hold (.mgmtWait (.commit 0) {})), t)
      ∧ t.desc 0 = some q)
    ∧ ∃ (q : DRec) (t : State), let r := mgmtDesc 1 0 (zeros 8); let s := rigM r
      s.mgmtAs 0 1 = some r ∧ runV (opPartitionCreate.run (s.mgmtOpnd r true)) ((s.takeMgmt 0).rewind 0) = (.error (.fail 0x0101 []), t)
      ∧ (t.mergeFlags 0).desc 0 = some q
      ∧ q.durable = false ∧ q.written = [] ∧ t.canComplete q 0 := by
  refine ⟨⟨_, _, _, rfl, rfl, rfl, by decide, rfl, rfl, rfl, rfl, rfl, ?_⟩, ⟨_, _, _, rfl, rfl, rfl, rfl, rfl⟩, ⟨_, _, rfl, rfl, rfl⟩,
    ⟨_, _, rfl, rfl, rfl, rfl, rfl, ?_⟩⟩ <;> simp only [State.canComplete] <;> decide +kernel

/-- PARTITION_CREATE of partition 31 as a Development part takes it: a command for the serial number n, in host memory. -/
def cmdBytes (n : Nat) : Bytes :=
  toLE 4 0x444D4344 ++ toLE 2 1 ++ toLE 2 0x0F01 ++ toLE 8 n ++ toLE 8 1 ++ toLE 8 0 ++ toLE 4 8 ++ zeros 28 ++ [31] ++ zeros 7

def cmdDesc : DRec := { descOf 0x0F01 72 0 0 [] with stage := .mgmt }
def rigCmd (n : Nat) : State :=
  let s := rigM cmdDesc
  { s with host := { s.host with mem := (List.range 72).map fun i => (0x40000 + i, byteAt (cmdBytes n) i) }
           life := { s.life with st := .development } }

theorem leNat_toLE (k n : Nat) : leNat (toLE k n) = n % 256 ^ k := by
  induction k generalizing n with
  | zero => simp [toLE, leNat, Nat.mod_one]
  | succ k ih =>
    rw [toLE, leNat, ih, show (BitVec.ofNat 8 n).toNat = n % 256 from rfl, Nat.pow_succ', Nat.mod_mul]

theorem serial_read (n : Nat) : leAt ((rigCmd n).hostGet 0x40000 72) 8 8 = n % 2 ^ 64 := by
  have : slice ((rigCmd n).hostGet 0x40000 72) 8 8 = toLE 8 n := by rfl
  rw [leAt, this, leNat_toLE]; norm_num

/-- What a Development part's command leaves once its checks have passed, whatever the part's serial number. -/
theorem cmd_passes (n : Nat) (h : Config.serial.toNat = n) :
    runV (mgmtIntake cmdDesc opPartitionCreate ((rigCmd n).mgmtOpnd cmdDesc true)) ((rigCmd n).takeMgmt 0)
      = (.ok ((rigCmd n).hostGet 0x40000 72), (rigCmd n).takeMgmt 0) := by
  have hs : leAt ((rigCmd n).hostGet 0x40000 72) 8 8 = Config.serial.toNat := by
    rw [serial_read, ← h, Nat.mod_eq_of_lt Config.serial.isLt]
  have ha : (rigCmd n).cmdAuthOk ((rigCmd n).hostGet 0x40000 72) true = true := by
    have h1 : leAt ((rigCmd n).hostGet 0x40000 72) 0x10 8 = 1 := by
      rw [leAt, show slice ((rigCmd n).hostGet 0x40000 72) 0x10 8 = toLE 8 1 from rfl, leNat_toLE]; norm_num
    have h2 : leAt ((rigCmd n).hostGet 0x40000 72) 0x18 8 = 0 := by
      rw [leAt, show slice ((rigCmd n).hostGet 0x40000 72) 0x18 8 = toLE 8 0 from rfl, leNat_toLE]; norm_num
    have h3 : (rigCmd n).life.cmdSeq = 0 := rfl
    unfold State.cmdAuthOk
    simp only [hs, h1, h2, h3, beq_self_eq_true, Bool.true_or, Bool.true_and]
    rfl
  have h1 : cmdDesc.plainOk = true := by decide +kernel
  have hw : ((rigCmd n).inWindows cmdDesc [(0x40000, 72)] false && (rigCmd n).inWindows cmdDesc [] true) = true := by
    show ((rigM cmdDesc).inWindows cmdDesc [(0x40000, 72)] false && (rigM cmdDesc).inWindows cmdDesc [] true) = true
    decide +kernel
  have hf : cmdDesc.inSgl = false ∧ cmdDesc.outSgl = false ∧ cmdDesc.inLen = 72 ∧ cmdDesc.outCap = 0 ∧ cmdDesc.inAddr = 0x40000 := by
    decide +kernel
  have h2 : runV (hostOperands cmdDesc 0) ((rigCmd n).takeMgmt 0) = (.ok ([(0x40000, 72)], []), (rigCmd n).takeMgmt 0) := by
    change ((((rigCmd n).takeMgmt 0).inWindows cmdDesc [(0x40000, 72)] false && ((rigCmd n).takeMgmt 0).inWindows cmdDesc [] true)) = true at hw
    unfold hostOperands extents
    rw [Bool.and_eq_true] at hw
    simp [runV_bind, hf, runV_need, hw, extentTotal, extentCut]
    rfl
  have hg : ((rigCmd n).takeMgmt 0).gather [(0x40000, 72)] = (rigCmd n).hostGet 0x40000 72 := by
    show (rigCmd n).gather [(0x40000, 72)] = _
    simp [State.gather]
  have h3 : ∀ b, decide (opPartitionCreate.out b ≤ cmdDesc.outCap) = true := fun _ => by
    show decide (0 ≤ cmdDesc.outCap) = true; simp
  have h4 : ((rigCmd n).takeMgmt 0).serves cmdDesc = true := rfl
  have h5 : (cmdDesc.param == 0 && cmdDesc.auxLen == 0 && allZero cmdDesc.inlineOps) = true := by decide +kernel
  have h6 : ∀ b, (opPartitionCreate.out b != 0 || cmdDesc.outCap == 0 && !cmdDesc.outSgl) = true := fun _ => by
    show ((0 : Nat) != 0 || cmdDesc.outCap == 0 && !cmdDesc.outSgl) = true; decide +kernel
  have h8 : opPartitionCreate.bare = false := rfl
  have e0 : leAt ((rigCmd n).hostGet 0x40000 72) 0 4 = 0x444D4344 := by
    rw [leAt, show slice ((rigCmd n).hostGet 0x40000 72) 0 4 = toLE 4 0x444D4344 from rfl, leNat_toLE]; norm_num
  have e4 : leAt ((rigCmd n).hostGet 0x40000 72) 4 2 = 1 := by
    rw [leAt, show slice ((rigCmd n).hostGet 0x40000 72) 4 2 = toLE 2 1 from rfl, leNat_toLE]; norm_num
  have e6 : leAt ((rigCmd n).hostGet 0x40000 72) 6 2 = cmdDesc.selector := by
    rw [leAt, show slice ((rigCmd n).hostGet 0x40000 72) 6 2 = toLE 2 0x0F01 from rfl, leNat_toLE]; decide +kernel
  have e20 : leAt ((rigCmd n).hostGet 0x40000 72) 0x20 4 = 8 := by
    rw [leAt, show slice ((rigCmd n).hostGet 0x40000 72) 0x20 4 = toLE 4 8 from rfl, leNat_toLE]; norm_num
  have e24 : slice ((rigCmd n).hostGet 0x40000 72) 0x24 28 = zeros 28 := rfl
  have e40 : slice ((rigCmd n).hostGet 0x40000 72) 64 8 = [31] ++ zeros 7 := rfl
  have el : ((rigCmd n).hostGet 0x40000 72).length = 72 := by simp [State.hostGet]
  have h7 : (cmdFormOk cmdDesc ((rigCmd n).hostGet 0x40000 72) true
      && opPartitionCreate.ok (opPartitionCreate.bodyOf ((rigCmd n).hostGet 0x40000 72))) = true := by
    have : opPartitionCreate.bodyOf ((rigCmd n).hostGet 0x40000 72) = [31] ++ zeros 7 := by
      rw [MgmtOp.bodyOf, h8, if_neg Bool.false_ne_true, cmdBody, e20, e40]
    rw [this]; unfold cmdFormOk
    simp only [e0, e4, e6, e20, e24, el, beq_self_eq_true, if_true]
    decide +kernel
  have hu : ((rigCmd n).takeMgmt 0).unsigned opPartitionCreate.op = true := rfl
  change ((rigCmd n).takeMgmt 0).cmdAuthOk ((rigCmd n).hostGet 0x40000 72) true = true at ha
  unfold mgmtIntake
  simp only [runV_bind, runV_need, h1, h2, if_true, runV_getV, hg, h3, h4, h5, h6, h8, hu, Bool.false_or, h7, ha, runV_pure,
    Bool.not_true, Bool.and_false, Bool.false_and, Bool.false_eq_true, if_false]

/-- The command is accepted; without it in host memory its form fails. -/
theorem witness_CommandAccepted :
    (let s := rigCmd Config.serial.toNat
     (Instr.partitionCreate 0 true).mgmt = some (0, opPartitionCreate, true) ∧ s.mgmtAs 0 1 = some cmdDesc ∧ cmdDesc.phase = 0
     ∧ opPartitionCreate.bare = false ∧ opPartitionCreate.sel (cmdBody (s.inputOf cmdDesc)) = true
     ∧ runV (mgmtIntake cmdDesc opPartitionCreate (s.mgmtOpnd cmdDesc true)) (s.takeMgmt 0) = (.ok (s.hostGet 0x40000 72), s.takeMgmt 0)
     ∧ (s.takeMgmt 0).desc 0 = some cmdDesc ∧ s.life.st ≠ .emptied)
    ∧ ∃ (t : State) (q : DRec), let s := rigM cmdDesc
      s.mgmtAs 0 1 = some cmdDesc ∧ runV (mgmtIntake cmdDesc opPartitionCreate (s.mgmtOpnd cmdDesc true)) (s.takeMgmt 0) = (.error (.fail 0x0101 []), t)
      ∧ (t.mergeFlags 0).desc 0 = some q
      ∧ q.durable = false ∧ q.written = [] ∧ t.canComplete q 0 := by
  refine ⟨⟨rfl, rfl, rfl, rfl, rfl, cmd_passes _ rfl, rfl, by intro h; cases h⟩, ⟨_, _, rfl, rfl, rfl, rfl, rfl, ?_⟩⟩
  simp only [State.canComplete]; decide +kernel

/-! ### Witnesses: the vault -/

/-- The paging pair runs; these requests and this commit are out, and the host holds these bytes. -/
def rigSup (reqs : List PReq) (commit : Option Commit) (mem : List Host.Cell) : State :=
  let s := rigPg 6 64
  { s with vault := { s.vault with pgEnabled := true, psqPiSeen := 1, reqs := reqs, commit := commit }
           host := { s.host with mem := mem } }

def req0 : PReq := { serial := 7, write := false, obj := 0, num := 100, copy := false, buf := 0 }
def commit0 : Commit := { seq := 1, objs := [(0, 100, 2)], root := 2, todo := [], serials := [7], waiters := [] }

/-- Host memory with a supply entry for serial 7 with RESULT e, and a page 100 in buffer 0 that opens. -/
def supplyMem (e : Byte) : List Host.Cell :=
  [(0x200000, 7), (0x200004, e), (0x400008, 100)] ++
    (List.range 16).map fun i => (0x400FD4 + i,
      Config.gcmTag 3 ((rigSup [] none []).pageCipher 0) (pageNonce 100 0) (toLE 8 0 ++ toLE 8 100) (zeros 0xFB0) i)

def supplyOk (s : State) : Prop :=
  s.vault.pgEnabled = true ∧ s.vault.pgFault = false ∧ s.vault.psqHead ≠ s.vault.psqPiSeen
  ∧ s.hostPasses 0 false (s.vault.psqBase.toNat + 16 * (s.vault.psqHead.toNat % 2 ^ s.vault.pgLog2.toNat)) 16 false = true
  ∧ s.vault.reqs.find? (fun q => q.serial.toNat == leNat ((s.hostGet 0x200000 16).take 4)) = s.vault.reqs.head?

theorem slice_read (s : State) (a n off len : Nat) (h : off + len ≤ n) : slice (s.hostGet a n) off len = s.hostGet (a + off) len := by
  apply List.ext_getElem
  · simp [slice, State.hostGet]; omega
  · intro i h1 h2
    simp [slice, State.hostGet, Nat.add_assoc]

theorem supplyMem_zero (e : Byte) (a : Nat) (h : 0x40000C ≤ a) (h' : a < 0x400FD4 ∨ 0x400FE4 ≤ a) : memGet (supplyMem e) a = 0 := by
  simp only [memGet, supplyMem, List.cons_append, List.nil_append, mget]
  rw [if_neg (by omega), if_neg (by omega), if_neg (by omega)]
  simp only [List.range, List.range.loop, List.map, mget]
  repeat rw [if_neg (by omega)]

theorem page_opens : ∃ p, (rigSup [req0] none (supplyMem 0)).openPage 100
    (((rigSup [req0] none (supplyMem 0)).entryOf 6 0 100).getD 0).toNat ((rigSup [req0] none (supplyMem 0)).hostGet 0x400000 4096) = some p := by
  have h1 : slice ((rigSup [req0] none (supplyMem 0)).hostGet 0x400000 4096) 0xFD4 16
      = gcmTag 3 ((rigSup [req0] none (supplyMem 0)).pageCipher 0) (pageNonce 100 0) (toLE 8 0 ++ toLE 8 100) (zeros 0xFB0) 16 := by
    rw [slice_read _ _ _ _ _ (by omega)]; rfl
  have h2 : slice ((rigSup [req0] none (supplyMem 0)).hostGet 0x400000 4096) 0 16 = toLE 8 0 ++ toLE 8 100 := by
    rw [slice_read _ _ _ _ _ (by omega)]; rfl
  have z : ∀ off len, 16 ≤ off → off + len ≤ 0xFD4 →
      slice ((rigSup [req0] none (supplyMem 0)).hostGet 0x400000 4096) off len = zeros len := by
    intro off len h h'
    rw [slice_read _ _ _ _ _ (by omega)]
    apply List.ext_getElem
    · simp [State.hostGet, zeros]
    · intro i hi hi'
      simp only [State.hostGet, List.length_map, List.length_range] at hi
      simp only [State.hostGet, List.getElem_map, List.getElem_range, zeros, List.getElem_replicate]
      exact supplyMem_zero 0 _ (by omega) (by omega)
  have h4 : leAt ((rigSup [req0] none (supplyMem 0)).hostGet 0x400000 4096) 8 4 = 100 := by
    rw [leAt, slice_read _ _ _ _ _ (by omega)]; rfl
  have h5 : (((rigSup [req0] none (supplyMem 0)).entryOf 6 0 100).getD 0).toNat = 0 := by decide +kernel
  have h6 : leAt ((rigSup [req0] none (supplyMem 0)).hostGet 0x400000 4096) 0xFC0 8 = 0 := by
    rw [leAt, z 0xFC0 8 (by omega) (by omega)]; decide
  unfold State.openPage
  rw [h5]
  exact ⟨_, if_pos ⟨by rw [h1, h2, z 16 0xFB0 (by omega) (by omega)], h4, h6⟩⟩

/-- No request under the serial, a late one, a WRITE answered well and badly, a READ answered badly, and one whose page opens. -/
theorem witness_SupplyTaken :
    supplyOk (rigSup [] none (supplyMem 0)) ∧ supplyOk (rigSup [{ req0 with timedOut := true }] none (supplyMem 0))
    ∧ supplyOk (rigSup [{ req0 with write := true }] (some commit0) (supplyMem 0)) ∧ req0.serial ∈ commit0.serials
    ∧ byteAt ((rigSup [req0] none (supplyMem 0)).hostGet 0x200000 16) 4 = 0
    ∧ supplyOk (rigSup [{ req0 with write := true }] (some commit0) (supplyMem 3))
    ∧ byteAt ((rigSup [req0] none (supplyMem 3)).hostGet 0x200000 16) 4 ≠ 0
    ∧ supplyOk (rigSup [req0] none (supplyMem 1)) ∧ byteAt ((rigSup [req0] none (supplyMem 1)).hostGet 0x200000 16) 4 = 1
    ∧ supplyOk (rigSup [req0] none (supplyMem 0)) ∧ req0.obj = 0
    ∧ (rigSup [req0] none (supplyMem 0)).hostPasses 0 false (0x400000 + 4096 * req0.buf) 4096 false = true := by
  unfold supplyOk
  and_intros <;> decide +kernel

/-- A late READ, a late WRITE of a commit; waits of each kind. -/
theorem witness_PagingTimesOut :
    (rigSup [req0] none []).vault.reqs.find? (fun q => q.serial == 7 && !q.timedOut) = some req0
    ∧ (rigSup [{ req0 with write := true }] (some commit0) []).vault.reqs.find? (fun q => q.serial == 7 && !q.timedOut)
        = some { req0 with write := true }
    ∧ (∃ c, (rigSup [{ req0 with write := true }] (some commit0) []).vault.commit = some c ∧ 7 ∈ c.serials ∧ (0, 100, 2) ∈ c.objs)
    ∧ (∀ g ∈ [Stage.parked 0 100, .waitNonce 3, .waitDurable {}],
        let r : DRec := { desc0 with stage := g }
        (rigD [r]).desc 0 = some r ∧ r.written = [] ∧ r.durable = false ∧ ((rigD [r]).mergeFlags 0).desc 0 = some r)
    ∧ (let f : Fetch := { tgt := .pau 0, part := 0, index := 3, trans := false, gen := 0, role := 0, algset := 0, desc := some 0, waits := some (0, 100) }
       let s : State := { rigD [desc0] with kr := { (rigD [desc0]).kr with fetches := [f] } }
       (∃ f ∈ s.kr.fetches, f.desc = some 0 ∧ f.waits.isSome = true) ∧ s.desc 0 = some desc0 ∧ desc0.durable = false ∧ desc0.written = []
         ∧ (s.mergeFlags 0).desc 0 = some desc0)
    ∧ (rigD [{ desc0 with stage := .parked 0 100 }]).canComplete { desc0 with stage := .parked 0 100 } 0 := by
  refine ⟨by decide +kernel, by decide +kernel, ⟨commit0, by decide +kernel⟩, by decide +kernel, by decide +kernel, ?_⟩
  simp only [State.canComplete]; decide +kernel

/-- A booted device with its storage key and these root slots, the vault not started. -/
def rigVs (l : Map RootSlot) : State :=
  { rig ring0 with vault := { rootSlots := l }, tam := { storageKey := some (zeros 32) } }

/-- An entry of the root store, and a slot whose CHECK is not this value. -/
def root0 (seq : Nat) (k : Bytes) : RootSlot := rootEntryOf seq 2 k
def torn0 : RootSlot := { root0 1 [] with magic := 0 }

theorem root0_whole (seq : Nat) (k : Bytes) : (root0 seq k).whole = true := by
  simp [RootSlot.whole, root0, rootEntryOf, RootSlot.sum, RootSlot.body]

theorem root0_key (seq : Nat) (k : Bytes) : (root0 seq k).keyCheck = k := rfl

theorem rigVs_key (l : Map RootSlot) : (rigVs l).keyCheck = (rigVs []).keyCheck := rfl

theorem rigVs_roots (l : Map RootSlot) : (rigVs l).vault.rootSlots = l := rfl

theorem witness_StorageStarts :
    (State.reset.mayStart = false ∧ ∀ l, (rigVs l).mayStart = true)
    ∧ (let s := rigVs [(1, root0 1 (rigVs []).keyCheck), (2, root0 2 (rigVs []).keyCheck)]
       s.validRoots = [(1, root0 1 (rigVs []).keyCheck), (2, root0 2 (rigVs []).keyCheck)])
    ∧ (let s := rigVs [(1, root0 1 [])]
       (∃ c ∈ s.vault.rootSlots, c.2.whole = true) ∧ s.validRoots = [])
    ∧ (∀ c ∈ (rigVs [(1, torn0)]).vault.rootSlots, c.2.whole = false)
    ∧ (∀ b : Bool, let s : State := { State.reset with kr := { keys := some ([], []) }, life := { State.reset.life with boot := .waitEntropy, perstN := b } }
       s.kr.keyed = true ∧ s.kr.ready = false ∧ s.life.boot = .waitEntropy ∧ s.tam.felledState = false ∧ s.vault.ready = false
       ∧ s.life.perstN = b)
    ∧ State.reset.kr.keyed = false := by
  refine ⟨⟨by decide, fun _ => rfl⟩, ?_, ?_, ?_, ?_, rfl⟩
  · simp only [State.validRoots, rigVs_key, rigVs_roots]; simp [root0_whole, root0_key]
  · refine ⟨⟨_, List.mem_singleton.2 rfl, root0_whole 1 []⟩, ?_⟩
    have : (rigVs []).keyCheck ≠ [] := by
      simp [State.keyCheck, enc, Config.take, algBlock]
    simp only [State.validRoots, rigVs_key, rigVs_roots]
    generalize (rigVs []).keyCheck = k at this ⊢
    simp [root0_whole, root0_key, Ne.symm this]
  · simp [rigVs_roots, torn0, RootSlot.whole]
  · intro b; cases b <;> decide

/-- A rebuild that starts and one that ends, a sweep over one slot. -/
theorem witness_StorageStarts' :
    (let s : State := { rigPg 6 64 with vault := { (rigPg 6 64).vault with pgEnabled := true, rootEntry := 1 }, kr := { ready := true } }
     s.kr.rebuilt = false ∧ s.kr.ready = true ∧ s.vault.ready = true ∧ s.vault.pgEnabled = true ∧ s.vault.pgFault = false
     ∧ s.mayRebuild = true ∧ s.kr.partsLoaded = false ∧ s.kr.reloads = [] ∧ ∃ p < 32, s.avail 0 (1 + p) = false)
    ∧ (let s : State := { rig ring0 with vault := { (rig ring0).vault with rebuilding := true }, kr := { (rig ring0).kr with toRestore := [3] } }
       s.kr.rebuilt = true ∧ s.vault.ready = true ∧ s.vault.rebuilding = true ∧ s.kr.partsLoaded = true
       ∧ (∀ i ∈ s.kr.toRestore, s.avail 0 (slotPage i) = true) ∧ s.kr.reloads = [])
    ∧ ∃ t, let w : Sweep := { part := 0, roots := [(0, 0)], desc := none }
       let s : State := { rig ring0 with vault := { (rig ring0).vault with parts := [(0, { live := true, size := 64, persist := 2 })] }
                                         kr := { (rig ring0).kr with slots := [(1, { alg := 1, persist := true, depth := 2, parentSlot := 0 })], sweeps := [w] } }
       s.kr.sweeps.find? (fun w => w.part == (0 : Fn).val) = some w
       ∧ runV (sweepWork w) s = (.ok (), t) ∧ t.vault.pgFault = false
       ∧ runV ((s.kr.toRestore.filter fun i =>
            decide ((s.part w.part).base ≤ i ∧ i < (s.part w.part).base + (s.part w.part).persist)).forM meet) s = (.ok (), s)
       ∧ 1 ∈ s.sweepSlots w := by
  refine ⟨by decide +kernel, by decide +kernel, ⟨_, rfl, rfl, rfl, rfl, by decide +kernel⟩⟩

/-- A dirty page, within the reserve and past it; a descriptor that waits for durability; a commit that is acknowledged, and one not. -/
theorem witness_CommitsRun :
    (∀ n ∈ [0, 16],
      let s : State := { rig ring0 with vault := { (rig ring0).vault with pgEnabled := true, pages := [(100, { dirty := true })], lastSeq := n, reserve := 16 } }
      s.dirtyPages = [100] ∧ s.vault.ready = true ∧ s.vault.pgEnabled = true ∧ s.vault.pgFault = false ∧ s.vault.commit = none
      ∧ (s.vault.lastSeq = 0 → s.vault.lastSeq < s.vault.reserve) ∧ (s.vault.lastSeq = 16 → s.vault.reserve ≤ s.vault.lastSeq))
    ∧ (rigD [{ desc0 with stage := .waitDurable {} }]).durables ≠ [] ∧ State.reset.dirtyPages = [] ∧ State.reset.durables = []
    ∧ (∀ c, State.reset.vault.commit = some c → c.acknowledged = false)
    ∧ (let c : Commit := { commit0 with serials := [], snaps := [(100, State.reset.page 100)] }
       (rigSup [] (some c) []).vault.commit = some c ∧ c.acknowledged = true ∧ (rigSup [] (some c) []).page 100 = State.reset.page 100 ∧ commit0.acknowledged = false) := by
  refine ⟨by decide +kernel, by decide +kernel, rfl, rfl, by simp [State.reset], rfl, rfl, rfl, rfl⟩

/-! ### Witnesses: resets, power, tamper -/

theorem witness_FunctionResets :
    ((State.reset.func 1).present = false) ∧ ((State.reset.func 0).fnReady = false)
    ∧ ((rig ringOn).func 0).present = true ∧ ((rig ringOn).func 0).fnReady = true
    ∧ (rigVf.func 5).present = true ∧ (rigVf.func 5).fnReady = true ∧ (∃ d ∈ (rigD [desc0]).disp.descs, d.fn = 0 ∧ d.ring < 8)
    ∧ (rig ringOn).resetAsked = none := by
  decide +kernel

/-- A device with its boot waiting for the link; one without main power; one held in reset. -/
def rigWait : State := { State.reset with life := { boot := .waitLink, perstN := false } }
def rigDark : State := { State.reset with life := { mainPower := false, sysRstN := false, st := .owned }, tam := { canary := .lost } }
def rigHeld : State := { State.reset with life := { sysRstN := false } }

theorem witness_WarmResetClears :
    (rig ringOn).mainRun = true ∧ rigDark.mainRun = false ∧ ((rig ringOn).func 0).fnReady = true ∧ (rig ringOn).life.perstN = true
    ∧ (State.reset.func 0).fnReady = false ∧ (rig ringOn).life.boot ≠ .waitLink ∧ rigWait.life.boot = .waitLink
    ∧ (rigWait.func (0 : Fn).val).present = true := by
  decide +kernel

theorem witness_ColdResetClears :
    (rig ringOn).mainRun = true ∧ rigDark.mainRun = false ∧ (10000 ≤ 10000 ∧ (rig ringOn).life.sysRstN = true) ∧ 999 < 1000
    ∧ (rigHeld.life.sysRstN = false ∧ rigHeld.life.mainPower = true) ∧ rigDark.life.mainPower = false ∧ (rig ringOn).life.mainPower = true
    ∧ (rigDark.tam.canary = .lost ∧ rigDark.life.st ≠ .blank) := by
  decide +kernel

/-- The first and the last entry confirm, with main power and on the cell; entry 98, and a latched one, do not; an undervoltage of the
first and the last main rail, and an overvoltage. -/
theorem witness_ConfirmationFells :
    ((rig ringOn).mayConfirm 0 = true ∧ (rig ringOn).mainRun = true) ∧ (rig ringOn).mayConfirm 158 = true
    ∧ (rig ringOn).mayConfirm 98 = false ∧ ({ rig ringOn with tam := { latched := [0] } } : State).mayConfirm 0 = false
    ∧ (∃ k : Fin 159, entryKind k.val = (2, 0) ∧ (rig ringOn).mayConfirm k.val = true)
    ∧ (∃ k : Fin 159, entryKind k.val = (2, 7) ∧ (rig ringOn).mayConfirm k.val = true)
    ∧ (∃ k : Fin 159, (entryKind k.val).1 = 2 ∧ (entryKind k.val).2 = 8 ∧ (rig ringOn).mayConfirm k.val = true)
    ∧ (rig ringOn).tam.felledState = false ∧ ((rig ringOn).tam.effect = 0 ∧ (rig ringOn).tam.events = [])
    ∧ (∃ k : Fin 159, grave (classOf (entryKind k.val).1) = true ∧ (rig ringOn).mayConfirm k.val = true)
    ∧ (({ rigDark with tam := {} } : State).mayConfirm 0 = true ∧ rigDark.mainRun = false) := by
  decide +kernel

theorem witness_TamperSettles :
    ({ scrubbing := true } : Tamper).scrubbing = true ∧ State.reset.tam.scrubbing = false
    ∧ (let t : Tamper := { uvPending := [3, 4], felledState := true }; t.uvPending = [3, 4] ∧ t.felledState = true ∧ t.effect = 0 ∧ t.events = []) := by
  decide

/-- One event whose window has closed; with another that is open still; none that has closed. -/
theorem witness_EventsLogged :
    (let s : State := { rig ringOn with tam := { events := [{ window := false, tbit := some 4095 }] } }
     s.mainRun = true ∧ (∃ e ∈ s.tam.events, e.window = false) ∧ s.tam.events = [{ window := false, tbit := some 4095 }])
    ∧ (let s : State := { rig ringOn with tam := { events := [{ window := false, tbit := some 0 }, {}] } }
       s.mainRun = true ∧ ∃ e ∈ s.tam.events, e.window = false)
    ∧ rigDark.mainRun = false ∧ ∀ e ∈ ([{}] : List Event), e.window = true := by
  decide +kernel

/-- The first and the last entry of the built-in test, entry 98 that has none, and the periodic test. -/
theorem witness_MonitorsTested :
    (∀ k ∈ [(0 : Byte), 158], ({ rig ringOn with tam := { testEntry := k } } : State).testable k.toNat = true)
    ∧ (∀ k ∈ [(98 : Byte), 159], ({ rig ringOn with tam := { testEntry := k } } : State).testable k.toNat = false)
    ∧ ((entriesFrom (rig ringOn).tam.nextTest).find? (fun k => k != 98 && (rig ringOn).monActive k) = some 0 ∧ (rig ringOn).testable 0 = true)
    ∧ ({ testBusy := true, fell := .test } : Tamper).testBusy = true ∧ (rig ringOn).mainRun = true ∧ State.reset.tam.testBusy = false
    ∧ (((rig ringOn).domain (11 : Fin 30).val).up = true ∧ ((rig ringOn).domain 11).pgood = true)
    ∧ ((rig ringOn).domain (29 : Fin 30).val).up = false := by
  decide +kernel

/-- A sentinel in each phase, with an interval's blocks run: no miss, a few, many, and many at ADVANCE 0. -/
def rigSent (p : SentPhase) (adv : BitVec 4) (ops : Word64) (miss : Word32) : State :=
  { rig ringOn with tam := { phase := [(0, p)] }
                    eng := { (rig ringOn).eng with sentinels := (List.range 2).map fun i => (i, { advance := adv, ops := ops, missFwd := miss }) } }

theorem witness_SentinelsAdjust :
    (rigSent .one 8 0 0).sentPhase (0 : Cl).val = .one ∧ (rigSent (.two none) 8 0 0).sentPhase 0 = .two none
    ∧ (rigSent .off 8 0 0).sentPhase 0 = .off
    ∧ (let u := (rigSent .one 15 0x80000 0).fillBlocks 0 (2 ^ 20); u.misses 0 = 0 ∧ (u.sentinel 0 0).advance = 15)
    ∧ (let u := (rigSent .one 8 0x80000 256).fillBlocks 0 (2 ^ 20); u.misses 0 ≠ 0 ∧ u.misses 0 * 2048 = u.ops 0)
    ∧ (let u := (rigSent (.two none) 1 0x8000 17).fillBlocks 0 (2 ^ 16); u.ops 0 < u.misses 0 * 2048 ∧ (u.sentinel 0 0).advance = 1)
    ∧ (let u := (rigSent (.two none) 0 0x8000 17).fillBlocks 0 (2 ^ 16); u.ops 0 < u.misses 0 * 2048 ∧ (u.sentinel 0 0).advance = 0)
    ∧ ((rigSent .one 8 0 0).ops 0 + 2 ^ 20 < 2 ^ 64 ∧ mget (rigSent .one 8 0 0).tam.topUp 0 0 ≤ (rigSent .one 8 0 0).ops 0) := by
  and_intros <;> decide +kernel

/-! ### Witnesses: entropy, time, power, gates, arbiters, clusters, board -/

def rigEnt (e : Entropy) : State := { rigD [{ desc0 with stage := .waitRandom }] with ent := e }

theorem witness_EntropyRuns :
    ((rigEnt {}).entStarting = true ∧ (rigEnt {}).ent.katPassed = false ∧ (rigEnt {}).ent.failTest = 0)
    ∧ ((rigEnt { katPassed := true }).entStarting = true ∧ (rigEnt { katPassed := true }).ent.katPassed = true)
    ∧ (rigEnt { failTest := 2, failSrc := 15 }).ent.failTest ≠ 0 ∧ (rig ringOn).entStarting = false ∧ (0xFFFF : Word16) ≠ 0
    ∧ ((rig ringOn).ent.st = .running ∧ (rig ringOn).tam.felledState = false)
    ∧ (rigEnt { st := .raw }).ent.st = .raw ∧ (rigEnt { st := .failed }).ent.st = .failed
    ∧ (7 ∉ (rig ringOn).poweredCle)
    ∧ (let s := rigEnt { (rig ringOn).ent with exps := [(0, { inst := true, calls := 65535 })] }
       0 ∈ s.poweredCle ∧ s.tam.felledState = false ∧ s.expanderServes 0 = true)
    ∧ (let s := rigEnt { (rig ringOn).ent with exps := [(0, { inst := true, calls := 65536 })] }
       0 ∈ s.poweredCle ∧ s.expanderServes 0 = false ∧ (s.expander 0).inst = true ∧ (s.expander 0).seedWait = false
       ∧ s.ent.fail = false ∧ s.ent.rawActive = false)
    ∧ (let s := rigEnt { (rig ringOn).ent with exps := [(0, { inst := true, calls := 65536, seedWait := true })] }
       0 ∈ s.poweredCle ∧ s.expanderServes 0 = false ∧ (s.expander 0).inst = true ∧ (s.expander 0).seedWait = true)
    ∧ (0 ∈ (rig ringOn).poweredCle ∧ (rig ringOn).expanderServes 0 = false ∧ ((rig ringOn).expander 0).inst = false)
    ∧ (rig ringOn).ent.words + 2 ≤ 64
    ∧ ({ rigEnt {} with eng := { ctxs := [(0, { holder := 1, desc := 1, waitRandom := true })] } } : State).ctxWaits 0 = true
    ∧ ((rigEnt {}).desc 0 = some { desc0 with stage := .waitRandom } ∧ ((rigEnt {}).mergeFlags 0).desc 0 = some { desc0 with stage := .waitRandom }
       ∧ desc0.durable = false ∧ desc0.written = []) := by
  and_intros <;> decide +kernel

theorem witness_EntropyRuns' : (rigEnt {}).canComplete { desc0 with stage := .waitRandom } 0 := by
  simp only [State.canComplete]; decide +kernel

/-- Edges on the boundary 10^9, 500 and 501 ns, 10 and 10.001 µs, 1 ms and 1.000001 ms off it. -/
def timeAt (c : Word64) (t : Time) : Time := { t with ppsEn := true, counter := c }

def offOf (c : Word64) : Int := (c.toNat : Int) - ((c.toNat + 500000000) / 1000000000 * 1000000000 : Nat)

theorem witness_TimeKept :
    (∀ c ∈ [((999999500 : Word64), 500), (1000000500, 500), (1000000501, 501), (999990000, 10000), (1000010001, 10001), (1001000000, 1000000),
        (998999999, 1000001)], (offOf c.1).natAbs = c.2)
    ∧ (∀ l ∈ [none, some 0, some 1000000000], (timeAt 1000000000 { lastBoundary := l, good := 3 }).lastBoundary = l)
    ∧ (State.reset.time.ppsEn = false ∧ (timeAt 0 {}).ppsEn = true) ∧ (timeAt 0 { lock := true }).lock = true
    ∧ (timeAt 0 { setPending := true }).setPending = true
    ∧ (timeAt 0 { badWindows := 1 }).badWindows < 2 ∧ 2 ≤ (timeAt 0 { badWindows := 2 }).badWindows := by
  decide +kernel

theorem witness_DomainsSwitched :
    (rig ringOn).switchable (0 : Fin 30).val = false ∧ (rig ringOn).switchable 3 = false ∧ (rig ringOn).switchable 25 = false
    ∧ ((rig ringOn).switchable 4 = true ∧ ((rig ringOn).domain 4).on = false) ∧ ((rig ringOn).switchable 20 = true ∧ ((rig ringOn).domain 20).on = true)
    ∧ ((rig ringOn).domain 29).ramping = false
    ∧ (let s : State := { rig ringOn with pwr := { domains := [(18, { on := true, ramping := true })], cstate := [(7, .powering)] } }
       (s.domain 18).ramping = true ∧ s.cst 7 = .powering ∧ (s.domain 10).on = false) := by
  decide +kernel

/-- The last region of GATE_HOST and of another gate, and the first that is none. -/
theorem witness_RegionsCommitted :
    (255 : Byte).toNat < 256 ∧ (63 : Byte).toNat < 64 ∧ 64 ≤ (64 : Byte).toNat ∧ State.reset.life.st = .blank ∧ (rig ringOn).life.st ≠ .blank
    ∧ ((rig ringOn).committed 0 255 0x127).bad = false ∧ ((rig ringOn).committed 0 255 0x10B).bad = true
    ∧ ((rig ringOn).committed 0 255 0x128).bad = false ∧ ((rig ringOn).committed 0 255 0x129).bad = true := by
  decide +kernel

/-- Arbiter 0 with these requests at engine 0, and this owner. -/
def rigArb (q : Map (List Req)) (y : EngArb) : State :=
  { rig ringOn with eng := { (rig ringOn).eng with arbs := [(0, { rotP := 0x07FF, queue := q, eng := [(0, y)] })] } }

def reqA : Req := { who := 1, part := 0, page := 0, count := 2 }

theorem witness_ArbitersDecide :
    (let x := (rig ringOn).arb (0 : Fin 12).val; mapOk x.pendLo x.pendHi = true ∧ x.rotEn = true ∧ x.coming = none)
    ∧ ({ arbReset 0 with coming := some (0x76543210, 0xEDCBA98) } : Arb).coming = some (0x76543210, 0xEDCBA98) ∧ (rig ringOn).arbUp 1 = false
    ∧ mapOk 0x76543211 0xEDCBA98 = false ∧ ({ arbReset 0 with rotEn := false } : Arb).rotEn = false
    ∧ (rig ringOn).arbUp 7 = false ∧ (rig ringOn).arbUp 0 = true ∧ (rig ringOn).arbUp 8 = true
    ∧ (((rigArb [] { oos := true }).arb 0).engine 0).oos = true
    ∧ ((((rigArb [] {}).arb 0).upTo 0).top 0 = none ∧ (((rigArb [] {}).arb 0).engine 0).owner = none ∧ (((rigArb [] {}).arb 0).engine 0).oos = false)
    ∧ (((rigArb [(4, [reqA]), (56, [reqA])] {}).arb 0).upTo 0).top 0 = some (14, reqA)
    ∧ (let x := ((rigArb [(4, [reqA])] { owner := some (5, reqA) }).arb 0).upTo 0
       x.top 0 = some (1, reqA) ∧ x.rank 1 ≤ x.rank 5 ∧ { reqA with done := reqA.done + 1 }.more = true)
    ∧ (let x := ((rigArb [(24, [reqA])] { owner := some (5, reqA) }).arb 0).upTo 0
       x.top 0 = some (6, reqA) ∧ x.rank 5 < x.rank 6)
    ∧ ({ { reqA with done := 1 } with done := 2 } : Req).more = false := by
  and_intros <;> decide +kernel

/-- The device with core 0 of cluster 0, at these states, and a repair of cluster 0. -/
def rigRepair (g : CState) (cycled : Bool) (last : Map Word64) : State :=
  { rig ringOn with pwr := { (rig ringOn).pwr with cstate := [(0, g)], servingBits := 0, current := some (.repair 0), cycled := cycled, repaired := last } }

def capture0 : Capture := { desc := 0, sources := 1, samples := 8, addr := 0x60000 }
def rigCap : State :=
  { rigM { mgmtDesc 25 0 [] with stage := .mgmtWait .capture {} } with ent := { st := .raw, rawActive := true, capture := some capture0 } }

theorem witness_ClusterEvents :
    (let s := rigD [desc0]
     (s.domain (3 + (0 : CoreNo).val / 8)).up = true ∧ s.coreQueue 0 = [0] ∧ desc0.onCore = true)
    ∧ (let s := rigD [{ desc0 with stage := .queued, begun := false }]
       s.coreQueue 0 = [0] ∧ s.desc 0 = some { desc0 with stage := .queued, begun := false } ∧ { desc0 with stage := .queued, begun := false }.onCore = false)
    ∧ ((rig ringOn).domain (3 + (63 : CoreNo).val / 8)).up = false
    ∧ ((rigRepair .draining false []).cst 0 = .draining ∧ (rigRepair .draining false []).drained 0 = true) ∧ (rig ringOn).cst 0 ≠ .draining
    ∧ (let s := rigRepair .quiesced false []; s.pwr.current = some (.repair 0) ∧ s.cst 0 = .quiesced ∧ s.pwr.turn = [] ∧ s.repairedLately 0 = false)
    ∧ (rigRepair .quiesced false [(0, 0)]).repairedLately 0 = true
    ∧ (let s := rigRepair .quiesced true []; s.pwr.cycled = true ∧ s.rejoinBar 0 = none)
    ∧ (let s : State := { rigRepair .quiesced true [] with tam := { lowMargin := [(0, true)] } }; s.rejoinBar 0 ≠ none)
    ∧ (let s : State := { rig ringOn with gate := { (rig ringOn).gate with oldWin := [(31, [])] } }
       mhas s.gate.oldWin 31 = true ∧ mhas s.gate.oldWin 0 = false ∧ (∀ r ∈ s.disp.descs, ¬(r.oldWin = true ∧ r.fn = 31)) ∧ s.vault.pgFault = false)
    ∧ (rigCap.ent.capture = some capture0 ∧ (rigCap.desc 0).isSome = true ∧ 8 ∣ capture0.samples
       ∧ (captureBytes rigCap.ent.instants capture0).length = 1 ∧ rigCap.hostPasses 0 false 0x60000 1 true = true) := by
  and_intros <;> decide +kernel

theorem witness_BoardReads : (rig ringOn).smbServed = true ∧ rigHeld.smbServed = false
    ∧ ((31 : Fn).val ≠ 0 ∧ ((rig ringOn).func 31).present = false ∧ (rigVf.func 5).present = true) := by
  decide +kernel

/-! ### Witnesses: engine pages and contexts -/

/-- Core 0 runs a descriptor of the owner; every master may use the cores' SRAM; engines as x. -/
def rigE (x : Engines) : State :=
  let s := rigD [desc0]
  { s with eng := { x with seeded := [(0, true)] }
           ent := { s.ent with exps := [(0, { inst := true })] }
           gate := { gates := [(0, wholeWin), (1, { regions := [(0, { valid := true, base := 0x04000000, sizeExp := 24,
                                                                      rmask := BitVec.allOnes 128, wmask := BitVec.allOnes 128 })] })] } }

/-- All eight pages of the owner on FCE0 of cluster 0, on its digest engine, and all contexts of PAUs 0 and 1, are held by core 9. -/
def fullE : Engines :=
  { pages := (List.range 8).map fun n => (pageKey 0 0 0 n, { holder := 10 }), dpages := (List.range 8).map fun n => (dpageKey 0 0 n, { holder := 10 })
    ctxs := (List.range 8).map fun n => (n, { holder := 10 }) }

theorem witness_PagesOpened :
    ((rigE {}).tagOf 0 = some (0, false) ∧ reachesCl 0 0 = true ∧ (rigE {}).opened 0 0 0 = false ∧ (∀ o ∈ (rigE {}).eng.opens, ¬(o.cl = 0))
      ∧ (rigE {}).closedPages 0 0 0 = [0, 1, 2, 3, 4, 5, 6, 7] ∧ (rigE {}).grants 0 0 = true)
    ∧ ((rigE fullE).opened 0 0 0 = false ∧ (rigE fullE).closedPages 0 0 0 = [])
    ∧ ((rig ringOn).tagOf 0 = none ∧ reachesCl 0 4 = false ∧ (rigE { pages := [(0, { holder := 1 })] }).opened 0 0 0 = true)
    ∧ ((rigE {}).opened 0 0 3 = false ∧ (rigE {}).grants 0 3 = true ∧ (4 : Word32).toNat ≤ ((rigE {}).closedPages 0 3 0).length
      ∧ 4 < (5 : Word32).toNat)
    ∧ ((rigE fullE).opened 0 0 3 = false ∧ ((rigE fullE).closedPages 0 3 0).length < max 1 (0 : Word32).toNat)
    ∧ ((rigE {}).heldCtx 0 = none ∧ mget (rigE {}).eng.pauWait (halfOf 0) [] = [] ∧ (rigE {}).freeCtxs 0 = [0, 1, 2, 3] ∧ (rigE {}).freeCtxs 1 = [0, 1, 2, 3])
    ∧ ((rigE fullE).heldCtx 0 = none ∧ (rigE fullE).freeCtxs 0 = [] ∧ (rigE fullE).freeCtxs 1 = []) := by
  and_intros <;> decide +kernel

def at0 : PageAddr := { who := 0, cl := 0, eng := .fce0, page := 0 }
def dat0 : DgeAddr := { who := 0, cl := 0, page := 0 }

theorem witness_PagesOpened' :
    (let s := rigE { pages := [(0, { holder := 1 })] }
     s.eng.opens = [] ∧ s.heldPage at0 = some 0 ∧ pkPart 0 < 32 ∧ pageKey (pkCl 0) (pkEng 0) (pkPart 0) (pkPage 0) = 0)
    ∧ (rigE {}).heldPage at0 = none
    ∧ ((rigE { dpages := [(0, { holder := 1 })] }).heldDpage dat0 = some 0 ∧ dpageKey (dkCl 0) (pkPart 0) (pkPage 0) = 0) ∧ (rigE {}).heldDpage dat0 = none
    ∧ (let s := rigE { ctxs := [(0, { holder := 1 })] }; s.heldCtx (0 : Who).val = some 0 ∧ mget s.eng.pauWait (0 / 4 / 2) [] = []) := by
  and_intros <;> decide +kernel

/-- An AES-128 key of the owner's for every operation, under the anchor, and a key register that holds it, from slot 0. -/
def key0 : Slot := { key := zeros 16, alg := 1, cls := 1, depth := 1, usage := 0xFFFF, vEnd := BitVec.allOnes 24, parentGen := 0 }
def aesReg : KeyReg1 := .held key0 0 0 false

/-- Core 0's page 0 on FCE0 as x, and slot 0 holding the key. -/
def rigP (x : CPage) : State :=
  let s := rigE { pages := [(0, { x with holder := 1, desc := 1 })] }
  { s with kr := { (rig ringOn).kr with slots := [(0, key0)] }
           vault := { s.vault with parts := [(0, { live := true, size := 8, persist := 1 })] } }

/-- A request for ENC of one block that goes nowhere and waits in the page. -/
def encReq : OpReq := { code := 0x10, word := 0x10000 }

theorem witness_RequestsRun :
    ((rigE {}).heldPage at0 = none ∧ (rigP {}).heldPage at0 = some 0)
    ∧ ((rigP { state := .busy }).cpage 0).state = .busy ∧ ((rigP { state := .wait }).cpage 0).state = .wait
    ∧ (encReq.formOk (pkEng 0) { ka := aesReg } = true ∧ encReq.needs { ka := aesReg } = [false])
    ∧ ({ encReq with word := 0x10C00 } : OpReq).formOk (pkEng 0) { ka := aesReg } = false
    ∧ (aesReg.filled = true ∧ ((rigP { ka := aesReg }).cpage 0).reg false = aesReg)
    ∧ ((rigP { ka := .refused 0x0201 }).cpage 0).reg false = .refused 0x0201 ∧ ((rigP { ka := .inFlight }).cpage 0).reg false = .inFlight
    ∧ ((rigP {}).cpage 0).reg false = .empty
    ∧ (({ code := 0x30, word := 0 } : OpReq).formOk (pkEng 0) { ka := aesReg } = true ∧ ({ code := 0x30, word := 0 } : OpReq).needs { ka := aesReg } = [false]
      ∧ ({ code := 0x30, word := 0 } : OpReq).takesNonce {} = true ∧ encReq.takesNonce {} = false
      ∧ (rigP { ka := aesReg }).nonceRefusal (pkPart 0) key0 0 0 = none
      ∧ ({ rigP { ka := aesReg } with kr := { (rigP {}).kr with slots := [] } } : State).nonceRefusal (pkPart 0) key0 0 0 = some 0x0203)
    ∧ (let q : OpReq := { code := 0x13, word := 0x10000 }
       q.formOk (pkEng 0) { ka := aesReg } = true ∧ q.src = 0 ∧ (q.needs { ka := aesReg }).map (({ ka := aesReg } : CPage).reg) = [aesReg])
    ∧ (((rigP {}).cpage 0).desc ≠ 0 ∧ (((rigP {}).mergeFlags 0).desc 0 = some desc0) ∧ desc0.durable = false ∧ desc0.written = []) := by
  and_intros <;> decide +kernel

theorem witness_RequestsRun_ends : (rigP {}).canComplete desc0 0 := by
  simp only [State.canComplete]; decide +kernel

theorem witness_RequestsRun_nonce : ∃ n t, runV (takeNonce 0) (rigP { ka := aesReg, state := .wait, req := some { code := 0x30, word := 0 } }) = (.ok n, t) :=
  ⟨_, _, rfl⟩

/-- The request is with its engine: its block has run, or none has. -/
def encPage (done : Word32) : CPage := { state := .busy, req := some encReq, entered := true, ka := aesReg, first := zeros 16, progress := done }

theorem witness_RequestsRun_end :
    (let s := rigP (encPage 1)
     s.heldPage at0 = some 0 ∧ (s.cpage 0).req = some encReq ∧ (s.cpage 0).state = .busy ∧ (s.cpage 0).entered = true
     ∧ encReq.count ≤ (s.cpage 0).progress.toNat ∧ (s.cpage 0).reg encReq.kb = aesReg ∧ encReq.src = 0 ∧ encReq.dst = 0
     ∧ algBlock 1 * encReq.count ≤ (fit (algBlock 1) (s.cpage 0).first ++ (s.cpage 0).feed).length ∧ s.granted 0 = true ∧ (s.cpage 0).desc ≠ 0)
    ∧ ((rigP (encPage 0)).cpage 0).progress.toNat < encReq.count ∧ (rigP (encPage 0)).granted 0 = false := by
  and_intros <;> decide +kernel

/-- The work of a request that ends well, in misuse, refused, and of a BUF_STORE of what is not authenticated. -/
theorem witness_RequestsRun_work :
    (∃ y t, let s := rigP (encPage 1)
      runV (runOp (s.pageOpnd (s.cpage 0).who (s.cpage 0).desc (pkPart 0)) (s.cpage 0) encReq []) s = (.ok y, t))
    ∧ (∃ t wr, let q : OpReq := { code := 0x21, word := 0x10000 }
      let s := rigP { encPage 1 with req := some q }
      runV (runOp (s.pageOpnd (s.cpage 0).who (s.cpage 0).desc (pkPart 0)) (s.cpage 0) q []) s = (.error (.fail 0x0801 wr), t))
    ∧ (∃ t wr, let q : OpReq := { code := 0x16, word := 0x10000 }
      let s := rigP { encPage 1 with req := some q, unproved := true }
      runV (runOp (s.pageOpnd (s.cpage 0).who (s.cpage 0).desc (pkPart 0)) (s.cpage 0) q []) s = (.error (.fail 0x0301 wr), t))
    ∧ ∃ t wr, let q : OpReq := { code := 0x14, word := 0x10000 }
      let s : State := { rigP { encPage 1 with req := some q } with ent := { st := .failed, fail := true } }
      runV (runOp (s.pageOpnd (s.cpage 0).who (s.cpage 0).desc (pkPart 0)) (s.cpage 0) q []) s = (.error (.fail 0x0402 wr), t) :=
  ⟨⟨_, _, rfl⟩, ⟨_, _, rfl⟩, ⟨_, _, rfl⟩, ⟨_, _, rfl⟩⟩

/-- A fetch of slot 0. -/
def fetch0 (f : KeyTarget) : Fetch :=
  { tgt := f, part := 0, index := 0, trans := false, gen := 0, role := 0, algset := 2, desc := some 0 }
def rigK (x : Engines) (f : KeyTarget) : State :=
  let s := rigE x
  { s with
    kr := { (rig ringOn).kr with slots := [(0, key0)], fetches := [fetch0 f] }
    vault := { s.vault with parts := [(0, { live := true, size := 8, persist := 1 })] } }

theorem witness_KeysFetched :
    ((rigE {}).fetchSource (.cipher at0 false) = none ∧ (rigP { algsetA := 2 }).fetchSource (.cipher at0 false) = some (0, 1, 0, 2))
    ∧ (State.reset.kr.ready = false ∧ ((rigK {} (.pau 0)).kr.ready = true ∧ (rigK {} (.pau 0)).kr.bus ≠ .halted))
    ∧ (let s := rigK { pages := [(0, { holder := 1, desc := 1 })] } (.cipher at0 true)
       s.heldPage at0 = some 0 ∧ (s.cpage 0).req = none)
    ∧ (let s := rigK { dpages := [(0, { holder := 1, desc := 1 })] } (.digest dat0)
       s.heldDpage dat0 = some 0 ∧ (s.dpage 0).pend = .none)
    ∧ (let s := rigK { ctxs := [(0, { holder := 1, desc := 1, state := .opened })] } (.pau 0)
       s.heldCtx 0 = some 0 ∧ (s.ctx 0).state ≠ .busy)
    ∧ ((rigP { state := .ready }).cpage 0).state = .ready ∧ ((rigP { state := .busy }).cpage 0).state ≠ .ready := by
  and_intros <;> decide +kernel

def rigKc : State := rigK { pages := [(0, { holder := 1, desc := 1 })] } (.cipher at0 true)
def rigKp : State := rigK { ctxs := [(0, { holder := 1, desc := 1, state := .opened })] } (.pau 0)

/-- Slot 0 holds a signing key. -/
def rigKx : State := { rigKp with kr := { rigKp.kr with slots := [(0, { key0 with alg := 8, cls := 2 })] } }

/-- The slot is to be restored, from a page that is not resident. -/
def rigKr : State := { rigKc with kr := { rigKc.kr with toRestore := [0] }, vault := { rigKc.vault with rootEntry := 1 } }

theorem witness_KeysFetched_run :
    (∃ i x t, rigKc.fetchAll (fetch0 (.cipher at0 true)) = (.ok (i, x), t))
    ∧ (∃ i x t, rigKx.fetchAll { fetch0 (.pau 0) with algset := 0x100 } = (.ok (i, x), t))
    ∧ (∃ w t, rigKc.fetchAll { fetch0 (.cipher at0 true) with algset := 0 } = (.error (.fail 0x0204 w), t)
        ∧ (t.mergeFlags 0).desc 0 = some desc0 ∧ t.heldPage at0 = some 0 ∧ (t.cpage 0).req = none)
    ∧ (∃ w t, ({ rigKc with kr := { rigKc.kr with slots := [] } } : State).fetchAll (fetch0 (.cipher at0 true)) = (.error (.fail 0x0201 w), t))
    ∧ ({ fetch0 (.cipher at0 true) with failed := some 0x0503 } : Fetch).failed = some 0x0503
    ∧ ∃ l n t, rigKr.fetchAll (fetch0 (.cipher at0 true)) = (.error (.park l n), t) :=
  ⟨⟨_, _, _, rfl⟩, ⟨_, _, _, rfl⟩, ⟨_, _, rfl, rfl, rfl, rfl⟩, ⟨_, _, rfl⟩, rfl, ⟨_, _, _, rfl⟩⟩

/-! ### Witnesses: digest pages and PAU contexts -/

def rigG (x : DPage) : State := rigE { dpages := [(0, { x with holder := 1, desc := 1 })] }

/-- A SHA-256 page that feeds 64 bytes. -/
def shaPage : DPage := { algo := 1, decl := 64, state := .feeding }
def hmacKey : Slot := { key0 with key := zeros 32, alg := 6 }
def hmacPage : DPage := { shaPage with secret := true, ka := .held hmacKey 0 0 false, padc := 0x36 }

theorem witness_DigestRuns :
    ((rigE {}).heldDpage dat0 = none ∧ (rigG {}).heldDpage dat0 = some 0)
    ∧ ((rigG { shaPage with state := .busy }).dpage 0).state = .busy
    ∧ (((rigG { shaPage with state := .opened }).dpage 0).state = .opened ∧ (rigG { shaPage with state := .opened }).initOk 0 = true)
    ∧ ((rigG { shaPage with state := .opened, outLen := 33 }).initOk 0 = false ∧ (rigG shaPage).initOk 0 = true)
    ∧ ((rigG shaPage).dgeAsks 0 0 = false ∧ (rigE { arbs := [(0, { rotP := 0x07FF, queue := [(7, [{ who := 0, part := 0, page := 1, count := 1 }])] })] }).dgeAsks 0 0 = true)
    ∧ (shaPage.blockBusy = false ∧ shaPage.src.toNat < 2 ∧ shaPage.wanted = 64 ∧ { shaPage with decl := 0 }.wanted = 0)
    ∧ (shaPage.take (toLE 4 0)).blockBusy = false ∧ ({ shaPage with buf := zeros 60, fed := 60 }.take (toLE 4 0)).blockBusy = true
    ∧ ({ shaPage with blockBusy := true }.src = 0)
    ∧ (hmacPage.state = .feeding ∧ hmacPage.secret = true ∧ hmacPage.fed = 0 ∧ hmacPage.keyed = 0 ∧ hmacPage.blockBusy = false
      ∧ (hmacPage.framedKey []).isSome = true ∧ (hmacPage.takeKey hmacKey 0).full = true ∧ ({ hmacPage with frame := 2 }.takeKey hmacKey 0).full = false)
    ∧ (shaPage.state ≠ .busy ∧ shaPage.secret = false)
    ∧ ({ shaPage with fed := 64 }.finalOk = true ∧ shaPage.finalOk = false ∧ { shaPage with fed := 64, overrun := true }.finalOk = false) := by
  and_intros <;> decide +kernel

theorem witness_DigestRuns_done :
    (let x := { shaPage with entered := true, blockBusy := true, buf := zeros 64, fed := 64 }
     (rigG x).dgeRan 0 = true ∧ x.pend = .none ∧ x.waits = 0 ∧ (∀ i < 8, ((rigG x).dpage (sibling 0 i)).pend = .none) ∧ x.absorbed.full = false)
    ∧ ({ hmacPage with blockBusy := true, buf := zeros 128 }.absorbed.full = true)
    ∧ (let x := { hmacPage with entered := true, state := .busy, pend := .keyAbsorb, blockBusy := true, buf := zeros 64 }
       (rigG x).dgeRan 0 = true ∧ x.absorbed.full = false)
    ∧ (let x := { shaPage with entered := true, state := .busy, pend := .final, dest := 0 }; (rigG x).dgeRan 0 = true ∧ x.result = [])
    ∧ (let x := { shaPage with entered := true, state := .busy, pend := .final, dest := 2 }; (rigG x).dgeRan 0 = true ∧ x.result = [])
    ∧ (let x := { shaPage with entered := true, state := .busy, pend := .save, whereSt := 0 }
       (rigG x).dgeRan 0 = true ∧ ((rigG x).areaCheck 0 true).2 = true) := by
  and_intros <;> decide +kernel

/-- Context 0 of the core, or of the Warden, and digest page 0 as its bound page. -/
def rigX (warden : Bool) (x : Ctx) : State :=
  let h := if warden then 65 else 1
  let y : DPage := { state := .feeding, holder := h, src := 2, dest := 6, secret := true, algo := 6 }
  rigE { ctxs := [(0, { x with holder := h, desc := if warden then 0 else 1 })], dpages := [(0, y)],
         sram := (List.range 200).map fun i => (i, 1)
         arbs := [(8, { rotP := 0x0FFF, eng := [(0, { owner := some (0, { who := 0, part := 0, page := 0, count := 1 }) })] })] }

/-- Registers that serve every operation. -/
def ctx0 (sink : BitVec 2) : Ctx := { state := .opened, xofEn := true, size := 8, outCap := 0xFFFF, sink := sink, outOff := 0x4000 }

/-- A form each operation takes, and what its public check reads. -/
theorem witness_PauRuns_forms :
    (∀ op ∈ [(0x01 : Byte), 0x11, 0x21, 0x31], (rigX true (ctx0 1)).heldCtx 64 = some 0
      ∧ ((rigX true (ctx0 1)).setCtx 0 { (rigX true (ctx0 1)).ctx 0 with state := .busy, op := op }).pauFormOk 0 op.toNat = true
      ∧ (ctx0 1).inBytes op.toNat = 0 ∧ (ctx0 1).publicOk op.toNat [] = true)
    ∧ (∀ op ∈ [(0x02 : Byte), 0x03, 0x12, 0x13, 0x22, 0x23, 0x32, 0x33, 0x34, 0x35], (rigX false (ctx0 1)).heldCtx 0 = some 0
      ∧ ((rigX false (ctx0 1)).setCtx 0 { (rigX false (ctx0 1)).ctx 0 with state := .busy, op := op }).pauFormOk 0 op.toNat = true)
    ∧ ((rigX false (ctx0 2)).setCtx 0 { (rigX false (ctx0 2)).ctx 0 with state := .busy, op := 0x24 }).pauFormOk 0 0x24 = true
    ∧ ((rigX false (ctx0 0)).setCtx 0 { (rigX false (ctx0 0)).ctx 0 with state := .busy, op := 0x24 }).pauFormOk 0 0x24 = false
    ∧ (rigX false (ctx0 0)).heldCtx 64 = none := by
  and_intros <;> decide +kernel

/-- The input passes; three checks are of the keys and signatures of Config, and hold where those accept. -/
theorem witness_PauRuns_public :
    (∀ op ∈ [0x02, 0x13, 0x22, 0x32, 0x34, 0x35], (ctx0 1).publicOk op (zeros ((ctx0 1).inBytes op)) = true)
    ∧ (let b := (rigX false (ctx0 1)).sramGet 0 0 ((ctx0 1).inBytes 0x33)
       (ctx0 1).publicOk 0x33 b = false ∨ (ctx0 1).publicOk 0x33 (b.take 256 ++ zeros 256) = true)
    ∧ (∀ b, Config.mlkemKeyOk b = true → b.length = 1184 → (ctx0 1).publicOk 0x12 b = true)
    ∧ (∀ b, Config.ecPointOk false b = true → b.length = 65 → (ctx0 1).publicOk 0x24 b = true)
    ∧ (∀ b, Config.mldsaSigOk (b.drop 1952) = true → b.length = 5261 → (ctx0 1).publicOk 0x03 b = true) := by
  refine ⟨by decide +kernel, by decide +kernel, ?_, ?_, ?_⟩ <;> intro b h l <;> simp [Ctx.publicOk, Ctx.inBytes, Ctx.point, ctx0, h, l]

theorem witness_PauRuns :
    (rigE {}).heldCtx 0 = none
    ∧ (((rigX false { ctx0 1 with state := .busy }).ctx 0).state = .busy ∧ ((rigX false { ctx0 1 with state := .await }).ctx 0).state = .await)
    ∧ (let s := rigX false { ctx0 1 with inLen := 65 }
       (s.ctx 0).inLen.toNat ≠ (ctx0 1).inBytes 0x35 ∧ ((ctx0 1).inBytes 0x35 ≠ 0) ∧ (ctx0 1).inBytes 0x35 = 256
       ∧ (s.pauRead 0 0 256).2.map List.length = some 256)
    ∧ (let s := rigX false { ctx0 1 with inLen := 5261 }
       (s.sramCheck 79 0 0x4000 64 true 0).2 = true ∧ (s.sramCheck 79 0 0 1952 false 0).2 = true)
    ∧ (((rigX false { ctx0 1 with ka := .inFlight }).ctx 0).ka = .inFlight
      ∧ ((rigX false { ctx0 1 with ka := .refused 0x0201 }).ctx 0).ka = .refused 0x0201 ∧ ((rigX false (ctx0 1)).ctx 0).ka = .empty) := by
  and_intros <;> decide +kernel

theorem witness_PauRuns_key (x : KeyReg1) : ((rigX false { ctx0 1 with ka := x }).ctx 0).ka = x := rfl

/-- An operation that the arbiter has granted. -/
def rigX1 (op : Byte) (ka : KeyReg1) : State :=
  rigX false { ctx0 1 with state := .busy, op := op, entered := true, progress := 1, ka := ka, digest := some (zeros 32) }

def runX (s : State) : Except Stop PauEnd × State :=
  let x := s.ctx 0
  let o := s.pageOpnd x.who x.desc x.part
  runV (runPau o x x.operands (x.digest.getD [])) ((s.setCtx 0 { x with waitRandom := false }).rewind o.d)

theorem witness_PauRuns_done :
    (((rigX1 0x22 .empty).ctx 0).state = .busy ∧ ((rigX1 0x22 .empty).ctx 0).entered = true ∧ ((rigX1 0x22 .empty).ctx 0).xofWait = false)
    ∧ (∃ i q, (((rigX1 0x22 .empty).arb 8).engine 0).owner = some (i, q) ∧ q.page = 0)
    ∧ (¬∃ i q, (((rigE {}).arb 8).engine 0).owner = some (i, q) ∧ q.page = 0)
    ∧ ((rigX false { ctx0 1 with state := .busy, op := 0x22, entered := true, xofWait := true }).ctx 0).xofWait = true
    ∧ ((0x22 : Byte).toNat ∈ digestOps ∧ ((rigX false (ctx0 1)).ctx 0).digest = none)
    ∧ (let w := ((runX (rigX1 0x33 .empty)).2.xofEnds 0).pauMasked 0
       (w.pauWrite 0 (w.ctx 0).outOff.toNat (zeros 256)).2 = true ∧ (w.ctx 0).op = 0x33 ∧ (w.ctx 0).who ≠ 64) := by
  refine ⟨by decide +kernel, ⟨_, _, rfl, rfl⟩, ?_, by decide +kernel, by decide +kernel, by decide +kernel⟩
  rintro ⟨i, q, h, -⟩
  have : (((rigE {}).arb 8).engine 0).owner = none := by decide +kernel
  simp [this] at h

/-- An ECDSA key in slot 0, and a key register that holds it. -/
def ecKey : Slot := { key0 with key := zeros 32, alg := 10, cls := 2 }
def ecReg : KeyReg1 := .held ecKey 0 0 false

def endsReady (r : Except Stop PauEnd × State) : Bool :=
  match r with
  | (.ok (.ready _ none), t) => (t.ctx 0).op == 0x33 && (t.ctx 0).outOff == 0x4000 || (t.ctx 0).op == 0x22
  | (.ok (.ready _ (some _)), t) => (t.ctx 0).op == 0x23
  | _ => false
def failsWith (st : Word16) (r : Except Stop PauEnd × State) : Bool :=
  match r with
  | (.error (.fail a _), _) => a == st
  | _ => false

theorem witness_PauRuns_ready :
    endsReady (runX (rigX1 0x33 .empty)) = true ∧ endsReady (runX (rigX1 0x23 .empty)) = true
    ∧ endsReady (runX (rigX1 0x22 ecReg)) = true
    ∧ failsWith 0x0402 (runX { rigX1 0x22 ecReg with ent := { st := .failed, fail := true } }) = true
    ∧ failsWith 0x0801 (runX (rigX1 0x22 .empty)) = true
    ∧ (runX { rigX1 0x22 ecReg with ent := { (rigX1 0x22 ecReg).ent with exps := [(0, { inst := true, calls := 65536 })] } }).1 = .error (.wait .waitRandom) := by
  and_intros <;> decide +kernel

/-- The other ends, where Config's RSA finds no primes and where it answers that a modulus is too small. -/
theorem witness_PauRuns_exhausted (o : Opnd) (x : Ctx) (s t : State) (rnd : Bytes) (h : x.op = 0x31) (hr : runV (random o (pairRandom 12)) s = (.ok rnd, t))
    (hf : Config.rsaFound x.size.toNat rnd = false) : runV (runPau o x [] []) s = (.ok .exhausted, t) := by
  simp [runPau, h, runV_bind, hr, hf]

theorem witness_PauRuns_invalid (o : Opnd) (x : Ctx) (s t : State) (priv b : Bytes) (h : x.op = 0x32) (hk : runV (ctxKey o x) s = (.ok priv, t))
    (hb : beNat (slice priv 4 x.k) ≤ beNat b) : runV (runPau o x b []) s = (.ok .invalid, t) := by
  simp [runPau, h, runV_bind, hk, hb]

/-! ### Witnesses: links and the mesh -/

def roster0 : Roster :=
  { members := [{ meshId := 0, serial := Config.serial, idDigest := zeros 32 }, { meshId := 1, serial := 1, idDigest := shake 32 (zeros 1952) }] }

def portUp : Port := { up := true, lanes := 4, attested := true, peerId := 1, txKey := some (zeros 32), rxKey := some (zeros 32) }

/-- A full mesh of two, this device with MESH_ID 0; port 0 as x, m the rest of the mesh. -/
def rigN (s : State) (x : Port) (m : Mesh) : State :=
  { s with
    mesh := { m with roster := some roster0, ports := [(0, x)], memberMap := 3 }
    pwr := { s.pwr with domains := (26, domUp) :: s.pwr.domains } }

theorem meshed_rigN (x : Port) (m : Mesh) : (rigN (rig ringOn) x m).meshed = true := by
  simp [State.meshed, rigN, roster0, rig, State.ownId]

theorem position_roster0 : roster0.position = 0 := by simp [Roster.position, roster0, List.findIdx_cons]

theorem trains_rigN (x : Port) (m : Mesh) (h : x.enable = true) : (rigN (rig ringOn) x m).trains 0 = true := by
  have hp : (rigN (rig ringOn) x m).port 0 = x := rfl
  have hu : (rigN (rig ringOn) x m).portUsed 0 = true := by
    show (decide (2 ≤ roster0.members.length) && (roster0.partner roster0.position 0).isSome) = true
    rw [position_roster0]; decide +kernel
  have hd : ((rigN (rig ringOn) x m).domain (26 + 0)).up = true := rfl
  simp [State.trains, hp, hu, hd, h]

theorem witness_LinksRun :
    (portUp.up = true ∧ portUp.attested = true ∧ ({} : Port).up = false ∧ ({} : Port).enable = true)
    ∧ (rig ringOn).trains 0 = false ∧ (rig ringOn).meshed = false
    ∧ ((rigN (rig ringOn) { portUp with attested := false } { hs := [(0, { st := .failed })] }).shakeOf 0).st = .failed := by
  and_intros <;> rfl

/-- The Warden draws its random, or cannot. -/
theorem witness_LinksRun_starts :
    (let s := rigE {}; ((rigN { s with eng := { s.eng with seeded := [(0, true)] } } {} {}).wardenWork (fun o => random o 96)).1.isSome = true)
    ∧ (({ rigN (rig ringOn) {} {} with ent := { st := .failed, fail := true } } : State).wardenWork (fun o => random o 96)).1.isSome = false := by
  and_intros <;> decide +kernel

theorem flitClass_cons (b : Byte) (l : Bytes) : flitClass (b :: l) = bits b.toNat 0 3 := by simp [flitClass, leAt, slice, leNat]

/-- A handshake flit with its CRC, and a flit of a class with its tag under a key. -/
def crcFlit (h : Bytes) : Bytes := h ++ toLE 8 (crc64 h).toNat
def tagFlit (cls seq : Nat) (key nonce : Bytes) : Bytes :=
  let head := [BitVec.ofNat 8 cls, 0] ++ toLE 2 seq ++ zeros 4
  head ++ zeros 48 ++ Config.take 8 (Config.gcmTag 3 key nonce head (zeros 48))

theorem crc_crcFlit (h : Bytes) (n : h.length = 56) : (crc64 ((crcFlit h).take 56)).toNat = leAt (crcFlit h) 0x38 8 := by
  have h1 : (crcFlit h).take 56 = h := by simp [crcFlit, n]
  have h2 : slice (crcFlit h) 56 8 = toLE 8 (crc64 h).toNat := by
    have : (toLE 8 (crc64 h).toNat).length = 8 := rfl
    simp [crcFlit, slice, n, List.take_of_length_le, this]
  rw [h1, leAt, h2, leNat_toLE, Nat.mod_eq_of_lt (by have := (crc64 h).isLt; omega)]

/-- With its CRC right, a handshake flit starts a message of an unknown type, or none; and one of a known type. -/
theorem witness_LinksRun_handshake :
    (∀ c ∈ [(0x15, true), (0x05, false)], ∀ r : Bytes, flitClass (BitVec.ofNat 8 c.1 :: r) = 5 ∧ flitSom (BitVec.ofNat 8 c.1 :: r) = c.2)
    ∧ leAt ([5] ++ zeros 63) 8 1 ∉ [0x50, 0x51, 0x52] ∧ leAt ([5] ++ zeros 7 ++ [0x52] ++ zeros 55) 8 1 ∈ [0x50, 0x51, 0x52] := by
  refine ⟨?_, by decide +kernel, by decide +kernel⟩
  intro c hc r
  simp only [List.mem_cons, List.not_mem_nil, or_false] at hc
  rcases hc with rfl | rfl <;> rw [flitClass_cons] <;> simp [flitSom, leAt, slice, leNat, bits, bit]

theorem witness_LinksRun_tag (k n : Bytes) : ∀ c ∈ [(0, 0), (4, 1), (4, 0)],
    let f := tagFlit c.1 c.2 k n
    f.length = 64 ∧ flitClass f = c.1 ∧ flitTagOk k n f = true ∧ flitSeq f = BitVec.ofNat 12 c.2 := by
  intro c hc
  simp only [List.mem_cons, List.not_mem_nil, or_false] at hc
  rcases hc with rfl | rfl | rfl <;>
    refine ⟨rfl, flitClass_cons _ _, by unfold flitTagOk; rw [beq_iff_eq]; rfl, ?_⟩ <;>
    simp [flitSeq, tagFlit, leAt, slice, toLE, leNat]

theorem witness_LinksRun_fails : flitClass ([6] ++ zeros 63) = 6 ∧ ({ portUp with tagFails := 6 }.tagFails < 7) ∧ 7 ≤ { portUp with tagFails := 7 }.tagFails
    ∧ ({ portUp with rxKey := none }.rxKey = none) := by decide +kernel

/-! ### Witnesses: the exchange -/

def helloPeer : Hello := { hello0 with position := 1, meshId := 1, serial := 1, idKey := zeros 1952 }

def rigS (x : Port) (h : Shake) : State :=
  let s := rigE {}
  rigN { s with eng := { s.eng with seeded := [(0, true)] }, kr := { s.kr with wardenKey := some (zeros 32) } } x { hs := [(0, h), (9, h)] }

theorem meshed_rigS (x : Port) (h : Shake) : (rigS x h).meshed = true := by
  simp [State.meshed, rigS, rigN, roster0, rigE, rigD, rig, State.ownId]

def portRaw : Port := { portUp with attested := false, txKey := none, rxKey := none }

/-- The peer's HELLO passes its checks where Moroafy's endorsement verifies, and fails them with another roster digest. -/
theorem witness_MeshAttests_hello (h : Config.mldsaVerify (Config.label 3) (Config.label 2) (([] : Bytes).take 64 ++ zeros 1952) [] = true) :
    (rigS portRaw { st := .sent }).helloOk 0 helloPeer = true
    ∧ (rigS portRaw { st := .sent }).helloOk 0 { helloPeer with rosterDigest := List.replicate 32 1 } = false := by
  have hr : (rigS portRaw { st := .sent }).mesh.roster = some roster0 := rfl
  have hp : roster0.partner 0 0 = some (1, 0) := by decide +kernel
  have h1 : (rigS portRaw { st := .sent }).rosterDigest = zeros 32 := rfl
  have h2 : (rigS portRaw { st := .sent }).ownerDigest = zeros 32 := rfl
  have h3 : (rigS portRaw { st := .sent }).ownId = 0 := rfl
  constructor
  · simp only [State.helloOk, hr, position_roster0, hp, h1, h2, h3]
    simp [helloPeer, hello0, roster0] at h ⊢
    exact h
  · simp only [State.helloOk, hr, h1]
    rw [show (({ helloPeer with rosterDigest := List.replicate 32 1 } : Hello).rosterDigest == zeros 32) = false by decide +kernel]
    simp only [Bool.and_false, Bool.false_and]

theorem witness_MeshAttests :
    ((rigS portRaw {}).port 0).up = true ∧ ((rigS portRaw { st := .sent }).shakeOf 0).st = .sent ∧ (rigS portRaw {}).shakeKey 0 1 = 0
    ∧ (rigS portUp {}).shakeKey 0 1 = 9
    ∧ ((rigS portRaw { st := .helloOk }).port 0).attested = false ∧ ((rigS portRaw { st := .helloOk }).shakeOf 0).st = .helloOk
    ∧ ((rigS portRaw { st := .keyed }).shakeOf 0).st = .keyed ∧ ((rigS portUp { st := .keyed }).shakeOf 9).st = .keyed
    ∧ (mhas (rigS portUp {}).mesh.beats 1 = false ∧ mhas ({ rigS portUp {} with mesh := { (rigS portUp {}).mesh with beats := [(1, {})] } } : State).mesh.beats 1 = true)
    ∧ (rigS portUp {}).kemOwner [] [] = none ∧ ({ portUp with rxKey := none }.rxKey = none) := by
  and_intros <;> decide +kernel

/-- A member answers end to end where its signature verifies. -/
theorem witness_MeshAttests_owner (h : ∀ d, Config.mldsaVerify [] shakeContext d [] = true) :
    ∃ k, (rigS portUp { st := .helloOk }).kemOwner [] [] = some k := by
  refine Option.isSome_iff_exists.1 ?_
  simp only [State.kemOwner, List.find?_isSome]
  refine ⟨9, by decide, ?_⟩
  have : (rigS portUp { st := .helloOk }).shakeOf 9 = { st := .helloOk } := rfl
  simp only [this, h]; rfl

theorem xor_cancel (k : Bytes) : ∀ p : Bytes, p.length = k.length → xorBytes (xorBytes p k) k = p := by
  induction k with
  | nil => intro p h; cases p <;> simp_all [xorBytes]
  | cons a k ih => intro p h; cases p with
    | nil => simp at h
    | cons b p => simp [xorBytes] at ih ⊢; exact ih p (by simpa using h)

/-- A FINISH flit under a key: its header, 0x52 under the keystream, its tag. -/
def finishFlit (seq : Nat) (key nonce : Bytes) : Bytes :=
  let head := [4, 0] ++ toLE 2 seq ++ zeros 4
  let body := xorBytes (0x52 :: zeros 47) (Config.take 48 (Config.gcmStream 3 key nonce))
  head ++ body ++ Config.take 8 (Config.gcmTag 3 key nonce head body)

/-- It is received whole over a port that waits for its first flit, and says FINISH. -/
theorem witness_MeshAttests_finish (b : Bool) (h : Shake) :
    let s := rigS { portUp with attested := b } h
    let f := finishFlit 1 (zeros 32) (s.flitNonce 0)
    ∃ t c, s.rxFlit 0 f = (t, some c) ∧ flitClass f = 4 ∧ leAt c 0 1 = 0x52 ∧ t.shakeOf 0 = h ∧ (t.port 0).attested = b := by
  intro s f
  have hp : s.port 0 = { portUp with attested := b } := rfl
  have hl : f.length = 64 := rfl
  have hc : flitClass f = 4 := flitClass_cons _ _
  have hs : flitSeq f = portUp.rxSeq + 1 := by simp [f, portUp, flitSeq, finishFlit, leAt, slice, toLE, leNat]
  have ht : flitTagOk (zeros 32) (s.flitNonce 0) f = true := by unfold flitTagOk; rw [beq_iff_eq]; rfl
  have hb : flitBody (zeros 32) (s.flitNonce 0) f = 0x52 :: zeros 47 := by
    have : slice f 8 48 = xorBytes (0x52 :: zeros 47) (Config.take 48 (Config.gcmStream 3 (zeros 32) (s.flitNonce 0))) := rfl
    rw [flitBody, this]; exact xor_cancel (Config.take 48 (Config.gcmStream 3 (zeros 32) (s.flitNonce 0))) (0x52 :: zeros 47) rfl
  let n := nextCtr portUp.rxCtr (some (zeros 32))
  let y : Port := { portUp with attested := b, rxCtr := n.1, rxKey := n.2, tagFails := 0, rxSeq := flitSeq f, acked := flitSeq f, nak := false }
  refine ⟨s.setPort 0 (y.control f), 0x52 :: zeros 47, ?_, hc, by decide +kernel, rfl, ?_⟩
  · have h1 : (flitClass f ≤ 4) = True := by rw [hc]; decide
    simp only [State.rxFlit, hp, show portUp.up = true from rfl, hl, show portUp.rxKey = some (zeros 32) from rfl, ht, hb]
    rw [hc, if_neg (by decide), if_neg (by decide), if_pos (by decide), if_neg (by decide)]
    exact if_pos hs
  · cases b <;> rfl

theorem witness_MeshAttests_quiet (h : Shake) (f : Bytes) : (rigS {} h).rxFlit 0 f = (rigS {} h, none) := rfl

/-! ### Witnesses: mesh messages -/

/-- A message of member 1 to this device, over port 0. -/
def msgIn (tag attempt : Word16) (aux : Word32) (body : Bytes) : Msg := { msg0 with tag := tag, attempt := attempt, aux := aux, body := body }

theorem hears_rigN (tag attempt : Word16) (aux : Word32) (body : Bytes) (m : Mesh) (h : m.stale = false) :
    (rigN (rig ringOn) portUp m).hears (msgIn tag attempt aux body) := by
  refine ⟨meshed_rigN _ _, rfl, ?_, rfl, Or.inr rfl⟩
  simpa [rigN] using h

/-- What `hears` asks is the same with other descriptors, another vault, other gates and other entropy. -/
theorem hears_rigW (s : State) (tag attempt : Word16) (aux : Word32) (body : Bytes) (m : Mesh) (h : m.stale = false)
    (hl : s.life = (rig ringOn).life) (ht : s.tam = (rig ringOn).tam) : (rigN s portUp m).hears (msgIn tag attempt aux body) := by
  have hm : (rigN s portUp m).meshed = true := by simp [State.meshed, rigN, roster0, State.ownId, hl, rig]
  have h0 : (rigN s portUp m).ownId = 0 := by simp [State.ownId, rigN, hl, rig]
  refine ⟨hm, ?_, by simpa [rigN] using h, by rw [h0]; rfl, Or.inr rfl⟩
  show s.tam.felledState = false
  rw [ht]; rfl

/-- A NOP image, forwarded; RANDOM of 16 bytes. -/
def nopImage : Bytes := zeros 64
def rndImage : Bytes := toLE 2 0x0904 ++ zeros 62

def meshDesc (tag : Word32) : DRec := { id := 0, fn := 0, ring := meshRing + 1, idx := tag, bytes := zeros 24 ++ toLE 4 8192 ++ zeros 36, stage := .inbox }
def held0 : Held := { src := 1, tag := 7, attempt := 1, part := 0, body := [], got := 4096, asked := 8192, port := 0 }
def rigH (l : List DRec) (h : List Held) : State := rigN (rigD l) portUp { held := h }

theorem witness_MeshForwards_all :
    (rig ringOn).meshed = false ∧ (∀ m : Msg, m = { msg0 with dst := 2 } → m.src.val ≠ 0 ∧ m.dst.val ≠ 0)
    ∧ (rigN (rig ringOn) portUp {}).ownId = 0 ∧ ((rigN (rig ringOn) portUp {}).port 0).attested = true ∧ portRaw.attested = false := by
  refine ⟨rfl, ?_, by decide +kernel, by decide +kernel, rfl⟩
  rintro m rfl; decide

theorem witness_MeshForwards_fwd :
    ([held0].find? (fun h => h.is 1 7) = some held0 ∧ ([] : List Held).find? (fun h => h.is 1 7) = none)
    ∧ (({ meshDesc 7 with bytes := rndImage } : DRec).takesRandom = true ∧ ({ meshDesc 7 with bytes := nopImage } : DRec).takesRandom = false)
    ∧ (rigN (rig ringOn) portUp {}).fwdQueue < 512
    ∧ ((rigN (rig ringOn) portUp {}).life.st = .operational ∧ (rigN (rig ringOn) portUp {}).vault.ready = true)
    ∧ (rigN (rig ringOn) portUp { resyncing := true }).mesh.resyncing = true
    ∧ fwdStep (zeros 64) = [] ∧ (fwdStep (zeros 144)).length = 80 := by
  and_intros <;> decide +kernel

theorem witness_MeshForwards_full : 512 ≤ (rigN { rig ringOn with disp := { descs := List.replicate 512 (meshDesc 7) } } portUp {}).fwdQueue := by
  have h : (decide (meshRing ≤ (meshDesc 7).ring ∧ (meshDesc 7).ring < txnRing) && (meshDesc 7).stage == .inbox) = true := by decide +kernel
  have : ∀ n, ((List.replicate n (meshDesc 7)).filter fun r => decide (meshRing ≤ r.ring ∧ r.ring < txnRing) && r.stage == .inbox).length = n := by
    intro n
    rw [List.filter_replicate, if_pos h, List.length_replicate]
  exact (this 512).ge

def meshGate : Gate :=
  { regions := [(0, { valid := true, base := 0x04000000, sizeExp := 24, rmask := BitVec.allOnes 128, wmask := BitVec.allOnes 128 })] }

theorem witness_MeshForwards_data :
    ((rigH [meshDesc 7] [held0]).heldDesc held0).isSome = true ∧ (rigH [] [held0]).heldDesc held0 = none
    ∧ (leAt (toLE 8 4096 ++ zeros 4096) 0 8 = held0.got ∧ (meshDesc 7).inLen = 8192 ∧ leAt (zeros 8) 0 8 ≠ held0.got)
    ∧ ((rigH [meshDesc 7] [held0]).receive 0 0 4096 (zeros 4) 0).2 = false
    ∧ ((rigH [meshDesc 7] [held0]).receive 0 0 4096 [] 0).2 = true
    ∧ (({ rigH [meshDesc 7] [held0] with gate := { gates := [(5, meshGate)] } } : State).receive 0 0 4096 (zeros 4) 0).2 = true := by
  and_intros <;> decide +kernel

def fwd0 : Fwd := { dst := 1, tag := 3, attempt := 1, desc := 0, part := 0, body := zeros 64, port := 0 }
def rigF (r : DRec) (e : Entropy) : State :=
  { rigN (rigD [r]) portUp { fwds := [fwd0], beats := [(2, { entReady := true })], memberMap := 7 } with ent := e }

theorem witness_MeshForwards_reply :
    ((rigF desc0 {}).replyTo (msgIn 3 1 1 []) = some fwd0 ∧ (rigF desc0 {}).replyTo (msgIn 3 0 1 []) = none)
    ∧ ((rigF desc0 {}).desc 0 = some desc0 ∧ desc0.run = none)
    ∧ (rigF { desc0 with run := some {} } {}).desc 0 = some { desc0 with run := some {} }
    ∧ (rigF desc0 {}).ent.fail = false
    ∧ (let s := rigF desc0 { st := .failed, fail := true }
       let v : State := { s with mesh := { s.mesh with memberMap := 7, beats := mset s.mesh.beats 1 { mget s.mesh.beats 1 {} with entReady := false } } }
       s.ent.fail = true ∧ v.randomHome = [2] ∧ fwd0.step = none ∧ { fwd0 with step := some ({}, []) }.step = some ({}, []))
    ∧ (succeeded (BitVec.ofNat 16 (leAt (toLE 2 1) 0 2)) = true ∧ succeeded (BitVec.ofNat 16 (leAt (toLE 2 0x0301) 0 2)) = false)
    ∧ (bit (leAt (toLE 4 0x80000000) 2 2) 15 = true ∧ bit (leAt (toLE 4 0x7FFF0000) 2 2) 15 = false) := by
  and_intros <;> decide +kernel

/-! ### Witnesses: transactions and beats -/

/-- A mesh state that holds the pair key of member 1. -/
def keyed1 : Mesh := { pairKeys := [(1, zeros 32)] }

def txn0 : Txn := { rseq := 1, origin := 1, tag := 3, attempt := 1, body := txnBody 1 2 [], waiting := [0, 1] }

/-- MASTER_GENERATE of an AES-128 key for slot 0 of partition 0, as a transaction's body, at a coordinator that draws the key. -/
def masterTxn : Bytes := txnBody 0 3 ([7] ++ zeros 63 ++ [0, 1] ++ zeros 14)
def rigMaster : State :=
  let s := rigE {}
  rigN { s with vault := { s.vault with parts := [(0, { live := true, size := 8, persist := 1 })] } } portUp keyed1

theorem witness_MeshAgrees_key :
    txnKind masterTxn = 3 ∧ rigMaster.txnRefusal masterTxn 0 = none ∧ (rigMaster.txnKey masterTxn).1.isSome = true
    ∧ (({ rigMaster with ent := { st := .failed, fail := true } } : State).txnKey masterTxn).1 = none
    ∧ ({ rigMaster with ent := { st := .failed, fail := true } } : State).txnRefusal masterTxn 0 = none := by
  and_intros <;> decide +kernel

theorem witness_MeshAgrees_txn :
    (txnRseq (txnBody 1 2 []) = 1 ∧ (rigN (rig ringOn) portUp { keyed1 with rseq := 1 }).mesh.rseq = 1 ∧ (rigN (rig ringOn) portUp keyed1).mesh.rseq = 0)
    ∧ (txnRseq (txnBody 0 4 (zeros 32)) = 0 ∧ txnKind (txnBody 0 4 (zeros 32)) = 4 ∧ (rigN (rig ringOn) portUp keyed1).coordinatorBut 0 = 1)
    ∧ ((rigN (rig ringOn) portUp keyed1).coordinator = 0 ∧ (rigN (rig ringOn) portUp keyed1).quorum = true)
    ∧ ((rigN (rig ringOn) portUp keyed1).mesh.journal = [] ∧ txn0.origin = 1 ∧ txnKind txn0.body = txnKind (txnBody 0 2 [])
      ∧ (txnPay (txnBody 0 2 [])).isPrefixOf (txnPay txn0.body) = true ∧ txn0.done = false ∧ { txn0 with done := true }.done = true)
    ∧ ((rigN (rig ringOn) portUp keyed1).txnRefusal (txnBody 0 2 []) 0 = none ∧ (rigN (rig ringOn) portUp keyed1).txnRefusal (txnBody 0 1 []) 0 = some 0x0101) := by
  and_intros <;> decide +kernel

def waits0 (st : Word16) : DRec := { desc0 with stage := .mgmtWait (.txn 0) { status := st } }

theorem witness_MeshAgrees_done :
    ((rigN (rigD []) portUp keyed1).txnOf 0).isNone = true ∧ (rigN (rigD [waits0 0]) portUp keyed1).txnOf 0 = some (waits0 0, { status := 0 })
    ∧ (waits0 0).run = none ∧ succeeded (BitVec.ofNat 16 (leAt (toLE 2 0) 0 2)) = true ∧ succeeded (BitVec.ofNat 16 (leAt (toLE 2 0x0505) 0 2)) = false
    ∧ ({ waits0 0 with run := some {} } : DRec).run.isSome = true ∧ ({ rigD [] with vault := { pgFault := true } } : State).vault.pgFault = true
    ∧ (waits0 0).durable = false ∧ ({ waits0 0 with durable := true } : DRec).durable = true ∧ (rigD []).vault.pgFault = false := by
  and_intros <;> decide +kernel

theorem witness_MeshAgrees_beats :
    ((rigN (rig ringOn) portUp keyed1).coordinatorBut 1 = 0 ∧ (rigN (rig ringOn) portUp keyed1).lastRseq ≤ leAt (toLE 8 0) 0 8)
    ∧ ((rigN (rig ringOn) portUp { keyed1 with journal := [txn0] }).lastRseq = 1 ∧ leAt (toLE 8 0) 0 8 = 0 ∧ ∃ t ∈ [txn0], t.rseq = 0 + 1)
    ∧ (rigN (rig ringOn) portUp { resyncing := true, rseq := 5 }).mesh.rseq = 5
    ∧ (mhas (rigN (rig ringOn) portUp { pairKeys := [(1, zeros 32)] }).mesh.pairKeys 1 = true ∧ mhas (rigN (rig ringOn) portUp {}).mesh.pairKeys 1 = false)
    ∧ ((rigN (rig ringOn) portUp keyed1).route 1 0).isSome = true
    ∧ (rigN (rig ringOn) portUp keyed1).time.lock = true := by
  and_intros <;> decide +kernel

/-- A member that is not the coordinator, and holds no lock: this device with MESH_ID 1. -/
def rigB : State :=
  let s := rig ringOn
  { s with
    life := { s.life with straps := 1 }
    time := { s.time with lock := false }
    mesh := { roster := some { members := [{ meshId := 0, serial := 1, idDigest := [] }, { meshId := 1, serial := Config.serial, idDigest := [] }] },
              ports := [(0, { portUp with peerId := 0 })], memberMap := 3 } }

theorem witness_MeshAgrees_member : rigB.meshed = true ∧ rigB.coordinator = 0 ∧ rigB.ownId = 1 ∧ rigB.time.lock = false := by
  refine ⟨by simp [State.meshed, rigB, State.ownId], by decide +kernel, by decide +kernel, rfl⟩

/-! ### Witnesses: tokens -/

/-- The first 96 bytes of a token of this device, for a body of n bytes. -/
def tokHead (kind n : Nat) : Bytes :=
  toLE 4 0x4E4B5444 ++ [BitVec.ofNat 8 kind, 0, 0, 0] ++ toLE 8 Config.serial.toNat ++ toLE 2 0 ++ zeros 14 ++ zeros 32 ++ toLE 4 n ++ zeros 28

def rigT (st : Lifecycle) (b : Bytes) : State :=
  let s := rigE {}
  { s with
    eng := { s.eng with seeded := [(0, true)] }
    life := { s.life with st := st, token := b, devNonce := zeros 32 } }

theorem bound_tok (kind n : Nat) (st : Lifecycle) (r : Bytes) : (rigT st (tokHead kind n ++ r)).tokBound (tokHead kind n ++ r) = true := by
  have h1 : leAt (tokHead kind n ++ r) 8 8 = Config.serial.toNat := by
    rw [leAt, show slice (tokHead kind n ++ r) 8 8 = toLE 8 Config.serial.toNat from rfl, leNat_toLE]
    exact Nat.mod_eq_of_lt Config.serial.isLt
  have h2 : slice (tokHead kind n ++ r) 0x20 32 = zeros 32 := rfl
  have h3 : leAt (tokHead kind n ++ r) 0x10 2 = 0 := rfl
  simp [State.tokBound, h1, h2, h3]; exact ⟨rfl, rfl⟩

/-- A Development part opens its session on a token without signatures. -/
theorem witness_TokensApply_session :
    (rigT .development (tokHead 1 0)).tokenRefusal (tokHead 1 0) = none ∧ tokKind (tokHead 1 0) = 1 := by
  have hb := bound_tok 1 0 .development []
  rw [List.append_nil] at hb
  have hk : tokKind (tokHead 1 0) = 1 := by decide +kernel
  have hn : tokBodyLen (tokHead 1 0) = 0 := by decide +kernel
  refine ⟨?_, hk⟩
  have hf : (rigT .development (tokHead 1 0)).tokFormOk (tokHead 1 0) = true := by
    simp only [State.tokFormOk, hk, hn, State.tokVendor, State.tokOwner]; rfl
  have hs : (rigT .development (tokHead 1 0)).tokSigned (tokHead 1 0) = true := by
    simp only [State.tokSigned, hk, State.tokVendor, State.tokOwner]; rfl
  have ha : (rigT .development (tokHead 1 0)).tokAllowed (tokHead 1 0) = true := by simp only [State.tokAllowed, hk]
  have he : (rigT .development (tokHead 1 0)).ent.ready = true := rfl
  simp [State.tokenRefusal, firstFail, hb, hf, hs, ha, he, hk]

/-- A quarantined device is recovered by Moroafy's token: its key and signature stand behind the head. -/
theorem witness_TokensApply_recover (key sig : Bytes) (hk : key.length = 1952) (hg : sig.length = 3309) (hd : shake 32 key = Config.moroafyKey 2)
    (hv : Config.mldsaVerify key tokenContext (tokHead 3 0) sig = true) :
    let b := tokHead 3 0 ++ (key ++ sig)
    (rigT .quarantined b).tokenRefusal b = none ∧ tokKind b = 3 := by
  intro b
  have h3 : tokKind b = 3 := rfl
  have hn : tokBodyLen b = 0 := rfl
  have hl : b.length = 0x60 + 5261 := by simp only [b, List.length_append, hk, hg]; rfl
  have ho : tokOwnerSigned b = false := by rw [tokOwnerSigned, show leAt b 5 1 = 0 from rfl]; rfl
  have h96 : (tokHead 3 0).length = 96 := rfl
  have hb : (rigT .quarantined b).tokBound b = true := bound_tok 3 0 .quarantined (key ++ sig)
  have hf : (rigT .quarantined b).tokFormOk b = true := by
    simp only [State.tokFormOk, h3, hn, State.tokVendor, State.tokOwner, hl, ho]; rfl
  have t96 : b.take 96 = tokHead 3 0 := by simp only [b]; rw [List.take_left' h96]
  have s1 : slice b 96 1952 = key := by simp only [b, slice]; rw [List.drop_left' h96, List.take_left' hk]
  have s2 : slice b 2048 3309 = sig := by
    simp only [b, slice]; rw [← List.append_assoc, List.drop_left' (by simp only [List.length_append, h96, hk]), List.take_of_length_le hg.le]
  have hs : (rigT .quarantined b).tokSigned b = true := by
    have hven : (rigT .quarantined b).tokVendor b = true := by simp only [State.tokVendor, h3]; rfl
    have hown : (rigT .quarantined b).tokOwner b = false := by simp only [State.tokOwner, h3, ho]; rfl
    simp only [State.tokSigned, hven, hown, hn, Nat.add_zero, t96, s1, Nat.reduceAdd, s2, hd, hv]; simp
  have ha : (rigT .quarantined b).tokAllowed b = true := by simp only [State.tokAllowed, h3]; rfl
  have he : (rigT .quarantined b).ent.ready = true := rfl
  refine ⟨?_, h3⟩
  simp [State.tokenRefusal, firstFail, hb, hf, hs, ha, he, h3]

/-- A roster of this device alone. -/
def rosterBlock : Bytes :=
  toLE 4 0x52545357 ++ [1, 0, 0, 0] ++ zeros 8 ++ zeros 8 ++ toLE 8 Config.serial.toNat ++ shake 32 (Config.take 1952 Config.identityPublic)

/-- A blank device is enrolled by a token that its new owner signed. -/
theorem witness_TokensApply_enrol (key sig : Bytes) (hk : key.length = 1952) (hg : sig.length = 3309)
    (hv : Config.mldsaVerify key tokenContext (tokHead 2 2016 ++ key ++ rosterBlock) sig = true) :
    let b := tokHead 2 2016 ++ (key ++ (rosterBlock ++ sig))
    (rigT .blank b).tokenRefusal b = none ∧ tokKind b = 2
    ∧ ((rigT .blank b).wardenWork (fun o => random o 32)).1.isSome = true := by
  intro b
  have h3 : tokKind b = 2 := rfl
  have hn : tokBodyLen b = 2016 := rfl
  have h96 : (tokHead 2 2016).length = 96 := rfl
  have h64 : rosterBlock.length = 64 := rfl
  have hl : b.length = 0x60 + 2016 + 3309 := by simp only [b, List.length_append, hk, hg, h96, h64]
  have hb : (rigT .blank b).tokBound b = true := bound_tok 2 2016 .blank _
  have hven : (rigT .blank b).tokVendor b = false := by simp only [State.tokVendor, h3]; rfl
  have hown : (rigT .blank b).tokOwner b = true := by simp only [State.tokOwner, h3]; rfl
  have hf : (rigT .blank b).tokFormOk b = true := by
    simp only [State.tokFormOk, h3, hn, hven, hown, hl]; rfl
  have hbody : tokBody b = key ++ rosterBlock := by
    simp only [tokBody, hn, slice, b]
    rw [List.drop_left' h96, ← List.append_assoc, List.take_left' (by simp only [List.length_append, hk, h64])]
  have hkey : (tokBody b).take 1952 = key := by rw [hbody, List.take_left' hk]
  have hros : (tokBody b).drop 1952 = rosterBlock := by rw [hbody, List.drop_left' hk]
  have t1 : b.take 2112 = tokHead 2 2016 ++ key ++ rosterBlock := by
    simp only [b]; rw [← List.append_assoc, ← List.append_assoc, List.take_left' (by simp only [List.length_append, h96, hk, h64])]
  have s2 : slice b 2112 3309 = sig := by
    simp only [b, slice]
    rw [← List.append_assoc, ← List.append_assoc, List.drop_left' (by simp only [List.length_append, h96, hk, h64]), List.take_of_length_le hg.le]
  have hs : (rigT .blank b).tokSigned b = true := by
    simp only [State.tokSigned, hven, hown, hn, Nat.reduceAdd, t1, h3, hkey]; simp; rw [s2, ← List.append_assoc]; exact hv
  have ha : (rigT .blank b).tokAllowed b = true := by simp only [State.tokAllowed, h3]; rfl
  have he : (rigT .blank b).ent.ready = true := rfl
  have hr : rosterFormOk rosterBlock = true := rfl
  have hu : (rigT .blank b).rosterHasUs (rosterOf rosterBlock) = true := by
    have h1 : leAt rosterBlock 24 8 = Config.serial.toNat := by
      rw [leAt, show slice rosterBlock 24 8 = toLE 8 Config.serial.toNat from rfl, leNat_toLE]
      exact Nat.mod_eq_of_lt Config.serial.isLt
    have h2 : slice rosterBlock 32 32 = shake 32 (Config.take 1952 Config.identityPublic) := rfl
    have h4 : leAt rosterBlock 16 1 = 0 := rfl
    have h5 : leAt rosterBlock 4 1 = 1 := rfl
    have h6 : (rigT .blank b).ownId = 0 := rfl
    simp [State.rosterHasUs, rosterOf, h1, h2, h4, h5, h6]
  refine ⟨?_, h3, ?_⟩
  · simp [State.tokenRefusal, firstFail, hb, hf, hs, ha, he, h3, hros, hr, hu]
  · with_unfolding_all rfl

theorem witness_TokensApply :
    ({ rigT .owned [] with ent := {} } : State).ent.ready = false ∧ (rigT .owned []).ent.ready = true
    ∧ (rigT .owned []).tokFormOk [] = false ∧ tokKind [] ≠ 2 ∧ tokKind [] ≠ 3
    ∧ tokKind (zeros 4 ++ [2]) = 2 ∧ tokKind (zeros 4 ++ [3]) = 3
    ∧ (({ rigT .blank [] with ent := { st := .failed, fail := true } } : State).wardenWork (fun o => random o 32)).1.isSome = false
    ∧ (rigT .owned []).life.session = false ∧ (({ rigT .owned [] with life := { (rigT .owned []).life with session := true } }) : State).life.session = true
    ∧ (∀ b : Bool, (({ rigT .owned [] with life := { (rigT .owned []).life with dbgEn := b } }) : State).wardenCalls 2 |>.isSome)
    ∧ (({ rigT .owned [] with ent := { (rigT .owned []).ent with exps := [] } } : State).wardenCalls 2).isSome = false := by
  and_intros <;> decide +kernel

/-- A well formed token for another device, and one of this device that its state does not allow. -/
theorem witness_TokensApply_refused :
    (let b := toLE 4 0x4E4B5444 ++ [1, 0, 0, 0] ++ zeros 8 ++ toLE 2 1 ++ zeros 78
     (rigT .development b).tokFormOk b = true ∧ (rigT .development b).tokBound b = false) := by
  intro b
  exact ⟨by decide +kernel, by simp only [State.tokBound, show (leAt b 0x10 2 == (rigT .development b).tam.tally) = false by decide +kernel,
    Bool.and_false, Bool.false_and]⟩

/-! ### Witnesses: what verbs compute -/

/-- Slot 0 a working key of an algorithm, with every use; the vault as v. -/
def rigV (alg : BitVec 5) (n : Nat) (cls : BitVec 2) : State :=
  let s := rigE {}
  { s with
    kr := { s.kr with slots := [(0, { key0 with key := zeros n, alg := alg, cls := cls })] }
    vault := { ready := true, started := true, keyed := true, parts := [(0, { live := true, size := 8, persist := 4 })] } }

def opnd0 (fam op param auxLen : Nat) (inp inl : Bytes) : Opnd :=
  { d := 0, p := 0, fam := fam, op := op, keyA := .handle 0, keyB := .handle 0, param := param, auxLen := auxLen, inp := inp, inl := inl, outCap := 4096 }

theorem witness_CiphersCompute :
    (∃ u t i x, let o := opnd0 8 1 0 0 (zeros 16) (zeros 16); let s := rigV 1 16 1
      s.fetches u t o o.keyA (genReq mEnc) i x ∧ t.engineServes o ∧ x.alg = 1 ∧ (u.slot i).alg = 1)
    ∧ (∃ u t i x, let o := opnd0 8 1 0 0 (zeros 15) (zeros 16); let s := rigV 1 16 1
      s.fetches u t o o.keyA (genReq mEnc) i x ∧ x.alg = 1 ∧ (u.slot i).alg = 1)
    ∧ (∃ u t i x, let o := opnd0 8 2 1 0 (zeros 16) (zeros 16); let s := rigV 1 16 1
      s.fetches u t o o.keyA (genReq mDec) i x ∧ t.engineServes o)
    ∧ (∃ u t i x, let o := opnd0 3 1 0x1000 0 (zeros 16) []; let s := rigV 1 16 1
      s.fetches u t o o.keyA (macReq o mGen) i x ∧ macAlgo o ≠ 2 ∧ t.engineServes o)
    ∧ (∃ u t i x, let o := opnd0 3 2 0x1000 16 (zeros 32) []; let s := rigV 1 16 1
      s.fetches u t o o.keyA (macReq o mVer) i x ∧ macAlgo o ≠ 2 ∧ t.engineServes o)
    ∧ (∃ u t i x, let o := opnd0 3 2 0x1002 16 (zeros 32) (zeros 12); let s := rigV 1 16 1
      s.fetches u t o o.keyA (macReq o mVer) i x ∧ macAlgo o = 2 ∧ t.engineServes o)
    ∧ (∃ u t x c, let o := opnd0 3 1 0x1002 0 (zeros 16) []; let s := rigV 1 16 1
      macAlgo o = 2 ∧ runV (probe o o.keyA (macReq o mGen)) s = (.ok (), u) ∧ runV (fetchGcm o o.keyA (macReq o mGen)) u = (.ok (x, c), t)
        ∧ t.engineServes o)
    ∧ (∃ u t x c, let o := opnd0 8 3 16 0 (zeros 16) []; let s := rigV 1 16 1
      runV (probe o o.keyA (gcmReq mEnc)) s = (.ok (), u) ∧ runV (fetchGcm o o.keyA (gcmReq mEnc)) u = (.ok (x, c), t) ∧ t.engineServes o)
    ∧ (∃ u t i x, let o := opnd0 8 4 16 0 (zeros 32) (zeros 12); let s := rigV 1 16 1
      s.fetches u t o o.keyA (gcmReq mDec) i x ∧ t.engineServes o)
    ∧ (∃ c u, runV (takeNonce 0) (rigV 1 16 1) = (.ok c, u)) :=
  ⟨⟨_, _, _, _, ⟨rfl, rfl⟩, ⟨rfl, rfl⟩, rfl, rfl⟩, ⟨_, _, _, _, ⟨rfl, rfl⟩, rfl, rfl⟩, ⟨_, _, _, _, ⟨rfl, rfl⟩, rfl, rfl⟩,
    ⟨_, _, _, _, ⟨rfl, rfl⟩, by decide, rfl, rfl⟩, ⟨_, _, _, _, ⟨rfl, rfl⟩, by decide, rfl, rfl⟩,
    ⟨_, _, _, _, ⟨rfl, rfl⟩, by decide, rfl, rfl⟩, ⟨_, _, _, _, by decide, rfl, rfl, rfl, rfl⟩, ⟨_, _, _, _, rfl, rfl, rfl, rfl⟩,
    ⟨_, _, _, _, ⟨rfl, rfl⟩, rfl, rfl⟩, ⟨_, _, rfl⟩⟩

/-- No FCE serves: every one of this cluster is out of service, and no other cluster serves. -/
def oosArb : Arb := { (arbReset 0) with eng := (List.range 4).map fun e => (e, { oos := true }) }
theorem witness_CiphersCompute_out : ∃ u t i x, let o := opnd0 8 1 0 0 (zeros 16) (zeros 16)
    let s : State := { rigV 1 16 1 with eng := { (rigV 1 16 1).eng with arbs := [(0, oosArb)] } }
    s.fetches u t o o.keyA (genReq mEnc) i x ∧ o.chk = true ∧ (engineKinds o.fam o.op).all (t.kindServes o.cl) = false :=
  ⟨_, _, _, _, ⟨rfl, rfl⟩, rfl, rfl⟩

/-- One record in the owner's index, in its one bucket. -/
def rigJ (s : State) (dom : Nat) (key rec : Bytes) : State :=
  { s with vault := { s.vault with
      parts := [(0, { live := true, size := 8, persist := 4, ixBase := 100, recordsUsed := 1 })]
      pages := [(100, { kind := 1, part := 0, recs := [(0, zeros 2 ++ [1] ++ zeros 13 ++ toLE 8 (s.fingerprint 0 dom key) ++ toLE 8 3232)] }),
                (101, { kind := 1, part := 0, recs := [(0, rec)], dirty := true })]
      uses := [(0, 101), (0, 100)] } }

/-- The search is the same whatever the descriptors and the key register hold. -/
theorem find_rigJ (alg : BitVec 5) (n : Nat) (cls : BitVec 2) (dom : Nat) (key rec : Bytes) (D : Disp) (K : KeyReg) (ok : Bytes → Bool)
    (h : ok rec = true) :
    let s : State := { rigJ (rigV alg n cls) dom key rec with disp := D, kr := K }
    runV (indexFind 0 dom key ok) s = (.ok (some 3232), s) := by
  intro s
  let fp := s.fingerprint 0 dom key
  let b : Bytes := zeros 2 ++ [1] ++ zeros 13 ++ toLE 8 fp ++ toLE 8 3232
  let s1 : State := { s with vault := { s.vault with uses := [(0, 100), (0, 101)] } }
  have hp : s.bucketPlace 0 fp = 3200 := by
    show placeOf (100 + fp % 2 ^ 0 / 31) (fp % 2 ^ 0 % 31) = 3200
    simp [placeOf, Nat.mod_one]
  have h1 : runV (getRec 100 0) s = (.ok b, s1) := rfl
  have h2 : runV (getRec 101 0) s1 = (.ok rec, s) := rfl
  have hf : fp < 256 ^ 8 := by
    have : ∀ l : Bytes, leNat l < 256 ^ l.length := by
      intro l; induction l with
      | nil => simp [leNat]
      | cons a l ih => have := a.isLt; simp only [leNat, List.length_cons, Nat.pow_succ']; omega
    exact this _
  have hb : bucketEntries b = [(fp, 3232)] := by
    have e1 : leAt b 16 8 = fp := by rw [leAt, show slice b 16 8 = toLE 8 fp from rfl, leNat_toLE, Nat.mod_eq_of_lt hf]
    have e2 : leAt b 24 8 = 3232 := by rw [leAt, show slice b 24 8 = toLE 8 3232 from rfl, leNat_toLE]; norm_num
    have e3 : byteAt b 2 = 1 := rfl
    simp [bucketEntries, e1, e2, e3]
  have hs : runV (searchBuckets fp ok 2 3200) s = (.ok (some 3232), s) := by
    rw [searchBuckets, runV_bind_ok (show runV (getRec (3200 / 32) (3200 % 32)) s = _ from h1), hb]
    simp only [List.filterMap_cons, if_pos, List.filterMap_nil]
    have : runV (firstMatch ok [3232]) s1 = (.ok (some 3232), s) := by
      rw [firstMatch, runV_bind_ok (show runV (getRec (3232 / 32) (3232 % 32)) s1 = _ from h2), if_pos h, runV_pure]
    rw [runV_bind_ok this, runV_pure]
  rw [indexFind]
  have hm : s.ixMoving 0 = false := rfl
  have hn : runV (needObj 0 1) s = (.ok (), s) := rfl
  rw [runV_bind_ok (runV_getV s), if_neg (by simp [hm])]
  show runV (needObj 0 (1 + 0) >>= _) s = _
  rw [runV_bind_ok (show runV (needObj 0 (1 + 0)) s = _ from hn), runV_bind_ok (runV_getV s), if_neg (show ¬(s.part 0).ixBase = 0 from (by decide : ¬(100 : Nat) = 0))]
  show runV (searchBuckets fp ok (1 + 1) (s.bucketPlace 0 fp)) s = _
  rw [hp]; exact hs

/-- PIN_VERIFY of a format 4 block from a zone key, with the reference there. -/
def opndPin (op param : Nat) : Opnd := opnd0 1 op param 0 (zeros 32) []
def refRec (v : Bytes) : Bytes := refBytes 0 0 0 (zeros 16) v
def rigPin (v : Bytes) : State := rigJ (rigV 1 16 1) 2 (toLE 2 0 ++ zeros 16) (refRec v)

/-- The rig with other descriptors. -/
def pinAt (v : Bytes) (D : Disp) : State := { rigPin v with disp := D }

theorem witness_PinsTranslate_ref (v : Bytes) (D : Disp) : runV (needRef (opndPin 2 0x20004)) (pinAt v D) = (.ok 3232, pinAt v D) := by
  have h1 : ∃ x, runV (keySlot (opndPin 2 0x20004) (opndPin 2 0x20004).keyB) (pinAt v D) = (.ok (0, x), pinAt v D) := ⟨_, rfl⟩
  obtain ⟨x, h1⟩ := h1
  have h2 : runV (findRef (opndPin 2 0x20004) 0) (pinAt v D) = (.ok (some 3232), pinAt v D) :=
    find_rigJ 1 16 1 2 _ (refRec v) D (rigPin v).kr _ rfl
  have h3 : runV (getRec (3232 / 32) (3232 % 32)) (pinAt v D) = (.ok (refRec v), pinAt v D) := rfl
  rw [needRef, runV_bind_ok h1]
  show runV (findRef (opndPin 2 0x20004) 0 >>= _) (pinAt v D) = _
  rw [runV_bind_ok h2]
  show runV (getRec (3232 / 32) (3232 % 32) >>= _) (pinAt v D) = _
  rw [runV_bind_ok h3]; rfl

def okServes {α : Type} (o : Opnd) (r : Except Stop α × State) : Bool :=
  match r with
  | (.ok _, t) => o.chk && (engineKinds o.fam o.op).all (t.kindServes o.cl)
  | _ => false

theorem okServes_iff {α : Type} (o : Opnd) (r : Except Stop α × State) (h : okServes o r = true) : ∃ a t, r = (.ok a, t) ∧ t.engineServes o := by
  obtain ⟨a | a, t⟩ := r
  · simp [okServes] at h
  · simp only [okServes, Bool.and_eq_true] at h
    exact ⟨a, t, rfl, h⟩

/-! An FCE's or KCE's blocks are counted by its cluster's sentinels and mask generator (a free count on a free engine), and
nothing else changes. -/

theorem worked_fce (s : State) (o : Opnd) (hk : engineKinds o.fam o.op = [0]) (hs : s.enginesFor o.cl 0 = [0, 1]) :
    ∃ S, s.worked o = { s with eng := { s.eng with sentinels := S } } := by
  unfold State.worked State.ranBlocks
  rw [hk]
  simp only [List.foldl, hs, List.length_cons, List.length_nil, true_or, if_true]
  have h := Nat.mod_lt (Config.freeNat 13 (o.d * 8 + 0)) (show 0 < 0 + 1 + 1 by decide)
  generalize Config.freeNat 13 (o.d * 8 + 0) % (0 + 1 + 1) = e at h ⊢
  rcases e with _ | _ | e
  · exact ⟨_, rfl⟩
  · exact ⟨_, rfl⟩
  · omega

theorem kceBlocks_first (s : State) (n : Nat) (hm : s.eng.kceMask = []) (hn : n < 4096) :
    ∃ K, s.kceBlocks 0 n = { s with eng := { s.eng with kceMask := K } } := by
  unfold State.kceBlocks
  rw [hm]
  simp only [mget, Nat.zero_add, if_pos hn]
  exact ⟨_, rfl⟩

theorem worked_dk (s : State) (o : Opnd) (hk : engineKinds o.fam o.op = [2, 0]) (hm : s.eng.kceMask = []) (h2 : s.enginesFor o.cl 2 = [2])
    (h0 : ∀ K, { s with eng := { s.eng with kceMask := K } : State }.enginesFor o.cl 0 = [0, 1]) :
    ∃ K S, s.worked o = { s with eng := { s.eng with kceMask := K, sentinels := S } } := by
  unfold State.worked State.ranBlocks
  rw [hk]
  simp only [List.foldl, h2, List.length_cons, List.length_nil, true_or, or_true, if_true, Nat.mod_one, Nat.zero_add, List.getD_cons_zero]
  have hn := Nat.mod_lt (Config.freeNat 14 (o.d * 8 + 2)) (show 0 < if 2 = 0 then 2 ^ 32 else 4096 by decide)
  rw [show s.countBlocks (2 / 4) (2 % 4) (Config.freeNat 14 (o.d * 8 + 2) % if 2 = 0 then 2 ^ 32 else 4096)
    = s.kceBlocks 0 (Config.freeNat 14 (o.d * 8 + 2) % if 2 = 0 then 2 ^ 32 else 4096) from rfl]
  generalize (Config.freeNat 14 (o.d * 8 + 2) % if 2 = 0 then 2 ^ 32 else 4096) = n at hn ⊢
  obtain ⟨K, hK⟩ := kceBlocks_first s n hm hn
  rw [hK, h0]
  simp only [List.length_cons, List.length_nil]
  have h := Nat.mod_lt (Config.freeNat 13 (o.d * 8 + 0)) (show 0 < 0 + 1 + 1 by decide)
  generalize Config.freeNat 13 (o.d * 8 + 0) % (0 + 1 + 1) = e at h ⊢
  rcases e with _ | _ | e
  · exact ⟨_, _, rfl⟩
  · exact ⟨_, _, rfl⟩
  · omega

/-- The descriptor goes on after a wait: its probes, fetches, draw, counter and pull behind it, and its slots reserved. -/
def goesOn (s : State) (l : List Did) : State := { s with disp := { s.disp with descs := [{ desc0 with did := l, trans := [4, 5, 6, 7] }] } }
def behind (s : State) (S : Map Sentinel) : State := { s with eng := { s.eng with sentinels := S } }
def pinHad : List Did := [.probed 0, .probed 0, .key 0 key0, .key 0 { key0 with alg := 4 }, .drew (zeros 8)]

/-- PIN_VERIFY: after its two probes, and after the fetch of the PIN key. -/
def pinProbed : State :=
  let o := opndPin 2 0x20004
  (runV (probe o o.keyB (pinRefReq false)) (runV (probe o o.keyA (pinSrcReq o)) (goesOn (rigPin (zeros 16)) pinHad)).2).2
def pinFetched : Except Stop (Nat × Slot) × State := runV (fetch (opndPin 2 0x20004) (opndPin 2 0x20004).keyA (pinSrcReq (opndPin 2 0x20004))) pinProbed

def pinRef (S : Map Sentinel) : Except Stop (Nat × Slot) × State :=
  runV (fetch (opndPin 2 0x20004) (opndPin 2 0x20004).keyB (pinRefReq false)) (behind pinFetched.2 S)

theorem pinRef_ok : (fun S => okServes (opndPin 2 0x20004) (pinRef S)) = fun _ => true := by eq_refl
theorem pinRef_rec : (fun S => okServes (opndPin 2 0x20004) (runV (getRec (3232 / 32) (3232 % 32)) (pinRef S).2)) = fun _ => true := by eq_refl

theorem witness_PinsTranslate_verify : let o := opndPin 2 0x20004
    pinSrc o = 2 ∧ (∃ a, runV (probe o o.keyA (pinSrcReq o)) (goesOn (rigPin (zeros 16)) pinHad) = (.ok (), a)
      ∧ runV (probe o o.keyB (pinRefReq false)) a = (.ok (), pinProbed))
    ∧ runV (needRef o) pinProbed = (.ok 3232, pinProbed) ∧ okServes o pinFetched = true
    ∧ ∃ v, v = runV (fetch o o.keyB (pinRefReq false)) (pinFetched.2.worked o) ∧ okServes o v = true
      ∧ okServes o (runV (getRec (3232 / 32) (3232 % 32)) v.2) = true := by
  obtain ⟨S, h⟩ := worked_fce pinFetched.2 (opndPin 2 0x20004) rfl (by decide +kernel)
  exact ⟨rfl, ⟨_, rfl, rfl⟩, witness_PinsTranslate_ref (zeros 16) pinProbed.disp, by decide +kernel, pinRef S, by rw [h]; rfl,
    congrFun pinRef_ok S, congrFun pinRef_rec S⟩

/-- A translation with operands o: after its probes, after the fetch of the incoming key, and after that of the outgoing one. -/
def trProbed (o : Opnd) (s : State) : Except Stop Unit × State := runV (probe o o.keyB (pinDestReq o)) (runV (probe o o.keyA (pinSrcReq o)) s).2
def trFetched (o : Opnd) (s : State) : Except Stop (Nat × Slot) × State := runV (fetch o o.keyA (pinSrcReq o)) (trProbed o s).2
def trOut (o : Opnd) (s : State) (S : Map Sentinel) : Except Stop (Nat × Slot) × State :=
  runV (fetch o o.keyB (pinDestReq o)) (behind (trFetched o s).2 S)
def opndTr (param : Nat) : Opnd := { opndPin 1 param with keyB := .handle 0 }
def rigTr : State := goesOn (rigV 1 16 1) pinHad

theorem trOut_ok : (fun S => okServes (opndTr 0x20404) (trOut (opndTr 0x20404) rigTr S)) = fun _ => true := by eq_refl
theorem trOut_random : (fun S => okServes (opndTr 0x20404) (runV (random (opndTr 0x20404) 8) (trOut (opndTr 0x20404) rigTr S).2)) = fun _ => true := by
  eq_refl
theorem trOut_plain : (fun S => okServes (opndTr 0x20004) (trOut (opndTr 0x20004) rigTr S)) = fun _ => true := by eq_refl

/-- Format 4 in, and format 4 or 0 out; a PIN of four and of twelve digits. -/
theorem witness_PinsTranslate :
    (∀ o ∈ [opndTr 0x20404, opndTr 0x20004], pinSrc o = 2
      ∧ okServes o (runV (probe o o.keyA (pinSrcReq o)) rigTr) = true ∧ okServes o (trProbed o rigTr) = true ∧ okServes o (trFetched o rigTr) = true)
    ∧ (∃ v, v = runV (fetch (opndTr 0x20404) (opndTr 0x20404).keyB (pinDestReq (opndTr 0x20404))) ((trFetched (opndTr 0x20404) rigTr).2.worked (opndTr 0x20404))
      ∧ okServes (opndTr 0x20404) v = true ∧ fmtRandom (pinOut (opndTr 0x20404)) = true ∧ okServes (opndTr 0x20404) (runV (random (opndTr 0x20404) 8) v.2) = true)
    ∧ (∃ v, v = runV (fetch (opndTr 0x20004) (opndTr 0x20004).keyB (pinDestReq (opndTr 0x20004))) ((trFetched (opndTr 0x20004) rigTr).2.worked (opndTr 0x20004))
      ∧ okServes (opndTr 0x20004) v = true ∧ fmtRandom (pinOut (opndTr 0x20004)) = false)
    ∧ (∀ fmt ∈ [0, 1, 3, 4], ∀ pin ∈ [[1, 2, 3, 4], [0, 0, 0, 0, 0, 0, 9, 9, 9, 9, 9, 9]], 4 ≤ pin.length ∧ pin.length ≤ 12 ∧ (∀ d ∈ pin, d < 10)
      ∧ pinOfField fmt (nibbles (buildField fmt pin (zeros 8))) = some pin) := by
  obtain ⟨S, h⟩ := worked_fce (trFetched (opndTr 0x20404) rigTr).2 (opndTr 0x20404) rfl (by decide +kernel)
  obtain ⟨T, g⟩ := worked_fce (trFetched (opndTr 0x20004) rigTr).2 (opndTr 0x20004) rfl (by decide +kernel)
  exact ⟨by decide +kernel, ⟨trOut (opndTr 0x20404) rigTr S, by rw [h]; rfl, congrFun trOut_ok S, by decide +kernel, congrFun trOut_random S⟩,
    ⟨trOut (opndTr 0x20004) rigTr T, by rw [g]; rfl, congrFun trOut_plain T, by decide +kernel⟩, by decide +kernel⟩

/-- A block under a key opens, where its cipher answers a field of format 1, and not where it answers one of another. -/
theorem witness_PinsTranslate_open (key blk acct f : Bytes) (h : dec 4 key blk = f) :
    openPin 1 4 key blk acct = pinOfField 1 (nibbles f) ∧ pinOfField 1 (nibbles (zeros 8)) = none
    ∧ pinOfField 1 (nibbles (buildField 1 [1, 2, 3, 4] (zeros 8))) = some [1, 2, 3, 4] :=
  ⟨by rw [openPin, openField, if_neg (by decide), if_pos rfl, h], by decide +kernel, by decide +kernel⟩

/-- DUKPT operations of a registered terminal of the AES kind, under a policy that accepts every counter. -/
def termRec : Bytes := terminalBytes 0 2 1 0 0 (zeros 8) (zeros 16)
def opndDk (op : Nat) : Opnd := opnd0 2 op 0x1000 0 (zeros 16) (zeros 8 ++ [0, 0, 0, 1] ++ zeros 4)
def rigDk : State := rigJ (rigV 1 16 0) 1 (toLE 2 0 ++ zeros 8) termRec

def dkAt (D : Disp) (K : KeyReg) : State := { rigDk with disp := D, kr := K }

theorem find_rigDk (op : Nat) (D : Disp) : runV (terminalOf (opndDk op) false false) (dkAt D rigDk.kr) = (.ok 3232, dkAt D rigDk.kr) := by
  have h1 : ∃ x, runV (keySlot (opndDk op) (opndDk op).keyA) (dkAt D rigDk.kr) = (.ok (0, x), dkAt D rigDk.kr) := ⟨_, rfl⟩
  obtain ⟨x, h1⟩ := h1
  have hf : runV (findTerminal (opndDk op) 0 (ksnId false (opndDk op).inl)) (dkAt D rigDk.kr) = (.ok (some 3232), dkAt D rigDk.kr) :=
    find_rigJ 1 16 0 1 (toLE 2 0 ++ zeros 8) termRec D rigDk.kr (terminalMatches 0 0 (zeros 8)) (by decide +kernel)
  rw [terminalOf, runV_bind_ok h1]
  show runV (findTerminal (opndDk op) 0 (ksnId false (opndDk op).inl) >>= _) (dkAt D rigDk.kr) = _
  rw [runV_bind_ok hf]; rfl

/-- What the operation has had: its probe, its counter, the pull, and the keys of its work slots. -/
def keyIn (cls : BitVec 2) (usage : BitVec 16) : Slot := { key0 with cls := cls, usage := usage }
def dkHad : List Did := [.probed 0, .counted 3232, .pulled 3232, .key 4 (keyIn 0 0xFFFF), .key 5 (keyIn 0 0xFFFF), .key 6 (keyIn 1 0xFFFF)]

/-- After the probe and the reservation of an operation's slots, and behind the counter. -/
def dkReady (op : Nat) : State :=
  (runV (reserveDukpt (opndDk op)) (runV (probe (opndDk op) (opndDk op).keyA (dkReq (opndDk op))) (goesOn rigDk dkHad)).2).2
def dkCounted (op : Nat) : State := (runV (acceptCounter (opndDk op) false 3232) (dkReady op)).2

/-- The record's counter from 0 and from its top, under each policy. -/
def ctrRec (policy highest seen : Nat) : Bytes := zeros 2 ++ toLE 2 policy ++ zeros 12 ++ toLE 4 highest ++ zeros 4 ++ toLE 8 seen ++ zeros 96

theorem witness_CountersAccepted :
    (∀ p ∈ [0, 1, 2, 3], (ctrRec p 5 1).length = 128 ∧ trPolicy (ctrRec p 5 1) = p ∧ trHighest (ctrRec p 5 1) = 5 ∧ trSeen (ctrRec p 5 1) = 1)
    ∧ (acceptCtr (ctrRec 0 5 1) 6).isSome = true ∧ acceptCtr (ctrRec 0 5 1) 5 = none
    ∧ (acceptCtr (ctrRec 0 0 1) (2 ^ 32 - 1)).isSome = true ∧ acceptCtr (ctrRec 0 (2 ^ 32 - 1) 1) (2 ^ 32 - 1) = none
    ∧ (acceptCtr (ctrRec 1 64 1) 1).isSome = true ∧ acceptCtr (ctrRec 1 64 1) 0 = none ∧ acceptCtr (ctrRec 1 64 3) 63 = none
    ∧ (acceptCtr (ctrRec 1 64 1) 63).isSome = true ∧ (acceptCtr (ctrRec 1 64 1) 65).isSome = true ∧ (acceptCtr (ctrRec 2 5 1) 0).isSome = true := by
  and_intros <;> decide +kernel

theorem witness_CountersAccepted_run (op : Nat) (h : op ∈ [4, 5, 6, 7]) :
    okServes (opndDk op) (runV (probe (opndDk op) (opndDk op).keyA (dkReq (opndDk op))) (goesOn rigDk dkHad)) = true
    ∧ okServes (opndDk op) (runV (reserveDukpt (opndDk op)) (runV (probe (opndDk op) (opndDk op).keyA (dkReq (opndDk op))) (goesOn rigDk dkHad)).2) = true
    ∧ dkTdes (opndDk op) = false ∧ bit (opndDk op).opt 0 = false ∧ dkBoth (opndDk op) = 0
    ∧ runV (terminalOf (opndDk op) false false) (dkReady op) = (.ok 3232, dkReady op)
    ∧ runV (acceptCounter (opndDk op) false 3232) (dkReady op) = (.ok (), dkCounted op) := by
  simp only [List.mem_cons, List.not_mem_nil, or_false] at h
  rcases h with rfl | rfl | rfl | rfl
  · exact ⟨by decide +kernel, by decide +kernel, by decide +kernel, by decide +kernel, by decide +kernel, find_rigDk 4 (dkReady 4).disp, rfl⟩
  · exact ⟨by decide +kernel, by decide +kernel, by decide +kernel, by decide +kernel, by decide +kernel, find_rigDk 5 (dkReady 5).disp, rfl⟩
  · exact ⟨by decide +kernel, by decide +kernel, by decide +kernel, by decide +kernel, by decide +kernel, find_rigDk 6 (dkReady 6).disp, rfl⟩
  · exact ⟨by decide +kernel, by decide +kernel, by decide +kernel, by decide +kernel, by decide +kernel, find_rigDk 7 (dkReady 7).disp, rfl⟩

/-- The working key's derivation up to its engine's work, and behind it. -/
def dkPulled (op : Nat) : Except Stop (Nat × Slot) × State :=
  runV (do
    let b ← getRec 101 0
    let (u, _) ← pullKey (opndDk op) 0 3232 b (slice b 0x20 16)
    fetch (opndDk op) (.trans (some u)) { cls := [0], fam := 2, mode := mDerive, algs := [1] }) (dkCounted op)

def dkB (op : Nat) : Bytes := match (runV (getRec 101 0) (dkCounted op)).1 with | .ok b => b | _ => []
def dkBase (op : Nat) : Nat × Slot := match (dkPulled op).1 with | .ok x => x | _ => (0, {})

/-- What is left of the derivation behind the engine's work, and the state there. -/
def dkRest (op usage variant mode : Nat) : V Slot := do
  let o := opndDk op
  let b := dkB op
  let path := ctrPath 33 (ksnCtr false o.inl)
  let fresh := path.takeWhile fun a => !(trCached b).any fun e => e.1 == a
  let known := walkKeys (trAlg b) (ksnId false o.inl) (slice b 0x20 (algLen (trAlg b))) (trCached b) path
  let keyOf := fun a => ((known.find? (·.1 == a)).map (·.2)).getD []
  let top ← walkSlots o (dkBase op) (fresh.reverse.map keyOf)
  putRecV (3232 / 32) (3232 % 32) (recache b (ksnCtr false o.inl) known)
  let (_, x) ← throughSlot o 2 top { alg := 1, cls := 1, usage := 2 ^ 1 + mode }
    (workKey (trAlg b) (keyOf (ksnCtr false o.inl)) (ksnId false o.inl) (ksnCtr false o.inl) usage variant 1)
  pure x
def behindDk (op : Nat) (K : Map (Bytes × Nat)) (S : Map Sentinel) : State :=
  { (dkPulled op).2 with eng := { (dkPulled op).2.eng with kceMask := K, sentinels := S } }

theorem dkRest_mac : (fun K S => okServes (opndDk 4) (runV (dkRest 4 0x2001 2 mGen) (behindDk 4 K S))) = fun _ _ => true := by eq_refl
theorem dkRest_verify : (fun K S => okServes (opndDk 5) (runV (dkRest 5 0x2000 1 mVer) (behindDk 5 K S))) = fun _ _ => true := by eq_refl
theorem dkRest_decrypt : (fun K S => okServes (opndDk 6) (runV (dkRest 6 0x3000 3 mDec) (behindDk 6 K S))) = fun _ _ => true := by eq_refl
theorem dkRest_encrypt : (fun K S => okServes (opndDk 7) (runV (dkRest 7 0x3001 4 mEnc) (behindDk 7 K S))) = fun _ _ => true := by eq_refl

/-- The derivation runs to its engine, does its blocks there, and goes on. -/
theorem dk_key (op usage variant mode : Nat) (hs : (dkPulled op).2.engineServes (opndDk op)) (hk : engineKinds 2 op = [2, 0])
    (h2 : (dkPulled op).2.enginesFor 0 2 = [2]) (h0 : ∀ K, { (dkPulled op).2 with eng := { (dkPulled op).2.eng with kceMask := K } : State }.enginesFor 0 0 = [0, 1])
    (hm : (dkPulled op).2.eng.kceMask = [])
    (hw : runV (workingKey (opndDk op) false 3232 usage variant 1 mode) (dkCounted op)
      = runV (engine (opndDk op) >>= fun _ => dkRest op usage variant mode) (dkPulled op).2)
    (hr : (fun K S => okServes (opndDk op) (runV (dkRest op usage variant mode) (behindDk op K S))) = fun _ _ => true) :
    ∃ x t, runV (workingKey (opndDk op) false 3232 usage variant 1 mode) (dkCounted op) = (.ok x, t) ∧ t.engineServes (opndDk op) := by
  obtain ⟨K, S, h⟩ := worked_dk (dkPulled op).2 (opndDk op) hk hm h2 h0
  obtain ⟨x, t, e, g⟩ := okServes_iff _ _ (congrFun (congrFun hr K) S)
  refine ⟨x, t, ?_, g⟩
  rw [hw, runV_bind_ok (runV_engine hs [])]
  show runV (dkRest op usage variant mode) ((dkPulled op).2.worked (opndDk op)) = _
  rw [h]; exact e

theorem witness_CountersAccepted_key : ∀ c ∈ [(4, 0x2001, 2, mGen), (5, 0x2000, 1, mVer), (6, 0x3000, 3, mDec), (7, 0x3001, 4, mEnc)],
    ∃ x t, runV (workingKey (opndDk c.1) false 3232 c.2.1 c.2.2.1 (dkWork (opndDk c.1) + 1) c.2.2.2) (dkCounted c.1) = (.ok x, t)
      ∧ t.engineServes (opndDk c.1) := by
  intro c h
  simp only [List.mem_cons, List.not_mem_nil, or_false] at h
  rcases h with rfl | rfl | rfl | rfl
  · exact dk_key 4 0x2001 2 mGen ⟨rfl, by decide +kernel⟩ rfl (by decide +kernel) (fun _ => rfl) rfl rfl dkRest_mac
  · exact dk_key 5 0x2000 1 mVer ⟨rfl, by decide +kernel⟩ rfl (by decide +kernel) (fun _ => rfl) rfl rfl dkRest_verify
  · exact dk_key 6 0x3000 3 mDec ⟨rfl, by decide +kernel⟩ rfl (by decide +kernel) (fun _ => rfl) rfl rfl dkRest_decrypt
  · exact dk_key 7 0x3001 4 mEnc ⟨rfl, by decide +kernel⟩ rfl (by decide +kernel) (fun _ => rfl) rfl rfl dkRest_encrypt

/-! ### Witnesses: support -/

def okIs {α : Type} (r : Except Stop α × State) : Bool :=
  match r.1 with
  | .ok _ => true
  | _ => false

def opndNum (op param auxLen : Nat) (inp inl : Bytes) : Opnd := { opnd0 9 op param auxLen inp inl with keyA := .none, keyB := .none }

/-- A data record and a counter, by number; the counter at the end of its 64 bits. -/
def rigR (type : Byte) (v : Bytes) : State :=
  let s := rigE {}
  { s with vault := { s.vault with pages := [(100, { kind := 0, part := 0, recs := [(0, [type] ++ zeros 7 ++ v)] })], rootEntry := 0 } }

theorem witness_SupportAnswers :
    (let o := opndNum 3 0 16 (zeros 32) []; (rigE {}).engineServes o ∧ o.inp.take o.auxLen = o.inp.drop o.auxLen)
    ∧ (let o := opndNum 3 0 16 (zeros 31 ++ [1]) []; o.inp.take o.auxLen ≠ o.inp.drop o.auxLen)
    ∧ (let o := opndNum 1 1 0 (zeros 4) []; (rigE {}).engineServes o ∧ dgKeyed o = false ∧ dgVerify o = false ∧ o.decl = none)
    ∧ okIs (runV (random (opndNum 4 0 16 [] []) 16) (rigE {})) = true
    ∧ (okIs (runV (namedRec 0 3200 0x09) (rigR 9 (zeros 120))) = true ∧ okIs (runV (namedRec 0 3200 0x09 >>= fun _ => dirtyRoom 100) (rigR 9 (zeros 120))) = true)
    ∧ (recNum (opndNum 9 0 0 (zeros 96) (toLE 8 3200)) = 3200 ∧ recNum (opndNum 9 0 0 (zeros 96) (zeros 8)) = 0)
    ∧ okIs (runV (namedRec 0 3200 0x0A) (rigR 10 (zeros 120))) = true
    ∧ (leAt ([10] ++ zeros 7 ++ toLE 8 (2 ^ 64 - 1) ++ zeros 112) 8 8 + 1 = 2 ^ 64 ∧ leAt ([10] ++ zeros 127) 8 8 + 255 < 2 ^ 64) := by
  and_intros <;> decide +kernel

theorem witness_SupportAnswers_new : okIs (runV (newNumbered 0 0x09 (zeros 120)) (let s := rigR 9 (zeros 120)
    { s with vault := { s.vault with parts := [(0, { live := true, recordQuota := 10 })] } })) = true := by
  decide +kernel

/-! ### Values from the spec's tables and from the standards it names -/

/-- The check value of CRC-64 of ECMA-182. -/
theorem test_crc64 : crc64 (ascii "123456789") = 0x6C40DF5F0B497347 := by decide +kernel

/-- 04 R98, R100: fields of PIN 1234. -/
theorem test_pin_field : buildField 0 [1, 2, 3, 4] [] = [0x04, 0x12, 0x34, 0xFF, 0xFF, 0xFF, 0xFF, 0xFF] := by decide +kernel
theorem test_canonical : (canonicalField [1, 2, 3, 4]).take 4 = [0x44, 0x12, 0x34, 0xAA] := by decide +kernel

/-- 10, register ROT_P: its reset values at a cluster and at a PAU. -/
theorem test_rotation : (arbReset 7).rotP = 0x07FF ∧ (arbReset 8).rotP = 0x0FFF := by decide

/-- 14 Table 14.2: a full mesh of three; position 0's ports 0 and 1, and its second links to the same members. -/
theorem test_wiring : (List.range 4).map (({ members := List.replicate 3 { meshId := 0, serial := 0, idDigest := [] } } : Roster).partner 0)
    = [some (1, 1), some (2, 0), some (1, 3), some (2, 2)] := by decide +kernel

end Sys2Proof.Tests
end

section
/-! A mailbox command's end, RING_ENABLE's checks and RING_DISABLE (02 R31 to R33). -/

namespace Sys2Proof.Machine

variable (s t : State)

/-! ### A mailbox command that ends -/

/-- From s, function n's mailbox command has ended in t with result w, and ring r of the function stands there as y. -/
structure MboxEnded (n r : Nat) (w : Word32) (y : Ring) : Prop where
  keeps : s.keeps t [.host]
  mem : t.host.mem = s.host.mem
  run : (t.func n).mboxRun = none
  result : (t.func n).mboxResult = w
  evt : (t.func n).evtStat = setFlag (s.func n).evtStat evMbox
  others : ∀ m, m ≠ n → t.func m = s.func m
  rings : ∀ q, q ≠ r → t.ring n q = s.ring n q
  ring : t.ring n r = y

variable {s t} in
theorem MboxEnded.settled {n r : Nat} {w : Word32} {y : Ring} (h : MboxEnded s t n r w y) : MboxEnded s (s.settled t) n r w y :=
  ⟨h.keeps.settled, h.mem, h.run, h.result, h.evt, h.others, h.rings, h.ring⟩

variable {s t} in
/-- MBOX_DONE is set, and no other event bit changes. -/
theorem MboxEnded.evtStat_getLsbD {n r : Nat} {w : Word32} {y : Ring} (h : MboxEnded s t n r w y) (i : Nat) (hi : i < 9) :
    (t.func n).evtStat.getLsbD i = ((s.func n).evtStat.getLsbD i || decide (i = 0)) := by
  rw [h.evt, setFlag_getLsbD _ _ _ hi, evMbox]

variable {s t} in
theorem MboxEnded.done {n r : Nat} {w : Word32} {y : Ring} (h : MboxEnded s t n r w y) : (t.func n).evtStat.getLsbD 0 = true := by
  rw [h.evtStat_getLsbD 0 (by decide), Bool.or_eq_true]
  exact .inr rfl

theorem State.func_setRing_ne {n m : Nat} (r : Nat) (x : Ring) (h : m ≠ n) : (s.setRing n r x).func m = s.func m :=
  s.func_setFunc_ne _ h

/-- A ring changed and its function's mailbox command ended. -/
theorem MboxEnded.of_setRing (n r code : Nat) (st : Word16) (y : Ring) :
    MboxEnded s ((s.setRing n r y).mboxEnd n code st) n r (BitVec.ofNat 32 (at' code 16 + st.toNat)) y := by
  obtain ⟨f, p, hs⟩ := (s.setRing n r y).mboxEnd_host n code st
  obtain ⟨b, hf⟩ := (s.setRing n r y).mboxEnd_func n code st
  have hg : (s.setRing n r y).func n = { s.func n with rings := mset (s.func n).rings r y } := s.func_setFunc n _
  refine ⟨?_, by rw [hs]; rfl, by rw [hf], by rw [hf], by rw [hf, hg], fun m hm => ?_, fun q hq => ?_, ?_⟩
  · rw [hs]; exact keeps_host s _ (by decide)
  · rw [State.mboxEnd_func_ne _ _ _ _ hm, s.func_setRing_ne _ _ hm]
  · rw [State.mboxEnd_ring, s.ring_setRing_ne _ fun e => hq e.2]
  · rw [State.mboxEnd_ring, s.ring_setRing]

/-- A mailbox command ended with nothing else changed. -/
theorem MboxEnded.of_mboxEnd (n r code : Nat) (st : Word16) :
    MboxEnded s (s.mboxEnd n code st) n r (BitVec.ofNat 32 (at' code 16 + st.toNat)) (s.ring n r) := by
  obtain ⟨f, p, hs⟩ := s.mboxEnd_host n code st
  obtain ⟨b, hf⟩ := s.mboxEnd_func n code st
  refine ⟨?_, by rw [hs], by rw [hf], by rw [hf], by rw [hf], fun m hm => s.mboxEnd_func_ne _ _ _ hm,
    fun q _ => s.mboxEnd_ring .., s.mboxEnd_ring ..⟩
  rw [hs]; exact keeps_host s _ (by decide)

/-- A write to CMD runs its command where none runs, the function is ready and its partition exists (02 R27, R31). -/
theorem State.mailbox_runs {n code : Nat} {run : State → State} (h0 : (s.func n).mboxRun = none) (h1 : (s.func n).fnReady = true)
    (h2 : s.partLive n = true) : s.mailbox n code run = run s := by
  simp [State.mailbox, h0, h1, h2]

/-! ### RING_ENABLE's checks (02 R32) -/

/-- Step 1: the ring is off, of an allowed size, and aligned. -/
theorem Ring.formOk_iff (x : Ring) :
    x.formOk = true ↔ x.enabled = false ∧ 6 ≤ x.log2.toNat ∧ x.log2.toNat ≤ 16 ∧ 4096 ∣ x.sqBase.toNat ∧ 4096 ∣ x.cqBase.toNat
      ∧ 64 ∣ x.piAddr.toNat ∧ 64 ∣ x.ciAddr.toNat := by
  simp only [Ring.formOk, Bool.and_eq_true, Bool.not_eq_true', decide_eq_true_eq, beq_iff_eq, Nat.dvd_iff_mod_eq_zero, and_assoc]

/-- Host ranges that step 2 checks: both rings and both index words. -/
def Ring.hostRanges (x : Ring) : List (Nat × Nat × Bool) :=
  [(x.sqBase.toNat, 64 * ringSize x, false), (x.piAddr.toNat, 4, false), (x.ciAddr.toNat, 4, false), (x.cqBase.toNat, 32 * ringSize x, true)]

theorem State.rangesPass_hostRanges_iff (n : Nat) (x : Ring) :
    s.rangesPass n x.hostRanges = true ↔ s.hostPasses n false x.sqBase.toNat (64 * 2 ^ x.log2.toNat) false = true
      ∧ s.hostPasses n false x.piAddr.toNat 4 false = true ∧ s.hostPasses n false x.ciAddr.toNat 4 false = true
      ∧ s.hostPasses n false x.cqBase.toNat (32 * 2 ^ x.log2.toNat) true = true := by
  simp only [State.rangesPass, Ring.hostRanges, ringSize, List.all_cons, List.all_nil, Bool.and_true, Bool.and_eq_true]

theorem State.readWord_pass {p a : Nat} (h : s.hostPasses p false a 4 false = true) :
    s.readWord p a = (s, some (leNat (s.hostGet a 4))) := by
  simp only [State.readWord, s.checkHost_pass _ _ _ _ _ _ h, if_true]

/-- Step 3, of index words inside the windows: it changes nothing, and fails where one is not zero. -/
theorem State.wordsZero_pass {p a b : Nat} (ha : s.hostPasses p false a 4 false = true) (hb : s.hostPasses p false b 4 false = true) :
    s.wordsZero p a b = (s, if leNat (s.hostGet a 4) = 0 ∧ leNat (s.hostGet b 4) = 0 then none else some stBad) := by
  simp only [State.wordsZero, s.readWord_pass ha, s.readWord_pass hb]

/-- A ring as RING_ENABLE starts it, from index 0. -/
def Ring.started (x : Ring) : Ring :=
  { x with sqHead := 0, cqTail := 0, ciSeen := 0, piSeen := 0, stopped := false, draining := false, outstanding := 0, enabled := true,
           interval := 200 }

theorem State.enableRing_badForm {n r : Nat} (h : ¬(s.ring n r).formOk = true) : s.enableRing n r = s.mboxEnd n 1 stBad := by
  simp [State.enableRing, h]

theorem State.enableRing_outside {n r : Nat} (hf : (s.ring n r).formOk = true)
    (h : ¬s.rangesPass n (s.ring n r).hostRanges = true) : s.enableRing n r = s.mboxEnd n 1 stAccess := by
  unfold Ring.hostRanges at h
  simp [State.enableRing, hf, h]

/-- With form and windows passed, the index words decide. -/
theorem State.enableRing_inside {n r : Nat} (hf : (s.ring n r).formOk = true) (h : s.rangesPass n (s.ring n r).hostRanges = true) :
    s.enableRing n r
      = if leNat (s.hostGet (s.ring n r).piAddr.toNat 4) = 0 ∧ leNat (s.hostGet (s.ring n r).ciAddr.toNat 4) = 0 then
          (s.setRing n r (s.ring n r).started).mboxEnd n 1 stDone
        else s.mboxEnd n 1 stBad := by
  obtain ⟨-, hpi, hci, -⟩ := (s.rangesPass_hostRanges_iff n _).1 h
  unfold Ring.hostRanges at h
  simp only [State.enableRing, hf, h, s.wordsZero_pass hpi hci, Bool.not_true, Bool.false_eq_true, if_false]
  by_cases hz : leNat (s.hostGet (s.ring n r).piAddr.toNat 4) = 0 ∧ leNat (s.hostGet (s.ring n r).ciAddr.toNat 4) = 0
  · rw [if_pos hz, if_pos hz]; rfl
  · rw [if_neg hz, if_neg hz]

/-- RING_ENABLE ends at once; the first check that fails decides. -/
theorem State.enableRing_ends (n r : Nat) :
    let x := s.ring n r
    let zero := leNat (s.hostGet x.piAddr.toNat 4) = 0 ∧ leNat (s.hostGet x.ciAddr.toNat 4) = 0
    ∃ w y, MboxEnded s (s.enableRing n r) n r w y
      ∧ (¬x.formOk = true → w = 0x00010101 ∧ y = x)
      ∧ (x.formOk = true → ¬s.rangesPass n x.hostRanges = true → w = 0x00010701 ∧ y = x)
      ∧ (x.formOk = true → s.rangesPass n x.hostRanges = true → ¬zero → w = 0x00010101 ∧ y = x)
      ∧ (x.formOk = true → s.rangesPass n x.hostRanges = true → zero → w = 0x00010000 ∧ y = x.started) := by
  intro x zero
  by_cases hf : x.formOk = true
  · by_cases hp : s.rangesPass n x.hostRanges = true
    · rw [s.enableRing_inside hf hp]
      by_cases hz : zero
      · rw [if_pos hz]
        exact ⟨_, _, .of_setRing s n r 1 stDone _, absurd hf, fun _ h => absurd hp h, fun _ _ h => absurd hz h, fun _ _ _ => ⟨rfl, rfl⟩⟩
      · rw [if_neg hz]
        exact ⟨_, _, .of_mboxEnd s n r 1 stBad, absurd hf, fun _ h => absurd hp h, fun _ _ _ => ⟨rfl, rfl⟩, fun _ _ h => absurd h hz⟩
    · rw [s.enableRing_outside hf hp]
      exact ⟨_, _, .of_mboxEnd s n r 1 stAccess, absurd hf, fun _ _ => ⟨rfl, rfl⟩, fun _ h => absurd h hp, fun _ h => absurd h hp⟩
  · rw [s.enableRing_badForm hf]
    exact ⟨_, _, .of_mboxEnd s n r 1 stBad, fun _ => ⟨rfl, rfl⟩, fun h => absurd h hf, fun h => absurd h hf, fun h => absurd h hf⟩

/-! ### RING_DISABLE (02 R33) -/

/-- A ring that is not enabled needs no draining: the command completes DONE at once. -/
theorem State.disableRing_off {n r : Nat} (h : (s.ring n r).enabled = false) : s.disableRing n r = s.mboxEnd n 2 stDone := by
  simp [State.disableRing, h]

/-- A function changed but for its rings. -/
theorem State.ring_setFunc {n : Nat} {f : Func} (h : f.rings = (s.func n).rings) (m r : Nat) : (s.setFunc n f).ring m r = s.ring m r := by
  unfold State.ring
  by_cases hm : m = n
  · subst hm; rw [s.func_setFunc]; unfold Func.ring; rw [h]
  · rw [s.func_setFunc_ne _ hm]

/-- From s, function n's RING_DISABLE of ring r runs in t, and the ring drains. -/
structure RingDrains (n r : Nat) : Prop where
  keeps : s.keeps t [.host]
  mem : t.host.mem = s.host.mem
  run : (t.func n).mboxRun = some r
  result : (t.func n).mboxResult = 0xFFFF0000
  evt : (t.func n).evtStat = (s.func n).evtStat
  others : ∀ m, m ≠ n → t.func m = s.func m
  rings : ∀ q, q ≠ r → t.ring n q = s.ring n q
  ring : t.ring n r = { s.ring n r with draining := true }

theorem RingDrains.of_disableRing {n r : Nat} (h : (s.ring n r).enabled = true) : RingDrains s (s.settled (s.disableRing n r)) n r := by
  let u := s.setRing n r { s.ring n r with draining := true }
  have e : s.disableRing n r = u.setFunc n { u.func n with mboxRun := some r, mboxResult := 0xFFFF0000 } := by
    simp [State.disableRing, h, u]
  have hu : u.func n = { s.func n with rings := mset (s.func n).rings r { s.ring n r with draining := true } } := s.func_setFunc n _
  have hf : (s.disableRing n r).func n = { u.func n with mboxRun := some r, mboxResult := 0xFFFF0000 } := by rw [e, u.func_setFunc]
  have hr : ∀ q, (s.disableRing n r).ring n q = u.ring n q := fun q => by rw [e]; exact u.ring_setFunc (by rfl) n q
  refine ⟨?_, by rw [e]; rfl, ?_, ?_, ?_, fun m hm => ?_, fun q hq => ?_, ?_⟩
  · rw [e]; exact ((keeps_host s _ (by decide)).trans (keeps_host u _ (by decide))).settled
  · rw [State.settled_func, hf]
  · rw [State.settled_func, hf]
  · rw [State.settled_func, hf, hu]
  · rw [State.settled_func, e, u.func_setFunc_ne _ hm]; exact s.func_setRing_ne r _ hm
  · rw [State.settled_ring, hr]; exact s.ring_setRing_ne _ fun h => hq h.2
  · rw [State.settled_ring, hr]; exact s.ring_setRing ..

/-! ### The three commands -/

theorem exec_ringEnable (fn : Fn) (r : RingNo) (h0 : (s.func fn.val).mboxRun = none) (h1 : (s.func fn.val).fnReady = true)
    (h2 : s.partLive fn.val = true) : exec (.ringEnable fn r) s = .next (s.settled (s.enableRing fn.val r.val)) :=
  congrArg (answer s) (s.mailbox_runs h0 h1 h2)

theorem exec_ringDisable (fn : Fn) (r : RingNo) (h0 : (s.func fn.val).mboxRun = none) (h1 : (s.func fn.val).fnReady = true)
    (h2 : s.partLive fn.val = true) : exec (.ringDisable fn r) s = .next (s.settled (s.disableRing fn.val r.val)) :=
  congrArg (answer s) (s.mailbox_runs h0 h1 h2)

/-- RING_DISABLE that runs ends once nothing of its ring is outstanding. -/
theorem exec_ringDisableDone_of_drained (fn : Fn) (r : RingNo) (hr : (s.func fn.val).mboxRun = some r.val)
    (ho : (s.ring fn.val r.val).outstanding = 0) :
    exec (.ringDisableDone fn r) s = .next (s.settled ((s.setRing fn.val r.val
      { s.ring fn.val r.val with enabled := false, draining := false, fault := false, stopped := false }).mboxEnd fn.val 2 stDone)) :=
  congrArg (answer s) (if_pos ⟨hr, ho⟩)

theorem exec_ringDisableDone_else (fn : Fn) (r : RingNo)
    (h : ¬((s.func fn.val).mboxRun = some r.val ∧ (s.ring fn.val r.val).outstanding = 0)) :
    exec (.ringDisableDone fn r) s = .next (s.settled s) :=
  congrArg (answer s) (if_neg h)

end Sys2Proof.Machine
end

section
/-! Where descriptors are read from: what a completion, a ring fault and a descriptor read do to the SQ_HEAD of the rings (02 R33, R34,
R49). -/

namespace Sys2Proof.Machine

variable (s t : State)

/-! ### The same SQ_HEAD everywhere -/

/-- Every ring of every function has the same SQ_HEAD in t as in s. -/
structure State.sameHeads : Prop where
  sqHead : ∀ m p, (t.ring m p).sqHead = (s.ring m p).sqHead

section
variable {s t} {u : State}

theorem State.sameHeads.refl (s : State) : s.sameHeads s := ⟨fun _ _ => rfl⟩

theorem State.sameHeads.trans (h : s.sameHeads t) (k : t.sameHeads u) : s.sameHeads u :=
  ⟨fun m p => (k.sqHead m p).trans (h.sqHead m p)⟩

theorem State.sameHeads.of_rings (h : ∀ m p, t.ring m p = s.ring m p) : s.sameHeads t := ⟨fun m p => by rw [h]⟩

theorem State.sameHeads.of_funcs (h : t.host.funcs = s.host.funcs) : s.sameHeads t :=
  .of_rings fun m p => by unfold State.ring State.func; rw [h]

theorem State.sameHeads.of_host (h : t.host = s.host) : s.sameHeads t := .of_funcs (by rw [h])

theorem State.sameHeads.of_keeps {l : List Area} (h : s.keeps t l) (hl : .host ∉ l) : s.sameHeads t :=
  .of_host (h.1 hl)

theorem State.sameHeads.ite {c : Prop} [Decidable c] (h : s.sameHeads t) (k : s.sameHeads u) : s.sameHeads (if c then t else u) := by
  split <;> assumption

theorem State.sameHeads.fold {α : Type} {f : State → α → State} (h : ∀ (s : State) (a : α), s.sameHeads (f s a)) (as : List α) (s : State) :
    s.sameHeads (as.foldl f s) := by
  induction as generalizing s with
  | nil => exact .refl s
  | cons a r ih => exact (h s a).trans (ih _)

end

theorem sameHeads_setRing {n r : Nat} {x : Ring} (h : x.sqHead = (s.ring n r).sqHead) : s.sameHeads (s.setRing n r x) := by
  refine ⟨fun m p => ?_⟩
  by_cases e : m = n ∧ p = r
  · obtain ⟨rfl, rfl⟩ := e; rw [s.ring_setRing, h]
  · rw [s.ring_setRing_ne x e]

theorem sameHeads_checkHost (m p : Nat) (old : Bool) (a n : Nat) (w : Bool) : s.sameHeads (s.checkHost m p old a n w).1 :=
  .of_keeps (keeps_checkHost ..) (by decide)

theorem sameHeads_removeDesc (d : Nat) (ab : Bool) : s.sameHeads (s.removeDesc d ab) := .of_keeps (keeps_removeDesc ..) (by decide)

theorem sameHeads_modDesc (d : Nat) (f : DRec → DRec) : s.sameHeads (s.modDesc d f) := .of_funcs rfl

theorem sameHeads_writeExtents (r : DRec) (es : List (Nat × Nat)) (b : Bytes) : s.sameHeads (s.writeExtents r es b) :=
  .of_funcs (writeExtents_funcs ..)

theorem sameHeads_putOut (r : DRec) (b : Bytes) : s.sameHeads (s.putOut r b) :=
  (sameHeads_writeExtents s r _ b).trans (sameHeads_modDesc ..)

theorem sameHeads_zeroOut (d : Nat) : s.sameHeads (s.zeroOut d) := by
  unfold State.zeroOut
  split
  · exact .refl s
  · exact (sameHeads_writeExtents ..).trans (sameHeads_modDesc ..)

/-- A ring fault abandons descriptors; no ring moves its SQ_HEAD (02 R34). -/
theorem sameHeads_ringFault (n q : Nat) : s.sameHeads (s.ringFault n q) := by
  unfold State.ringFault
  refine State.sameHeads.trans ?_ (sameHeads_setRing _ rfl)
  refine State.sameHeads.trans ?_ (.fold (fun s d => .of_funcs (abandonDesc_funcs s d)) _ _)
  refine State.sameHeads.trans ?_ (.of_rings fun m p => State.raiseEvt_ring ..)
  refine State.sameHeads.trans (sameHeads_setRing s (n := n) (r := q) (x := { s.ring n q with fault := true }) rfl)
    (.of_rings fun m p => ?_)
  exact State.ring_setFunc _ (by rfl) m p

theorem sameHeads_noteRecord (n r : Nat) (b : Bool) : s.sameHeads (s.noteRecord n r b) := by
  refine ⟨fun m p => ?_⟩
  by_cases e : m = n ∧ p = r
  · obtain ⟨rfl, rfl⟩ := e
    obtain ⟨k, h⟩ := s.noteRecord_ring m p b
    rw [h]
  · rw [s.noteRecord_ring_ne n r b e]

theorem sameHeads_writeRecord (r : DRec) (st : Word16) (len : Nat) (inl : Bytes) : s.sameHeads (s.writeRecord r st len inl) := by
  unfold State.writeRecord
  simp only
  refine (sameHeads_checkHost s ringEngineId r.fn false
    ((s.ring r.fn r.ring).cqBase.toNat + 32 * ((s.ring r.fn r.ring).cqTail.toNat % ringSize (s.ring r.fn r.ring))) 32 true).trans ?_
  split
  · refine State.sameHeads.trans ?_ (sameHeads_noteRecord ..)
    refine State.sameHeads.trans ?_ (sameHeads_setRing _ rfl)
    exact .of_funcs rfl
  · exact sameHeads_ringFault ..

/-! The mesh's side of a completion leaves the host interface alone. -/

@[simp] theorem State.emit_host (m : Sent) : (s.emit m).host = s.host := by
  unfold State.emit
  split
  · rfl
  · split <;> rfl

@[simp] theorem State.send_host (dst type tag attempt aux : Nat) (b : Bytes) (p : Nat) :
    (s.send dst type tag attempt aux b p).host = s.host := s.emit_host _

@[simp] theorem State.sendResult_host (r : DRec) (st : Word16) (out inl : Bytes) : (s.sendResult r st out inl).host = s.host := by
  unfold State.sendResult
  simp only
  split
  · rfl
  · split
    · rfl
    · split <;> exact State.send_host ..

@[simp] theorem State.applyHomes_host (b : Bytes) : (s.applyHomes b).host = s.host :=
  (State.keeps.fold (l := [.mesh]) (fun s _ => keeps_mesh s _ (by decide)) _ s).1 (by decide)

@[simp] theorem State.noteApplied_host (n : Nat) : (s.noteApplied n).host = s.host := by
  unfold State.noteApplied
  simp only
  split <;> exact State.send_host ..

@[simp] theorem State.beginTxn_host (x : Txn) : (s.beginTxn x).host = s.host := by
  unfold State.beginTxn
  simp only
  split <;> rfl

@[simp] theorem State.txnPump_host (f : Nat) : ∀ s : State, (s.txnPump f).host = s.host := by
  induction f with
  | zero => exact fun s => rfl
  | succ f ih =>
    intro s
    unfold State.txnPump
    split
    · rfl
    · split
      · rfl
      · split
        · rw [ih, State.noteApplied_host, State.applyHomes_host]
        · exact s.beginTxn_host _

@[simp] theorem State.txnApplied_host (st : Word16) : (s.txnApplied st).host = s.host := by
  unfold State.txnApplied
  split
  · exact (State.txnPump_host _ _).trans (s.noteApplied_host _)
  · rfl

/-- A completion moves no ring's SQ_HEAD. -/
theorem sameHeads_completeOne (d : Nat) (st : Word16) (out inl : Bytes) (len : Option Nat) :
    s.sameHeads (s.completeOne d st out inl len) := by
  unfold State.completeOne
  split
  · exact .refl s
  · rename_i r _
    have hflag : s.sameHeads (if s.time.lock = true then s else s.flag d cfUnaligned) := .ite (.refl s) (.of_funcs rfl)
    have helim : ∀ (u : State) (f : DRec → State), (∀ q, u.sameHeads (f q)) → u.sameHeads ((u.desc d).elim u f) := by
      intro u f h
      cases u.desc d with
      | none => exact .refl u
      | some q => exact h q
    refine State.sameHeads.trans ?_ (.ite (.of_host (State.txnApplied_host ..)) (.refl _))
    refine hflag.trans (State.sameHeads.trans (.ite ?_ ?_) (sameHeads_removeDesc ..))
    · exact helim _ _ fun q => .of_host (State.sendResult_host ..)
    · exact State.sameHeads.trans (.ite (sameHeads_putOut ..) (sameHeads_zeroOut ..))
        (helim _ _ fun q => sameHeads_writeRecord ..)

theorem sameHeads_settle : s.sameHeads s.settle := by
  refine .fold (fun s r => ?_) _ s
  split
  · exact .ite (.refl s) (.ite (sameHeads_modDesc ..) (sameHeads_completeOne ..))
  · exact .refl s

theorem sameHeads_finish (d : Nat) (st : Word16) : s.sameHeads (s.finish d st) :=
  (sameHeads_completeOne ..).trans (sameHeads_settle _)

/-! ### DESCRIPTOR_READ (02 R49) -/

/-- A descriptor read of one ring moves no other ring's SQ_HEAD. -/
theorem readOne_sqHead_ne {n q m p : Nat} (h : ¬(m = n ∧ p = q)) : ((s.readOne n q).ring m p).sqHead = (s.ring m p).sqHead := by
  unfold State.readOne
  simp only
  have hc := (sameHeads_checkHost s ringEngineId n false
    ((s.ring n q).sqBase.toNat + 64 * ((s.ring n q).sqHead.toNat % ringSize (s.ring n q))) 64 false).sqHead m p
  rw [← hc]
  split
  · exact (sameHeads_ringFault _ n q).sqHead m p
  · split
    · refine ((sameHeads_finish ..).sqHead m p).trans (congrArg Ring.sqHead ?_)
      exact State.ring_setRing_ne _ _ h
    · exact congrArg Ring.sqHead (State.ring_setRing_ne _ _ h)

theorem readSome_sqHead_ne {n q m p : Nat} (h : ¬(m = n ∧ p = q)) (k : Nat) :
    ∀ s : State, ((s.readSome n q k).ring m p).sqHead = (s.ring m p).sqHead := by
  induction k with
  | zero => exact fun s => rfl
  | succ k ih =>
    intro s
    unfold State.readSome
    split
    · rw [ih, readOne_sqHead_ne s h]
    · rfl

theorem State.not_readable_of_draining {n q : Nat} (h : (s.ring n q).draining = true) : s.readable n q = false := by
  simp [State.readable, h]

theorem State.nextRing_readable {k : Nat} (h : s.nextRing = some k) : s.readable (k / 8) (k % 8) = true := by
  unfold State.nextRing at h
  exact List.find?_some (p := fun k => s.readable (k / 8) (k % 8)) h

/-- No descriptor is read from a ring that drains (02 R33). -/
theorem descriptorRead_draining {n q : Nat} (hd : (s.ring n q).draining = true) (h : exec .descriptorRead s = .next t) :
    (t.ring n q).sqHead = (s.ring n q).sqHead := by
  change answer s _ = _ at h
  rw [answer_eq] at h
  injection h with h
  rw [← h, State.settled_ring]
  split
  · rfl
  · split
    · rfl
    · rename_i k hk
      have hne : ¬(n = k / 8 ∧ q = k % 8) := by
        rintro ⟨rfl, rfl⟩
        have hr := s.nextRing_readable hk
        rw [s.not_readable_of_draining hd] at hr
        contradiction
      exact readSome_sqHead_ne hne 16 _

end Sys2Proof.Machine
end

section
/-! Rings switched on and off (02 R31 to R33). -/

namespace Sys2Proof.Machine

/-- Settles O12: the first failed check of RING_ENABLE decides (`enableRing_ends`); RING_DISABLE drains the ring, from which
`descriptorRead_draining` reads nothing, and ends when nothing is outstanding. -/
theorem ringsSwitched : Obligations.RingsSwitched := by
  refine ⟨fun fn r s h0 h1 h2 => ?_, fun fn r s => ⟨fun h0 h1 h2 => ?_, fun hd t ht => descriptorRead_draining s t hd ht, ?_⟩⟩
  · intro x n form inside zero
    obtain ⟨w, y, e, hform, hinside, hzero, hstarts⟩ := s.enableRing_ends fn.val r.val
    simp only [Ring.formOk_iff, State.rangesPass_hostRanges_iff] at hform hinside hzero hstarts
    have e := e.settled
    refine ⟨_, exec_ringEnable s fn r h0 h1 h2, e.keeps, e.mem, e.run, e.evtStat_getLsbD, e.others, e.rings, ?_⟩
    rw [e.result, e.ring]
    exact ⟨hform, hinside, hzero, hstarts⟩
  · refine ⟨_, exec_ringDisable s fn r h0 h1 h2, ?_⟩
    by_cases hx : (s.ring fn.val r.val).enabled = true
    · have e := RingDrains.of_disableRing s hx
      exact ⟨e.keeps, e.mem, e.others, e.rings, fun h => absurd hx (by simp [h]), fun _ => ⟨e.result, e.run, e.evt, e.ring⟩⟩
    · have hoff : (s.ring fn.val r.val).enabled = false := by simpa using hx
      rw [s.disableRing_off hoff]
      have e := (MboxEnded.of_mboxEnd s fn.val r.val 2 stDone).settled
      exact ⟨e.keeps, e.mem, e.others, e.rings, fun _ => ⟨e.result, e.run, e.done, e.ring⟩, fun h => absurd h hx⟩
  · by_cases h : (s.func fn.val).mboxRun = some r.val ∧ (s.ring fn.val r.val).outstanding = 0
    · have e := (MboxEnded.of_setRing s fn.val r.val 2 stDone
        { s.ring fn.val r.val with enabled := false, draining := false, fault := false, stopped := false }).settled
      exact ⟨_, exec_ringDisableDone_of_drained s fn r h.1 h.2, e.keeps, e.mem, e.others, e.rings,
        fun _ _ => ⟨e.result, e.run, e.done, e.ring⟩, fun hn => absurd h hn⟩
    · exact ⟨_, exec_ringDisableDone_else s fn r h, (State.keeps.refl s _).settled, rfl, fun _ _ => rfl, fun _ _ => rfl,
        fun hr ho => absurd ⟨hr, ho⟩ h, fun _ => s.sameBut_settled⟩

end Sys2Proof.Machine
end

section
/-! A verb whose work ends well (02 R41 to R44, R51). -/

namespace Sys2Proof.Machine

variable (s t : State)

/-- A verb's command runs the verb of its selector, and then Alatas sees to what it leaves. -/
theorem exec_verb {c : Instr} {d fam op : Nat} {chk : Bool} {f : Form} (hc : c.verb = some (d, fam, op, chk))
    (hf : verbForm fam op = some f) : exec c s = .next (s.settled (s.runVerb f fam op d chk).after) := by
  unfold Instr.verb at hc
  split at hc
  case h_42 => cases hc
  all_goals
    cases hc
    cases hf
    rfl

/-- In a device of no mesh a descriptor's writes are its own. -/
theorem State.alone_of_unmeshed {d : Nat} (h : s.meshed = false) : s.alone d = true := by simp [State.alone, h]

/-- A verb's work that ends well, with nothing to make durable and no mesh to tell, completes DONE. -/
theorem State.runVerb_ok {d fam op : Nat} {chk : Bool} {f : Form} {r q : DRec} {a : Answer} {t : State} (hm : s.meshed = false)
    (hr : s.startedAs d fam op = some r) (hw : runV (verbWork r f chk) (s.rewind d) = (.ok a, t)) (hq : t.desc d = some q)
    (ha : a.durable = false) (hd : q.durable = false) :
    s.runVerb f fam op d chk = t.complete d stDone a.out a.inl := by
  have hal : (s.rewind d).alone d = true := (s.rewind d).alone_of_unmeshed hm
  simp only [State.runVerb, hr, hw, State.runEnds, hal, Bool.true_or, if_true, State.runDone, hq, ha, hd, Bool.or_self,
    Bool.false_eq_true, if_false]

/-- A noted flag is raised in the record exactly where the descriptor holds one: the flag of an unaligned time is none of them. -/
theorem State.recordFlags_noted (q : DRec) : t.recordFlags q &&& 0x17 = q.flags &&& 0x17 := by
  unfold State.recordFlags
  split
  · rfl
  · apply BitVec.eq_of_toNat_eq
    rw [BitVec.toNat_and, BitVec.toNat_or, Nat.and_or_distrib_right]
    simp

/-- DONE as the record tells it: DONE_FLAGGED where a noted flag is raised. -/
theorem flaggedStatus_done (f : BitVec 15) : flaggedStatus stDone f = if f &&& 0x17 = 0 then 0x0000 else 0x0001 := by
  simp only [flaggedStatus, anyNoted, stDone, stFlagged, true_or, if_true, bne_iff_ne, ne_eq, ite_not]

/-- Settles O22: a verb whose work ends well completes (`runVerb_ok`), and `completeOne_completes` says how. -/
theorem verbCompletes : Obligations.VerbCompletes := by
  intro c d fam op chk f s t r q a hc hf hm hr hw hq ha hd hcan st
  have hst : flaggedStatus stDone q.flags = st := by
    rw [flaggedStatus_eq _ _ _ (t.recordFlags_noted q), flaggedStatus_done]
  have hok : succeeded st = true := by
    simp only [st]
    split <;> rfl
  have hdone := t.completeOne_completes d q stDone st a.out a.inl none hq hst (.inl hok) (by rw [if_pos hok]; exact hcan)
  simp only [hok, if_true, Option.getD_none] at hdone
  refine ⟨t.completeOne d stDone a.out a.inl, ?_, hdone⟩
  rw [exec_verb s hc hf, s.runVerb_ok hm hr hw hq ha hd]
  rfl

end Sys2Proof.Machine
end

section
/-! What a piece of a verb's work that answers has done: the inversions of `runV`, of the key lookups and of the vault's room. -/

namespace Sys2Proof.Machine

variable {s t u : State}

theorem runV_bind_eq_ok {α β : Type} {m : V α} {f : α → V β} {b : β} :
    runV (m >>= f) s = (.ok b, t) ↔ ∃ a u, runV m s = (.ok a, u) ∧ runV (f a) u = (.ok b, t) := by
  rw [runV_bind]
  rcases runV m s with ⟨_ | a, u⟩ <;> simp

theorem runV_pure_eq_ok {α : Type} {a b : α} : runV (pure a) s = (.ok b, t) ↔ a = b ∧ s = t := by
  rw [runV_pure, Prod.mk.injEq, Except.ok.injEq]

theorem runV_modV_eq_ok {f : State → State} {a : Unit} : runV (modV f) s = (.ok a, t) ↔ f s = t := by
  rw [runV_modV, Prod.mk.injEq, Except.ok.injEq, and_iff_right rfl]

theorem runV_stopV_ne_ok {α : Type} {e : Stop} {a : α} : runV (stopV e) s ≠ (.ok a, t) := by simp

theorem runV_failV_ne_ok {α : Type} {st : Word16} {a : α} : runV (failV st) s ≠ (.ok a, t) := by simp

theorem runV_need_eq_ok {c : Bool} {st : Word16} {a : Unit} : runV (need c st) s = (.ok a, t) ↔ c = true ∧ s = t := by
  rw [runV_need]
  cases c <;> simp

/-- Work behind a step that is not always taken answers from some state. -/
theorem runV_after_if {α : Type} {p : Prop} [Decidable p] {m : V PUnit} {f : PUnit → V α} {a : α}
    (h : runV (if p then m >>= f else f ⟨⟩) s = (.ok a, t)) : ∃ u, runV (f ⟨⟩) u = (.ok a, t) := by
  split at h
  · obtain ⟨_, u, -, hf⟩ := runV_bind_eq_ok.1 h
    exact ⟨u, hf⟩
  · exact ⟨s, h⟩

/-! ### Key lookups (03 Table 3.5) -/

theorem partsKnown_keeps {a : Unit} (h : runV partsKnown s = (.ok a, t)) : t = s := by
  rw [partsKnown, runV_bind_ok (runV_getV s)] at h
  split at h
  · exact (runV_pure_eq_ok.1 h).2.symm
  · split at h
    · exact absurd h runV_failV_ne_ok
    · exact absurd h runV_stopV_ne_ok

theorem keySlot_keeps {o : Opnd} {k : KeySel} {r : Nat × Option Nat} (h : runV (keySlot o k) s = (.ok r, t)) : t = s := by
  rw [keySlot, runV_bind_ok (runV_getV s)] at h
  split at h
  · exact absurd h runV_failV_ne_ok
  · exact absurd h runV_failV_ne_ok
  · exact (runV_pure_eq_ok.1 h).2.symm
  · obtain ⟨_, a, hform, ha⟩ := runV_bind_eq_ok.1 h
    obtain ⟨_, b, hparts, hb⟩ := runV_bind_eq_ok.1 ha
    obtain ⟨_, c, hin, hc⟩ := runV_bind_eq_ok.1 hb
    calc t = c := (runV_pure_eq_ok.1 hc).2.symm
      _ = b := (runV_need_eq_ok.1 hin).2.symm
      _ = a := partsKnown_keeps hparts
      _ = s := (runV_need_eq_ok.1 hform).2.symm

/-- What is done once answers what was had before, or what doing it answers. -/
theorem once_answers {α : Type} {d : Nat} {f : Did → Option α} {note : α → Did} {m : V α} {a : α}
    (h : runV (once d f note m) s = (.ok a, t)) : (∃ e, f e = some a) ∨ ∃ u, runV m s = (.ok a, u) := by
  rw [once, runV_bind_ok (runV_getV s)] at h
  split at h
  · rename_i k b hmet
    obtain ⟨r, -, hahead⟩ := Option.bind_eq_some_iff.1 hmet
    obtain ⟨j, -, hj⟩ := List.exists_of_findSome?_eq_some hahead
    obtain ⟨c, hc, hcb⟩ := Option.map_eq_some_iff.1 hj
    obtain ⟨e, -, he⟩ := Option.bind_eq_some_iff.1 hc
    rw [runV_bind_ok (runV_modV _ s)] at h
    obtain ⟨rfl, -⟩ := runV_pure_eq_ok.1 h
    exact .inl ⟨e, by rw [he, (Prod.mk.inj hcb).2]⟩
  · obtain ⟨b, u, hm, hnote⟩ := runV_bind_eq_ok.1 h
    rw [runV_bind_ok (runV_modV _ u)] at hnote
    obtain ⟨rfl, -⟩ := runV_pure_eq_ok.1 hnote
    exact .inr ⟨u, hm⟩

/-- A fetch on the key bus reads the slot its key reference names. -/
theorem fetchNow_slot {o : Opnd} {k : KeySel} {q : KeyReq} {i : Nat} {x : Slot} (h : runV (fetchNow o k q) s = (.ok (i, x), t)) :
    ∃ g, runV (keySlot o k) s = (.ok (i, g), s) := by
  obtain ⟨⟨j, g⟩, a, hkey, hmet⟩ := runV_bind_eq_ok.1 h
  obtain ⟨_, b, -, hb⟩ := runV_bind_eq_ok.1 hmet
  rw [runV_bind_ok (runV_getV b)] at hb
  obtain ⟨c, hc⟩ := runV_after_if hb
  rw [runV_bind_ok (runV_getV c)] at hc
  have hj : j = i := by
    split at hc
    · obtain ⟨_, _, -, hend⟩ := runV_bind_eq_ok.1 hc
      exact (Prod.mk.inj (runV_pure_eq_ok.1 hend).1).1
    · obtain ⟨_, _, -, hend⟩ := runV_bind_eq_ok.1 hc
      exact (Prod.mk.inj (runV_pure_eq_ok.1 hend).1).1
  rw [keySlot_keeps hkey, hj] at hkey
  exact ⟨g, hkey⟩

/-- So does a verb's fetch, whether it has had the key already or not. -/
theorem fetch_slot {o : Opnd} {k : KeySel} {q : KeyReq} {i : Nat} {x : Slot} (h : runV (fetch o k q) s = (.ok (i, x), t)) :
    ∃ g, runV (keySlot o k) s = (.ok (i, g), s) := by
  obtain ⟨⟨j, g⟩, a, hkey, honce⟩ := runV_bind_eq_ok.1 h
  obtain rfl := keySlot_keeps hkey
  rcases once_answers honce with ⟨e, he⟩ | ⟨_, hnow⟩
  · have hj : j = i := by
      split at he
      · split at he
        · exact (Prod.mk.inj (Option.some.inj he)).1
        · cases he
      · cases he
    exact ⟨g, hj ▸ hkey⟩
  · exact fetchNow_slot hnow

/-! ### The vault's room leaves the key register alone -/

@[simp] theorem State.touch_kr (s : State) (l n : Nat) : (s.touch l n).kr = s.kr := by
  unfold State.touch
  split <;> rfl

@[simp] theorem State.makeRoom_kr (s : State) (l n : Nat) : (s.makeRoom l n).kr = s.kr := by
  unfold State.makeRoom
  simp only
  split
  · rfl
  · split <;> rfl

@[simp] theorem State.putRec_kr (s : State) (pg i : Nat) (b : Bytes) : (s.putRec pg i b).kr = s.kr := State.touch_kr ..

@[simp] theorem State.raiseReserve_kr (s : State) (i n : Nat) : (s.raiseReserve i n).kr = s.kr := by
  unfold State.raiseReserve
  split
  · exact s.putRec_kr ..
  · rfl

theorem needObj_kr {l n : Nat} {a : Unit} (h : runV (needObj l n) s = (.ok a, t)) : t.kr = s.kr := by
  rw [needObj, runV_bind_ok (runV_getV s)] at h
  split at h
  · rw [← runV_modV_eq_ok.1 h, State.touch_kr]
  · split at h
    · exact absurd h runV_failV_ne_ok
    · exact absurd h runV_stopV_ne_ok

theorem dirtyRoom_kr {pg : Nat} {a : Unit} (h : runV (dirtyRoom pg) s = (.ok a, t)) : t.kr = s.kr := by
  obtain ⟨_, v, hupper, hv⟩ := runV_bind_eq_ok.1 h
  obtain ⟨_, w, hlower, hw⟩ := runV_bind_eq_ok.1 hv
  rw [← needObj_kr hupper, ← needObj_kr hlower]
  rw [runV_bind_ok (runV_getV w)] at hw
  dsimp only at hw
  split_ifs at hw
  · rw [(runV_pure_eq_ok.1 hw).2]
  · exact absurd hw runV_stopV_ne_ok
  · exact absurd hw runV_stopV_ne_ok
  · exact absurd hw runV_stopV_ne_ok
  · rw [(runV_pure_eq_ok.1 hw).2]
  · rw [← runV_modV_eq_ok.1 hw, State.makeRoom_kr]

/-! ### Engines (07 R195) -/

theorem runV_engine_worked {o : Opnd} (h : s.engineServes o) (out : Bytes) : runV (engine o out) s = (.ok (), s.worked o) :=
  runV_engine h out

/-- Work that no engine serves, or that fails a release check, ends ENGINE_FAULT with a first part of its output written. -/
theorem runV_engine_fault {o : Opnd} (h : ¬s.engineServes o) (out : Bytes) :
    ∃ w v, runV (engine o out) s = (.error (.fail stEngine w), v) ∧ w <+: out := by
  unfold engine engineOf
  rw [runV_bind_ok (runV_getV s)]
  by_cases hk : (engineKinds o.fam o.op).all (s.kindServes o.cl) = true
  · have hchk : o.chk = false := by simpa using fun hc : o.chk = true => h ⟨hc, hk⟩
    rw [hk, runV_bind_ok (runV_need true _ s), runV_bind_ok (runV_modV _ s), if_neg (by simp [hchk]), runV_bind_ok (runV_modV _ _),
      runV_stopV]
    exact ⟨_, _, rfl, List.take_prefix ..⟩
  · rw [Bool.eq_false_of_not_eq_true hk, runV_bind_error (runV_need false _ s)]
    exact ⟨_, _, rfl, List.nil_prefix⟩

end Sys2Proof.Machine
end

section
/-! The MAC verbs, the generic verbs and GCM (04 R106, R108, R119; 07 R198, R204), with their keys fetched. -/

namespace Sys2Proof.Machine

variable {o : Opnd} {s t u : State} {i : Nat} {x : Slot}

/-! ### Generic (04 R119) -/

/-- The input is whole blocks of n bytes where the mode asks for them, and nothing stands behind an 8-byte initial value. -/
def genWhole (o : Opnd) (n : Nat) : Prop := (genMode o = 2 ∨ o.inLen % n = 0) ∧ (n = 16 ∨ ∀ b ∈ o.inl.drop 8, b = 0)

/-- The mode's text, from one direction's ECB and CBC. -/
def genText (ecb : Nat → Bytes → Bytes → Bytes) (cbc : Nat → Bytes → Bytes → Bytes → Bytes) (o : Opnd) (x : Slot) : Bytes :=
  let iv := o.inl.take (algBlock x.alg.toNat)
  if genMode o = 0 then ecb x.alg.toNat x.key o.inp else if genMode o = 1 then cbc x.alg.toNat x.key iv o.inp
  else ctrMode x.alg.toNat x.key iv o.inp

/-- A generic verb of either direction, by its text. -/
def runGeneric (mode : Nat) (text : Opnd → Slot → Bytes) (o : Opnd) : V Answer := do
  probe o o.keyA (genReq mode)
  genAlgCheck o
  let (_, x) ← fetch o o.keyA (genReq mode)
  engine o (text o x)
  pure { out := text o x }

theorem runGenericEncrypt_eq : runGenericEncrypt = runGeneric mEnc (genText ecbEnc cbcEnc) := rfl

theorem runGenericDecrypt_eq : runGenericDecrypt = runGeneric mDec (genText ecbDec cbcDec) := rfl

theorem runV_genAlgCheck {g : Option Nat} (h : runV (keySlot o o.keyA) u = (.ok (i, g), u)) :
    (genWhole o (algBlock (u.slot i).alg.toNat) → runV (genAlgCheck o) u = (.ok (), u))
    ∧ (¬genWhole o (algBlock (u.slot i).alg.toNat) → runV (genAlgCheck o) u = (.error (.fail stBad []), u)) := by
  rw [genAlgCheck, runV_bind_ok h, runV_bind_ok (runV_getV u), runV_need]
  simp only [genWhole, allZero, Bool.and_eq_true, Bool.or_eq_true, decide_eq_true_eq, beq_iff_eq, List.all_eq_true]
  exact ⟨fun h => if_pos h, fun h => if_neg h⟩

section
variable {mode : Nat} {text : Opnd → Slot → Bytes} (hf : s.fetches u t o o.keyA (genReq mode) i x)
include hf

theorem runGeneric_whole (hw : genWhole o (algBlock (u.slot i).alg.toNat)) :
    runV (runGeneric mode text o) s = runV (do engine o (text o x); pure { out := text o x } : V Answer) t := by
  obtain ⟨hprobe, hfetch⟩ := hf
  obtain ⟨g, hkey⟩ := fetch_slot hfetch
  rw [runGeneric, runV_bind_ok hprobe, runV_bind_ok ((runV_genAlgCheck hkey).1 hw), runV_bind_ok hfetch]

theorem runGeneric_serves (hw : genWhole o (algBlock (u.slot i).alg.toNat)) (hs : t.engineServes o) :
    runV (runGeneric mode text o) s = (.ok { out := text o x }, t.worked o) := by
  rw [runGeneric_whole hf hw, runV_bind_ok (runV_engine_worked hs _), runV_pure]

theorem runGeneric_fault (hw : genWhole o (algBlock (u.slot i).alg.toNat)) (hs : ¬t.engineServes o) :
    ∃ w v, runV (runGeneric mode text o) s = (.error (.fail stEngine w), v) ∧ w <+: text o x := by
  obtain ⟨w, v, hrun, hpre⟩ := runV_engine_fault hs (text o x)
  exact ⟨w, v, by rw [runGeneric_whole hf hw, runV_bind_error hrun], hpre⟩

theorem runGeneric_partial (hw : ¬genWhole o (algBlock (u.slot i).alg.toNat)) :
    runV (runGeneric mode text o) s = (.error (.fail stBad []), u) := by
  obtain ⟨hprobe, hfetch⟩ := hf
  obtain ⟨g, hkey⟩ := fetch_slot hfetch
  rw [runGeneric, runV_bind_ok hprobe, runV_bind_error ((runV_genAlgCheck hkey).2 hw)]

end

/-! ### MAC (04 R106, R108) -/

theorem runMacGenerate_value (hf : s.fetches u t o o.keyA (macReq o mGen) i x) (ha : macAlgo o ≠ 2) (hs : t.engineServes o) :
    runV (runMacGenerate o) s = (.ok { out := macValue o x o.inp }, t.worked o) := by
  obtain ⟨hprobe, hfetch⟩ := hf
  rw [runMacGenerate, runV_bind_ok hprobe, if_neg ha, runV_bind_ok hfetch, runV_bind_ok (runV_engine_worked hs _), runV_pure]

/-- GMAC takes the next nonce of its slot, and answers it before its tag. -/
theorem runMacGenerate_gmac {c : Nat} (ha : macAlgo o = 2) (hp : runV (probe o o.keyA (macReq o mGen)) s = (.ok (), u))
    (hf : runV (fetchGcm o o.keyA (macReq o mGen)) u = (.ok (x, c), t)) (hs : t.engineServes o) :
    let nonce := nonceBytes (t.worked o) o.p ((t.worked o).fceOf o.cl c) c
    runV (runMacGenerate o) s
      = (.ok { out := nonce ++ gcmTag x.alg.toNat x.key nonce o.inp [] (macTlen o), inl := nonce.drop 4 }, t.worked o) := by
  rw [runMacGenerate, runV_bind_ok hp, if_pos ha, runV_bind_ok hf, runV_bind_ok (runV_engine_worked hs _), runV_bind_ok (runV_getV _),
    runV_pure]

/-- The value MAC_VERIFY compares with: GMAC under the nonce of its operands, or the MAC of the other algorithms. -/
def macCheck (o : Opnd) (x : Slot) (m : Bytes) : Bytes :=
  if macAlgo o = 2 then gcmTag x.alg.toNat x.key (o.inl.take 12) m [] (macTlen o) else macValue o x m

theorem runMacVerify_compares (hf : s.fetches u t o o.keyA (macReq o mVer) i x) (hs : t.engineServes o) :
    (macCheck o x (o.inp.take o.auxLen) = o.inp.drop o.auxLen → runV (runMacVerify o) s = (.ok {}, t.worked o))
    ∧ (macCheck o x (o.inp.take o.auxLen) ≠ o.inp.drop o.auxLen → runV (runMacVerify o) s = (.error (.fail stAuth []), t.worked o)) := by
  obtain ⟨hprobe, hfetch⟩ := hf
  have hrun : runV (runMacVerify o) s
      = runV (do need (macCheck o x (o.inp.take o.auxLen) == o.inp.drop o.auxLen) stAuth; pure {} : V Answer) (t.worked o) := by
    rw [runMacVerify, runV_bind_ok hprobe, runV_bind_ok hfetch, runV_bind_ok (runV_engine_worked hs _)]
    rfl
  rw [hrun]
  constructor
  · intro heq
    rw [beq_iff_eq.2 heq, runV_bind_ok (runV_need true ..), runV_pure]
  · intro hne
    rw [beq_eq_false_iff_ne.2 hne, runV_bind_error (runV_need false ..)]

/-! ### GCM (07 R199, R204) -/

theorem runGcmEncrypt_serves {c : Nat} (hp : runV (probe o o.keyA (gcmReq mEnc)) s = (.ok (), u))
    (hf : runV (fetchGcm o o.keyA (gcmReq mEnc)) u = (.ok (x, c), t)) (hs : t.engineServes o) :
    let nonce := nonceBytes t o.p (t.fceOf o.cl c) c
    let ct := gcmCrypt x.alg.toNat x.key nonce (o.inp.drop o.auxLen)
    runV (runGcmEncrypt o) s
      = (.ok { out := nonce ++ ct ++ gcmTag x.alg.toNat x.key nonce (o.inp.take o.auxLen) ct (gcmTlen o), inl := nonce.drop 4 },
          t.worked o) := by
  rw [runGcmEncrypt, runV_bind_ok hp, runV_bind_ok hf, runV_bind_ok (runV_getV t), runV_bind_ok (runV_engine_worked hs _), runV_pure]

theorem runGcmDecrypt_serves (hf : s.fetches u t o o.keyA (gcmReq mDec) i x) (hs : t.engineServes o) :
    let m := o.inLen - o.auxLen - gcmTlen o
    let ct := slice o.inp o.auxLen m
    let pt := gcmCrypt x.alg.toNat x.key (o.inl.take 12) ct
    let good := gcmTag x.alg.toNat x.key (o.inl.take 12) (o.inp.take o.auxLen) ct (gcmTlen o) = o.inp.drop (o.auxLen + m)
    (good → runV (runGcmDecrypt o) s = (.ok { out := pt }, t.worked o))
    ∧ (¬good → runV (runGcmDecrypt o) s = (.error (.fail stAuth pt), t.worked o)) := by
  obtain ⟨hprobe, hfetch⟩ := hf
  intro m ct pt good
  rw [runGcmDecrypt, runV_bind_ok hprobe, runV_bind_ok hfetch, runV_bind_ok (runV_engine_worked hs _)]
  exact ⟨fun h => by rw [if_pos h, runV_pure], fun h => by rw [if_neg h, runV_stopV]⟩

/-! ### The invocation counter (03 R74) -/

/-- The invocation counter of slot i has gone up by one from s to u, and no other slot has changed. -/
def State.countsNonce (s u : State) (i : Nat) : Prop :=
  u.slot i = { s.slot i with nonce := (s.slot i).nonce + 1 } ∧ ∀ j, j ≠ i → u.slot j = s.slot j

/-- Whatever room a fetch made for its slot's record, the counter it moves is the one the slot had. -/
theorem countsNonce_of_kr {v : State} (h : v.kr = s.kr) :
    s.countsNonce (v.setSlot i { v.slot i with nonce := (v.slot i).nonce + 1 }) i := by
  have hslot : ∀ j, v.slot j = s.slot j := fun j => by rw [State.slot, h, State.slot]
  exact ⟨by rw [State.slot_setSlot, hslot], fun j hj => by rw [State.slot_setSlot_ne _ _ hj, hslot]⟩

theorem takeNonce_counts {c : Nat} (h : runV (takeNonce i) s = (.ok c, u)) :
    c = (s.slot i).nonce.toNat ∧ (s.slot i).nonce ≠ BitVec.allOnes 64 ∧ s.countsNonce u i := by
  rw [takeNonce, runV_bind_ok (runV_getV s)] at h
  obtain ⟨_, a, hneed, ha⟩ := runV_bind_eq_ok.1 h
  obtain ⟨hlast, rfl⟩ := runV_need_eq_ok.1 hneed
  split at ha
  · rw [runV_bind_ok (runV_modV _ s)] at ha
    obtain ⟨rfl, rfl⟩ := runV_pure_eq_ok.1 ha
    exact ⟨rfl, of_decide_eq_true hlast, countsNonce_of_kr rfl⟩
  · obtain ⟨_, v, hobj, hv⟩ := runV_bind_eq_ok.1 ha
    obtain ⟨_, w, hroom, hw⟩ := runV_bind_eq_ok.1 hv
    rw [runV_bind_ok (runV_modV _ w)] at hw
    split at hw
    · exact absurd hw runV_stopV_ne_ok
    · rw [runV_bind_ok (runV_modV _ _)] at hw
      obtain ⟨rfl, rfl⟩ := runV_pure_eq_ok.1 hw
      refine ⟨rfl, of_decide_eq_true hlast, countsNonce_of_kr ?_⟩
      rw [State.raiseReserve_kr, dirtyRoom_kr hroom, needObj_kr hobj]

/-- Settles O57: each verb's run from its fetch on, by its engine's work, and the invocation counter by `takeNonce_counts`. -/
theorem ciphersCompute : Obligations.CiphersCompute := by
  intro o s u t i x
  rw [runGenericEncrypt_eq, runGenericDecrypt_eq]
  exact ⟨fun hf => ⟨runGeneric_serves hf, runGeneric_partial hf, runGeneric_fault hf⟩, runGeneric_serves, runMacGenerate_value,
    fun _ => runMacGenerate_gmac, runMacVerify_compares, fun _ => runGcmEncrypt_serves, runGcmDecrypt_serves, fun _ => takeNonce_counts⟩

end Sys2Proof.Machine
end

section
/-! Reading a frame: one lemma a unit, for what `keeps` says of it. -/

namespace Sys2Proof.Machine

section
variable {s t : State} {l : List Area}

theorem State.keeps.host_eq (h : s.keeps t l) (hl : .host ∉ l := by decide) : t.host = s.host := h.1 hl
theorem State.keeps.disp_eq (h : s.keeps t l) (hl : .disp ∉ l := by decide) : t.disp = s.disp := h.2.1 hl
theorem State.keeps.kr_eq (h : s.keeps t l) (hl : .kr ∉ l := by decide) : t.kr = s.kr := h.2.2.1 hl
theorem State.keeps.vault_eq (h : s.keeps t l) (hl : .vault ∉ l := by decide) : t.vault = s.vault := h.2.2.2.1 hl
theorem State.keeps.eng_eq (h : s.keeps t l) (hl : .eng ∉ l := by decide) : t.eng = s.eng := h.2.2.2.2.1 hl
theorem State.keeps.ent_eq (h : s.keeps t l) (hl : .ent ∉ l := by decide) : t.ent = s.ent := h.2.2.2.2.2.1 hl
theorem State.keeps.tam_eq (h : s.keeps t l) (hl : .tam ∉ l := by decide) : t.tam = s.tam := h.2.2.2.2.2.2.1 hl
theorem State.keeps.gate_eq (h : s.keeps t l) (hl : .gate ∉ l := by decide) : t.gate = s.gate := h.2.2.2.2.2.2.2.1 hl
theorem State.keeps.mesh_eq (h : s.keeps t l) (hl : .mesh ∉ l := by decide) : t.mesh = s.mesh := h.2.2.2.2.2.2.2.2.1 hl
theorem State.keeps.time_eq (h : s.keeps t l) (hl : .time ∉ l := by decide) : t.time = s.time := h.2.2.2.2.2.2.2.2.2.1 hl
theorem State.keeps.pwr_eq (h : s.keeps t l) (hl : .pwr ∉ l := by decide) : t.pwr = s.pwr := h.2.2.2.2.2.2.2.2.2.2.1 hl
theorem State.keeps.life_eq (h : s.keeps t l) (hl : .life ∉ l := by decide) : { t.life with newItems := s.life.newItems } = s.life :=
  h.2.2.2.2.2.2.2.2.2.2.2 hl

/-- A frame may be widened where its list is a part of another. -/
theorem State.keeps.widen {l' : List Area} (h : s.keeps t l) (hl : ∀ a ∈ l, a ∈ l' := by decide) : s.keeps t l' := h.mono hl

end

/-- Equal units on both sides but for those of the list. -/
theorem State.keeps.of_eq {s t : State} {l : List Area} (h1 : .host ∉ l → t.host = s.host) (h2 : .disp ∉ l → t.disp = s.disp)
    (h3 : .kr ∉ l → t.kr = s.kr) (h4 : .vault ∉ l → t.vault = s.vault) (h5 : .eng ∉ l → t.eng = s.eng) (h6 : .ent ∉ l → t.ent = s.ent)
    (h7 : .tam ∉ l → t.tam = s.tam) (h8 : .gate ∉ l → t.gate = s.gate) (h9 : .mesh ∉ l → t.mesh = s.mesh)
    (h10 : .time ∉ l → t.time = s.time) (h11 : .pwr ∉ l → t.pwr = s.pwr) (h12 : .life ∉ l → t.life = s.life) : s.keeps t l :=
  ⟨h1, h2, h3, h4, h5, h6, h7, h8, h9, h10, h11, fun h => by rw [h12 h]⟩

end Sys2Proof.Machine
end

section
/-! What a command answers: every one but a store outside the host's address space goes on (02 R26), and what changed of the board
controller's items is told (18 R422). -/

namespace Sys2Proof.Machine

variable (s t : State)

/-! ### Commands that complete -/

/-- Stores inside the host's address space take effect before what follows. -/
theorem withStores_of_wf {w : List (Nat × Byte)} (h : storesWf w = true) (next : State → State) :
    withStores w s next = .next (s.settled (next { s with host := { s.host with mem := memStores s.host.mem w } })) := by
  have hnone : (w.find? fun c => decide (2 ^ 64 ≤ c.1)) = none := by
    rw [List.find?_eq_none]
    intro c hc
    have hlt := of_decide_eq_true (List.all_eq_true.1 h c hc)
    simpa using hlt
  unfold withStores
  rw [hnone]
  rfl

/-- A store outside the host's address space stops the block at the first such address. -/
theorem withStores_outside {w : List (Nat × Byte)} (h : storesWf w = false) :
    ∃ a, 2 ^ 64 ≤ a ∧ (∃ v, (a, v) ∈ w) ∧ ∀ next, withStores w s next = .fault (.noSuchHostAddress a) := by
  obtain ⟨c, hc, hout⟩ := List.all_eq_false.1 h
  have hsome : (w.find? fun c => decide (2 ^ 64 ≤ c.1)).isSome = true :=
    List.find?_isSome.2 ⟨c, hc, decide_eq_true (by simpa using hout)⟩
  obtain ⟨d, hd⟩ := Option.isSome_iff_exists.1 hsome
  have hbig : decide (2 ^ 64 ≤ d.1) = true := List.find?_some (p := fun c : Nat × Byte => decide (2 ^ 64 ≤ c.1)) hd
  refine ⟨d.1, of_decide_eq_true hbig, ⟨d.2, List.mem_of_find?_eq_some hd⟩, fun next => ?_⟩
  unfold withStores
  rw [hd]

/-- One poll of a ring or of the page supply ring. -/
def State.polled (s : State) : PollTarget → State
  | .ring fn r => s.pollRing fn.val r.val
  | .supply => s.pollSupply.after

theorem exec_ringPoll (p : PollTarget) (w : List (Nat × Byte)) : exec (.ringPoll p w) s = withStores w s fun s => s.polled p := by
  cases p <;> rfl

theorem exec_pageSupply (w : List (Nat × Byte)) : exec (.pageSupply w) s = withStores w s fun s => s.supply.vaultGoes.after := rfl

/-- A well-formed command answers a settled state. -/
theorem exec_settles {c : Instr} (h : c.wf = true) : ∃ x, exec c s = .next (s.settled x) := by
  cases c with
  | ringPoll p w => exact ⟨_, (exec_ringPoll s p w).trans (withStores_of_wf s h _)⟩
  | pageSupply w => exact ⟨_, (exec_pageSupply s w).trans (withStores_of_wf s h _)⟩
  | _ => exact ⟨_, rfl⟩

/-- A store outside the host's address space is the only thing that stops the block. -/
theorem exec_faults {c : Instr} (h : c.wf = false) : (∃ x, exec c s = .next (s.settled x)) ∨ ∃ e, exec c s = .fault e := by
  cases c with
  | ringPoll p w =>
    obtain ⟨a, -, -, hf⟩ := withStores_outside s h
    exact .inr ⟨_, (exec_ringPoll s p w).trans (hf _)⟩
  | pageSupply w =>
    obtain ⟨a, -, -, hf⟩ := withStores_outside s h
    exact .inr ⟨_, (exec_pageSupply s w).trans (hf _)⟩
  | _ => exact .inl ⟨_, rfl⟩

/-- Whatever the command, the next state it answers, if it answers one, is a settled one. -/
theorem exec_next_settled {c : Instr} {t : State} (h : exec c s = .next t) : ∃ x, t = s.settled x := by
  have hout : (∃ x, exec c s = .next (s.settled x)) ∨ ∃ e, exec c s = .fault e := by
    cases hw : c.wf with
    | true => exact .inl (exec_settles s hw)
    | false => exact exec_faults s hw
  rcases hout with ⟨x, hx⟩ | ⟨e, he⟩
  · rw [hx] at h
    injection h with h
    exact ⟨x, h.symm⟩
  · rw [he] at h
    cases h

/-- Settles O1: a step on a queue that is not empty is the front command's meaning, by definition. -/
theorem stepTakesFront : Obligations.StepTakesFront := fun _ _ _ => rfl

/-- Settles O3: every command settles its state (`exec_settles`), which keeps the queue. -/
theorem commandsComplete : Obligations.CommandsComplete := fun _ s h =>
  let ⟨x, hx⟩ := exec_settles s h
  ⟨s.settled x, hx, s.settled_pending x⟩

/-- Settles O4: the first store outside is the address named, in both commands alike. -/
theorem outsideStoreStops : Obligations.OutsideStoreStops := fun p w s h =>
  let ⟨a, ha, hm, hf⟩ := withStores_outside s h
  ⟨a, ha, hm, (exec_ringPoll s p w).trans (hf _), (exec_pageSupply s w).trans (hf _)⟩

/-! ### What the board controller is told (18 R422, Table 18.5) -/

/-- Bit k of the number whose places are listed by a test. -/
theorem getLsbD_sum_places (f : Nat → Bool) {k : Nat} (hk : k < 8) :
    (BitVec.ofNat 8 (((List.range 8).map fun i => if f i then 0 else 2 ^ i).sum)).getLsbD k = !f k := by
  have hsum : ((List.range 8).map fun i => if f i then 0 else 2 ^ i).sum
      = (if f 0 then 0 else 1) + (if f 1 then 0 else 2) + (if f 2 then 0 else 4) + (if f 3 then 0 else 8) + (if f 4 then 0 else 16)
        + (if f 5 then 0 else 32) + (if f 6 then 0 else 64) + (if f 7 then 0 else 128) := by
    simp [List.range_succ, Nat.add_assoc]
  have hbits : ∀ a b c d e f g h : Bool, ∀ k : Fin 8,
      (BitVec.ofNat 8 ((if a then 0 else 1) + (if b then 0 else 2) + (if c then 0 else 4) + (if d then 0 else 8) + (if e then 0 else 16)
        + (if f then 0 else 32) + (if g then 0 else 64) + (if h then 0 else 128))).getLsbD k.val = !([a, b, c, d, e, f, g, h][k.val]'k.isLt) := by
    decide +kernel
  rw [hsum, hbits _ _ _ _ _ _ _ _ ⟨k, hk⟩]
  interval_cases k <;> rfl

/-- The bit of an item that differs from s to t is set in the settled state. -/
theorem newItems_identity (h : s.life.st ≠ t.life.st ∨ s.fwVersion ≠ t.fwVersion ∨ s.life.fwNone ≠ t.life.fwNone) :
    (s.settled t).life.newItems.getLsbD 1 = true := by
  rw [State.settled_newItems, BitVec.getLsbD_or, State.changed, getLsbD_sum_places _ (by decide)]
  simp only [Bool.or_eq_true, Bool.not_eq_true', Bool.and_eq_false_iff, beq_eq_false_iff_ne, ne_eq]
  tauto

theorem newItems_tally (h : s.tam.tally ≠ t.tam.tally ∨ s.tam.pending ≠ t.tam.pending) :
    (s.settled t).life.newItems.getLsbD 3 = true := by
  rw [State.settled_newItems, BitVec.getLsbD_or, State.changed, getLsbD_sum_places _ (by decide)]
  simp only [Bool.or_eq_true, Bool.not_eq_true', Bool.and_eq_false_iff, beq_eq_false_iff_ne, ne_eq]
  tauto

theorem newItems_log (h : s.tam.logSeq ≠ t.tam.logSeq) : (s.settled t).life.newItems.getLsbD 4 = true := by
  rw [State.settled_newItems, BitVec.getLsbD_or, State.changed, getLsbD_sum_places _ (by decide)]
  simp only [Bool.or_eq_true, Bool.not_eq_true', beq_eq_false_iff_ne, ne_eq]
  exact .inr h

theorem newItems_time (h : s.time.lock ≠ t.time.lock ∨ s.time.missing ≠ t.time.missing ∨ s.time.outOfWindow ≠ t.time.outOfWindow
    ∨ s.time.holdover ≠ t.time.holdover) : (s.settled t).life.newItems.getLsbD 5 = true := by
  rw [State.settled_newItems, BitVec.getLsbD_or, State.changed, getLsbD_sum_places _ (by decide)]
  simp only [Bool.or_eq_true, Bool.not_eq_true', Bool.and_eq_false_iff, beq_eq_false_iff_ne, ne_eq]
  tauto

theorem newItems_health (h : s.healthSame t = false) : (s.settled t).life.newItems.getLsbD 6 = true := by
  rw [State.settled_newItems, BitVec.getLsbD_or, State.changed, getLsbD_sum_places _ (by decide), Bool.or_eq_true]
  exact .inr (by simpa using h)

theorem healthSame_of_differs (h : s.ent.fail ≠ t.ent.fail ∨ s.eng.faults ≠ t.eng.faults ∨ s.kr.corrupt ≠ t.kr.corrupt
    ∨ s.pwr.cstate ≠ t.pwr.cstate ∨ s.tam.lowMargin ≠ t.tam.lowMargin ∨ s.vault.discards ≠ t.vault.discards) :
    s.healthSame t = false := by
  simp only [State.healthSame, Bool.and_eq_false_iff, beq_eq_false_iff_ne, ne_eq]
  tauto

/-- Settles O7: every command settles its state, and the settled state has the bit of each item that differs. -/
theorem changesAreTold : Obligations.ChangesAreTold := by
  intro c s t h
  obtain ⟨x, rfl⟩ := exec_next_settled s h
  exact ⟨newItems_identity s x, newItems_tally s x, newItems_log s x, newItems_time s x, fun hd => newItems_health s x (healthSame_of_differs s x hd)⟩

end Sys2Proof.Machine
end

section
/-! Host writes into BAR0: the ring set-up, the W1C bits, and writes that are ignored (00 R7; 02 R29, R30). -/

namespace Sys2Proof.Machine

variable (s : State)

/-! ### A host write that reaches its function -/

theorem barAddr_toNat {fn off : Nat} (hf : fn < 32) (ho : off < 0x8000) : (barAddr fn off).toNat = 0x0F800000 + 0x8000 * fn + off := by
  rw [barAddr, BitVec.toNat_ofNat, Nat.mod_eq_of_lt (by omega)]

/-- The host's own rule lets it reach every function's BAR0 (13 Table 13.5). -/
theorem gateCheck_barAddr {fn off : Nat} (hf : fn < 32) (ho : off < 0x8000) (p : Nat) :
    s.gateCheck (gateFor (barAddr fn off).toNat) 74 (barAddr fn off).toNat true p = (s, true) := by
  rw [barAddr_toNat hf ho]
  have hg : gateFor (0x0F800000 + 0x8000 * fn + off) = 4 := by
    unfold gateFor
    rw [if_neg (by omega), if_neg (by omega), if_neg (by omega)]
  have hr : fixedRule 4 74 (0x0F800000 + 0x8000 * fn + off) true = some true := by
    unfold fixedRule
    rw [if_neg (by omega), if_neg (by omega), if_pos (by omega)]
    rfl
  simp only [State.gateCheck, State.gateAnswer, hg, hr]

theorem regWrite_partial {a : Nat} {v : Word32} {be : BitVec 4} (ha : 0x0F800000 ≤ a) (h : be ≠ 0xF ∨ a % 4 ≠ 0) :
    s.regWrite 74 a v be = s := by
  unfold State.regWrite
  rw [if_neg (by omega), if_pos h]

theorem regWrite_barAddr {fn off : Nat} {v : Word32} (hf : fn < 32) (ho : off < 0x8000) (h4 : off % 4 = 0) :
    s.regWrite 74 (0x0F800000 + 0x8000 * fn + off) v 0xF = s.writeBar fn off v := by
  unfold State.regWrite
  rw [if_neg (by omega), if_neg (not_or.2 ⟨fun h => h rfl, by omega⟩), if_pos (by omega)]
  congr 1 <;> omega

/-- A host write answers its function's own write where the host reaches the device, and else nothing. -/
theorem exec_registerWrite_bar {fn : Fn} {off : Nat} {v : Word32} {be : BitVec 4} (ho : off < 0x8000) :
    ∃ x, exec (.registerWrite 74 (barAddr fn.val off) v be) s = .next (s.settled x)
      ∧ (x = s ∨ x = s.regWrite 74 (barAddr fn.val off).toNat v be)
      ∧ (s.mainRun = true → s.life.perstN = true → x = s.regWrite 74 (barAddr fn.val off).toNat v be) := by
  have hval : (74 : Fin 128).val = 74 := rfl
  refine ⟨_, rfl, ?_⟩
  rw [hval, gateCheck_barAddr s fn.isLt ho]
  split
  · rename_i h
    exact ⟨.inl rfl, fun h1 h2 => absurd h (by simp [h1, h2])⟩
  · exact ⟨.inr rfl, fun _ _ => rfl⟩

/-- A whole aligned word of a function that the host reaches. -/
theorem exec_hostWrite {fn : Fn} {off : Nat} {v : Word32} (h : s.hostReaches fn.val) (ho : off < 0x8000) (h4 : off % 4 = 0) :
    exec (hostWrite fn off v) s = .next (s.settled (s.writeBar fn.val off v)) := by
  obtain ⟨hm, hp, -⟩ := h
  obtain ⟨x, hx, -, hr⟩ := exec_registerWrite_bar s (fn := fn) (v := v) (be := 0xF) ho
  rw [hostWrite, hx, hr hm hp, barAddr_toNat fn.isLt ho, regWrite_barAddr s fn.isLt ho h4]

/-! ### Writes ignored -/

/-- The blocks of the physical function are not there on a virtual one, nor in Blank (02 R30). -/
theorem writeBar_own {n off : Nat} {v : Word32} (h1 : 0x4000 ≤ off) (h2 : n ≠ 0 ∨ s.life.st = .blank) : s.writeBar n off v = s := by
  unfold State.writeBar
  rw [if_neg (c := off = 0x104) (by omega), if_neg (c := off = 0x110) (by omega), if_neg (c := 0x1000 ≤ off ∧ off < 0x1200) (by omega),
    if_neg (c := 0x2000 ≤ off ∧ off < 0x3000) (by omega), if_neg (c := 0x3000 ≤ off ∧ off < 0x30A0) (by omega), if_pos h2, ite_self]

/-- Settles O9: the decode drops what is not a whole aligned word, and BAR0 what is not this function's. -/
theorem writesIgnored : Obligations.WritesIgnored := by
  refine ⟨fun fn off v be s ho hbe => ?_, fun fn off v be s h1 h2 hown => ?_⟩
  · obtain ⟨x, hx, hs, -⟩ := exec_registerWrite_bar s (fn := fn) (v := v) (be := be) ho
    rw [barAddr_toNat fn.isLt ho, regWrite_partial s (by omega) (hbe.imp_right (by omega)), or_self] at hs
    exact ⟨_, hx, hs ▸ s.sameBut_settled⟩
  · obtain ⟨x, hx, hs, -⟩ := exec_registerWrite_bar s (fn := fn) (v := v) (be := be) h2
    have hno : s.regWrite 74 (0x0F800000 + 0x8000 * fn.val + off) v be = s := by
      by_cases hbe : be ≠ 0xF ∨ off % 4 ≠ 0
      · exact regWrite_partial s (by omega) (hbe.imp_right (by omega))
      · obtain ⟨rfl, h4⟩ := not_or.1 hbe |>.imp not_not.1 not_not.1
        rw [regWrite_barAddr s fn.isLt h2 h4, writeBar_own s h1 hown]
    rw [barAddr_toNat fn.isLt h2, hno, or_self] at hs
    exact ⟨_, hx, hs ▸ s.sameBut_settled⟩

/-! ### Ring set-up (02 Table 2.8) -/

theorem writeBar_ring {n r off : Nat} {v : Word32} (hp : (s.func n).present = true) (hr : r < 8) (ho : off < 0x40) :
    s.writeBar n (0x1000 + 0x40 * r + off) v = s.setRing n r ((s.ring n r).write off v) := by
  unfold State.writeBar
  rw [if_neg (by simp [hp]), if_neg (by omega), if_neg (by omega), if_pos (by omega)]
  rw [show (0x1000 + 0x40 * r + off - 0x1000) / 0x40 = r by omega, show (0x1000 + 0x40 * r + off) % 0x40 = off by omega]

/-- A host write to a ring's set-up writes the ring and leaves everything else. -/
theorem hostWrite_ring {fn : Fn} {r : RingNo} {off : Nat} {v : Word32} (h : s.hostReaches fn.val) (ho : off < 0x40) (h4 : off % 4 = 0) :
    ∃ t, exec (hostWrite fn (0x1000 + 0x40 * r.val + off) v) s = .next t
      ∧ t.ring fn.val r.val = (s.ring fn.val r.val).write off v
      ∧ (∀ m q, ¬(m = fn.val ∧ q = r.val) → t.ring m q = s.ring m q) ∧ t.host.mem = s.host.mem ∧ t.disp = s.disp := by
  have hr := r.isLt
  refine ⟨_, exec_hostWrite s h (by omega) (by omega), ?_⟩
  rw [writeBar_ring s h.2.2 hr ho]
  exact ⟨s.ring_setRing .., fun m q hmq => s.ring_setRing_ne _ hmq, rfl, rfl⟩

/-- Settles O8: each field by `hostWrite_ring`, whose ring is locked while ENABLED. -/
theorem ringSetupWrite : Obligations.RingSetupWrite := by
  intro fn r v s h x leaves
  have field : ∀ off, off < 0x40 → off % 4 = 0 → ∀ y, x.write off v = (if x.enabled then x else y) → leaves off y := by
    intro off ho h4 y hy
    obtain ⟨t, ht, hx, hrest⟩ := hostWrite_ring s (r := r) (v := v) h ho h4
    exact ⟨t, ht, hx.trans hy, hrest⟩
  refine ⟨?_, ?_, ?_, ?_, ?_, ?_, ?_, ?_, ?_⟩ <;> exact field _ (by decide) (by decide) _ rfl

/-! ### W1C bits (00 R7) -/

theorem writeBar_status {n : Nat} {v : Word32} (hp : (s.func n).present = true) :
    s.writeBar n 0x104 v = s.setFunc n ((s.func n).clearStatus v) := by
  unfold State.writeBar
  rw [if_neg (by simp [hp]), if_pos rfl]

theorem writeBar_evtStat {n : Nat} {v : Word32} (hp : (s.func n).present = true) :
    s.writeBar n 0x2080 v = s.setFunc n { s.func n with evtStat := (s.func n).evtStat &&& ~~~(v.extractLsb' 0 9) } := by
  unfold State.writeBar
  rw [if_neg (by simp [hp]), if_neg (by decide), if_neg (by decide), if_neg (by decide), if_pos (by decide)]
  rfl

/-- Settles O10: `clearStatus` and the write of EVT_STAT take every written 1 out, bit by bit. -/
theorem statusBitsClear : Obligations.StatusBitsClear := by
  intro fn v s h
  refine ⟨⟨_, exec_hostWrite s h (by decide) (by decide), ?_⟩, ⟨_, exec_hostWrite s h (by decide) (by decide), ?_⟩⟩
  · rw [writeBar_status s h.2.2, State.settled_func, State.func_setFunc]
    refine ⟨rfl, rfl, rfl, rfl, fun i hi => ?_, rfl, fun m hm => s.func_setFunc_ne _ hm⟩
    simp [Func.clearStatus, hi]
  · rw [writeBar_evtStat s h.2.2, State.settled_func, State.func_setFunc]
    refine ⟨fun i hi => ?_, rfl, fun m hm => s.func_setFunc_ne _ hm⟩
    simp [hi]

end Sys2Proof.Machine
end

section
/-! The idle step (15 R361), the state after reset (12 R305), and what reads return (02 R29, R30). -/

namespace Sys2Proof.Machine

variable (s : State)

/-! ### Arbiters by CLK_SLOW (10 R249, R254) -/

/-- A table after each of its keys on a list, where a test says so, has been stepped. -/
theorem mget_foldl_step {α : Type} (p : Nat → Bool) (f : Nat → α → α) (d : Nat → α) (k : Nat) :
    ∀ (l : List Nat), l.Nodup → ∀ (m : Map α), (∀ z, (k ∉ l ∨ p k = false) →
      mget (l.foldl (fun m a => if p a then mset m a (f a (mget m a (d a))) else m) m) k z = mget m k z)
      ∧ ∀ z, k ∈ l → p k = true →
        mget (l.foldl (fun m a => if p a then mset m a (f a (mget m a (d a))) else m) m) k z = f k (mget m k (d k)) := by
  intro l
  induction l with
  | nil => exact fun _ m => ⟨fun z _ => rfl, fun z h => absurd h (by simp)⟩
  | cons a r ih =>
    intro hl m
    obtain ⟨ha, hr⟩ := List.nodup_cons.1 hl
    obtain ⟨hout, hin⟩ := ih hr (if p a then mset m a (f a (mget m a (d a))) else m)
    rw [List.foldl_cons]
    constructor
    · intro z hk
      rw [hout z (hk.imp_left fun h e => h (List.mem_cons_of_mem _ e))]
      by_cases hp : p a = true
      · have hne : k ≠ a := by
          rintro rfl
          exact hk.elim (fun h => h List.mem_cons_self) fun h => by simp [h] at hp
        rw [if_pos hp, mget_mset_ne _ _ _ hne]
      · rw [if_neg hp]
    · intro z hk hp
      rcases List.mem_cons.1 hk with rfl | hk
      · rw [hout z (.inl ha), if_pos hp, mget_mset_self]
      · have hne : k ≠ a := fun h => ha (h ▸ hk)
        rw [hin z hk hp]
        split
        · rw [mget_mset_ne _ _ _ hne]
        · rfl

/-- An arbiter that is powered goes on by one cycle, every other stands. -/
theorem rotTick_up {a : Nat} (ha : a < 12) (h : s.arbUp a = true) : mget s.rotTick a (arbReset a) = (s.arb a).tick :=
  (mget_foldl_step s.arbUp (fun _ => Arb.tick) arbReset a _ List.nodup_range s.eng.arbs).2 _ (List.mem_range.2 ha) h

theorem rotTick_down {a : Nat} (h : 12 ≤ a ∨ s.arbUp a = false) : mget s.rotTick a (arbReset a) = s.arb a :=
  (mget_foldl_step s.arbUp (fun _ => Arb.tick) arbReset a _ List.nodup_range s.eng.arbs).1 _
    (h.imp_left fun h => by simpa using h)

@[simp] theorem givePages_arbs (who c e p : Nat) (ns : List Nat) : ∀ s : State, (s.givePages who c e p ns).1.eng.arbs = s.eng.arbs := by
  induction ns with
  | nil => exact fun _ => rfl
  | cons n r ih =>
    intro s
    unfold State.givePages
    simp only
    split <;> exact ih _

@[simp] theorem grantOpen_arbs (o : OpenReq) : (s.grantOpen o).eng.arbs = s.eng.arbs := by
  unfold State.grantOpen
  simp only
  split <;> exact givePages_arbs ..

@[simp] theorem serveOpens_arbs (c e p n : Nat) : ∀ s : State, (s.serveOpens c e p n).eng.arbs = s.eng.arbs := by
  induction n with
  | zero => exact fun _ => rfl
  | succ n ih =>
    intro s
    unfold State.serveOpens
    split
    · rfl
    · split
      · rw [ih, grantOpen_arbs]
      · rfl

theorem serveAllOpens_keeps : s.keeps s.serveAllOpens [.eng] := .fold (fun s _ => keeps_serveOpens _ _ _ _ s) _ s

@[simp] theorem serveAllOpens_arbs : s.serveAllOpens.eng.arbs = s.eng.arbs := by
  unfold State.serveAllOpens
  induction s.eng.opens generalizing s with
  | nil => rfl
  | cons o r ih => rw [List.foldl_cons, ih, State.serveEngine, serveOpens_arbs]

@[simp] theorem givePages_pending (who c e p : Nat) (ns : List Nat) : ∀ s : State, (s.givePages who c e p ns).1.pending = s.pending := by
  induction ns with
  | nil => exact fun _ => rfl
  | cons n r ih =>
    intro s
    unfold State.givePages
    simp only
    split <;> exact ih _

@[simp] theorem serveOpens_pending (c e p n : Nat) : ∀ s : State, (s.serveOpens c e p n).pending = s.pending := by
  induction n with
  | zero => exact fun _ => rfl
  | succ n ih =>
    intro s
    unfold State.serveOpens
    split
    · rfl
    · split
      · rw [ih]
        unfold State.grantOpen
        simp only
        split <;> exact givePages_pending ..
      · rfl

@[simp] theorem serveAllOpens_pending : s.serveAllOpens.pending = s.pending := by
  unfold State.serveAllOpens
  induction s.eng.opens generalizing s with
  | nil => rfl
  | cons o r ih => rw [List.foldl_cons, ih, State.serveEngine, serveOpens_pending]

@[simp] theorem givePages_life (who c e p : Nat) (ns : List Nat) : ∀ s : State, (s.givePages who c e p ns).1.life = s.life := by
  induction ns with
  | nil => exact fun _ => rfl
  | cons n r ih =>
    intro s
    unfold State.givePages
    simp only
    split <;> exact ih _

@[simp] theorem serveOpens_life (c e p n : Nat) : ∀ s : State, (s.serveOpens c e p n).life = s.life := by
  induction n with
  | zero => exact fun _ => rfl
  | succ n ih =>
    intro s
    unfold State.serveOpens
    split
    · rfl
    · split
      · rw [ih]
        unfold State.grantOpen
        simp only
        split <;> exact givePages_life ..
      · rfl

@[simp] theorem serveAllOpens_life : s.serveAllOpens.life = s.life := by
  unfold State.serveAllOpens
  induction s.eng.opens generalizing s with
  | nil => rfl
  | cons o r ih => rw [List.foldl_cons, ih, State.serveEngine, serveOpens_life]

/-- The clocks alone: the time and the arbiters, one cycle on. -/
def State.clocked (s : State) : State := { s with time := s.time.tick, eng := { s.eng with arbs := s.rotTick } }

/-- An idle step is one cycle of the clocks, and the OPENs decided again where a map goes live. -/
theorem idle_eq : s.idle = if s.eng.arbs.any (fun c => c.2.coming.isSome) then s.clocked.serveAllOpens else s.clocked := rfl

theorem idle_clocked : s.clocked.keeps s.idle [.eng] := by
  rw [idle_eq]
  exact .ite (serveAllOpens_keeps _) (.refl _ _)

theorem idle_keeps : s.keeps s.idle [.eng, .time] :=
  State.keeps.trans (t := s.clocked) ((keeps_time s s.time.tick (by decide)).trans (keeps_eng _ _ (by decide))) (idle_clocked s).widen

theorem idle_arbs : s.idle.eng.arbs = s.rotTick := by
  rw [idle_eq]
  split
  · exact serveAllOpens_arbs _
  · rfl

theorem idle_pending : s.idle.pending = s.pending := by
  rw [idle_eq]
  split
  · exact serveAllOpens_pending _
  · rfl

theorem idle_life : s.idle.life = s.life := by
  rw [idle_eq]
  split
  · exact serveAllOpens_life _
  · rfl

/-- Where no map is on its way nothing but the arbiters' own state changes in the engines. -/
theorem idle_eng (h : ∀ c ∈ s.eng.arbs, c.2.coming = none) : { s.idle.eng with arbs := s.eng.arbs } = s.eng := by
  have hany : s.eng.arbs.any (fun c => c.2.coming.isSome) = false := by
    rw [List.any_eq_false]
    intro c hc
    simp [h c hc]
  rw [idle_eq, hany]
  rfl

/-! ### One cycle (15 R361) -/

theorem two_words_eq (v : Nat) : v / 2 ^ 32 % 2 ^ 64 * 2 ^ 32 + v % 2 ^ 32 = v % 2 ^ 96 := by omega

/-- The counter with its fraction is one number of 96 bits. -/
theorem Time.tick_counts (t : Time) (h : t.holding = false) :
    t.tick.counter.toNat * 2 ^ 32 + t.tick.frac.toNat
      = (t.counter.toNat * 2 ^ 32 + t.frac.toNat + ((10 * 2 ^ 32 : Int) + t.trim.toInt).toNat) % 2 ^ 96 := by
  unfold Time.tick
  rw [if_neg (by simp [h])]
  simp only [BitVec.toNat_ofNat]
  exact two_words_eq _

theorem Time.tick_else (t : Time) : t.tick = { t with counter := t.tick.counter, frac := t.tick.frac } := by
  unfold Time.tick
  split <;> rfl

theorem Time.tick_held (t : Time) (h : t.holding = true) : t.tick = t := by
  unfold Time.tick
  rw [if_pos h]

/-- ROT_COUNT goes on by 8 up to its bound, which fits its register. -/
theorem Arb.tick_rotCount (x : Arb) :
    x.tick.rotCount.toNat = min (if x.rotEn then max 63 x.rotP.toNat else 65535) (x.rotCount.toNat + 8) := by
  have hp : x.rotP.toNat < 65536 := x.rotP.isLt
  have hm : (BitVec.ofNat 16 (min (if x.rotEn then x.period - 1 else 65535) (x.rotCount.toNat + 8))).toNat
      = min (if x.rotEn then x.period - 1 else 65535) (x.rotCount.toNat + 8) := by
    rw [BitVec.toNat_ofNat, Nat.mod_eq_of_lt]
    unfold Arb.period
    split <;> omega
  exact hm

theorem Arb.arrived_live (x : Arb) :
    (∀ m, x.coming = some m → (x.arrived.liveLo, x.arrived.liveHi) = m)
    ∧ (x.coming = none → x.arrived.liveLo = x.liveLo ∧ x.arrived.liveHi = x.liveHi) ∧ x.arrived.coming = none
    ∧ x.arrived.queue = x.queue ∧ x.arrived.eng = x.eng := by
  unfold Arb.arrived
  cases h : x.coming with
  | none => exact ⟨fun _ h => (by cases h), fun _ => ⟨rfl, rfl⟩, h, rfl, rfl⟩
  | some m => exact ⟨fun n hn => Option.some.inj hn, fun h => (by cases h), rfl, rfl, rfl⟩

theorem mget_map {α β : Type} (f : α → β) (m : Map α) (k : Nat) (d : α) :
    mget (m.map fun c => (c.1, f c.2)) k (f d) = f (mget m k d) := by
  induction m with
  | nil => rfl
  | cons c r ih =>
    obtain ⟨j, v⟩ := c
    simp only [List.map_cons, mget]
    split
    · rfl
    · exact ih

/-- An engine whose granted block has started. -/
def EngArb.settledIn (y : EngArb) : EngArb := { y with fresh := false }

theorem Arb.tick_engine (x : Arb) (e : Nat) : x.tick.engine e = { x.engine e with fresh := false } :=
  mget_map EngArb.settledIn x.eng e {}

/-- Settles O2: the time goes by `Time.tick`, each arbiter by `Arb.tick`, and `idle_keeps` frames the rest. -/
theorem idleCycle : Obligations.IdleCycle := by
  intro s hs
  have k := idle_keeps s
  have htime : s.idle.time = s.time.tick := (idle_clocked s).time_eq
  have harb : ∀ a, s.idle.arb a = mget s.rotTick a (arbReset a) := fun a => by rw [State.arb, idle_arbs]
  refine ⟨s.idle, by rw [step, hs], ?_, ?_, ?_, fun a ha => (harb a).trans (rotTick_down s ha), fun a ha hup => ?_,
    (idle_pending s).trans hs, k.host_eq, k.disp_eq, k.kr_eq, k.vault_eq, idle_eng s, k.ent_eq, k.tam_eq, k.gate_eq, k.mesh_eq, k.pwr_eq,
    idle_life s⟩
  · exact fun h => htime.trans (s.time.tick_held h)
  · exact fun h => by rw [htime]; exact s.time.tick_counts h
  · rw [htime]; exact s.time.tick_else
  · obtain ⟨hsome, hnone, hcoming, hqueue, -⟩ := (s.arb a).arrived_live
    rw [harb, rotTick_up s ha hup]
    exact ⟨_, rfl, (s.arb a).tick_rotCount, hsome, hnone, hcoming, hqueue, (s.arb a).tick_engine⟩

/-! ### After reset -/

/-- Every two words of a list differ in at least 6 bits, and so does each from all zeros and from all ones. -/
def farApart (l : List Word16) : Bool :=
  l.all fun a => decide (6 ≤ codeDistance a 0) && decide (6 ≤ codeDistance a 0xFFFF) && l.all fun b => a == b || decide (6 ≤ codeDistance a b)

theorem farApart_iff {l : List Word16} :
    farApart l = true ↔ ∀ a ∈ l, 6 ≤ codeDistance a 0 ∧ 6 ≤ codeDistance a 0xFFFF ∧ ∀ b ∈ l, a ≠ b → 6 ≤ codeDistance a b := by
  simp only [farApart, List.all_eq_true, Bool.and_eq_true, Bool.or_eq_true, decide_eq_true_eq, beq_iff_eq, or_iff_not_imp_left, ne_eq, and_assoc]

theorem lifecycleCodes_farApart : farApart lifecycleCodes = true := by decide +kernel
theorem fellCodes_farApart : farApart fellCodes = true := by decide +kernel
theorem busCodes_farApart : farApart busCodes = true := by decide +kernel
theorem entropyCodes_farApart : farApart entropyCodes = true := by decide +kernel
theorem grantCodes_farApart : farApart grantCodes = true := by decide +kernel

/-- Settles O6: the reset state by its own fields, the codes by their pairwise distances. -/
theorem resetIsGood : Obligations.ResetIsGood := by
  refine ⟨fun _ h => absurd h List.not_mem_nil, reset_memWf, fun _ => rfl, rfl, rfl, rfl, rfl, rfl, rfl, rfl, rfl, rfl, rfl,
    by decide +kernel, by decide +kernel, by decide +kernel, by decide +kernel, by decide +kernel, fun m hm => farApart_iff.1 ?_⟩
  simp only [List.mem_cons, List.not_mem_nil, or_false] at hm
  rcases hm with rfl | rfl | rfl | rfl | rfl
  · exact lifecycleCodes_farApart
  · exact fellCodes_farApart
  · exact busCodes_farApart
  · exact entropyCodes_farApart
  · exact grantCodes_farApart

/-! ### Reads (02 R29, R30) -/

theorem hiWord_append_loWord (x : Word64) : hiWord x ++ loWord x = x := by
  apply BitVec.eq_of_toNat_eq
  rw [BitVec.toNat_append, Nat.shiftLeft_eq, Nat.mul_comm, ← Nat.two_pow_add_eq_or_of_lt (loWord x).isLt]
  simp only [hiWord, loWord, BitVec.extractLsb'_toNat, Nat.shiftRight_eq_div_pow]
  have := x.isLt
  omega

/-- The high word of a counter by its value. -/
theorem ofNat_high (x : Word64) : BitVec.ofNat 32 (x.toNat / 2 ^ 32) = x.extractLsb' 32 32 := by
  rw [BitVec.extractLsb', Nat.shiftRight_eq_div_pow]

theorem ofNat_low (x : Word64) : BitVec.ofNat 32 x.toNat = x.extractLsb' 0 32 := by
  rw [BitVec.extractLsb', Nat.shiftRight_zero]

/-- What BAR0 of function n reads at the offsets of a ring's set-up. -/
theorem readBar_ring {n r off : Nat} (hp : (s.func n).present = true) (hr : r < 8) (ho : off < 0x40) :
    s.readBar n (0x1000 + 0x40 * r + off) = (s.ring n r).read off := by
  unfold State.readBar
  rw [if_neg (by simp [hp]), if_neg (by omega), if_neg (by omega), if_pos (by omega),
    show (0x1000 + 0x40 * r + off - 0x1000) / 0x40 = r by omega, show (0x1000 + 0x40 * r + off) % 0x40 = off by omega]

theorem readBar_identity {n off : Nat} (hp : (s.func n).present = true) (ho : off < 0x40) : s.readBar n off = s.readIdentity n off := by
  unfold State.readBar
  rw [if_neg (by simp [hp]), if_pos ho]

/-- Offsets between the identity block and the function status are listed nowhere. -/
theorem readBar_unlisted {n off : Nat} (h1 : 0x40 ≤ off) (h2 : off < 0x100) : s.readBar n off = 0 := by
  unfold State.readBar
  rw [if_neg (c := off < 0x40) (by omega), if_neg (c := 0x100 ≤ off ∧ off < 0x118) (by omega),
    if_neg (c := 0x1000 ≤ off ∧ off < 0x1200) (by omega), if_neg (c := 0x2000 ≤ off ∧ off < 0x3000) (by omega),
    if_neg (c := 0x3000 ≤ off ∧ off < 0x30A0) (by omega), if_neg (c := off = 0x3800) (by omega),
    if_neg (c := 0x4000 ≤ off ∧ off < 0x5000) (by omega), if_neg (c := 0x5000 ≤ off ∧ off < 0x6000) (by omega),
    if_neg (c := 0x6000 ≤ off ∧ off < 0x7000) (by omega), if_neg (c := 0x7000 ≤ off ∧ off < 0x8000) (by omega), ite_self, ite_self]

/-- The physical function's own blocks read as zero elsewhere. -/
theorem readBar_own {n off : Nat} (h : n ≠ 0 ∨ s.life.st = .blank) (h1 : 0x4000 ≤ off) : s.readBar n off = 0 := by
  unfold State.readBar
  rw [if_neg (c := off < 0x40) (by omega), if_neg (c := 0x100 ≤ off ∧ off < 0x118) (by omega),
    if_neg (c := 0x1000 ≤ off ∧ off < 0x1200) (by omega), if_neg (c := 0x2000 ≤ off ∧ off < 0x3000) (by omega),
    if_neg (c := 0x3000 ≤ off ∧ off < 0x30A0) (by omega), if_neg (c := off = 0x3800) (by omega), if_pos h, ite_self]

theorem readBar_timeHi (hp : (s.func 0).present = true) (hb : s.life.st ≠ .blank) : s.readBar 0 0x6004 = s.time.hiLatch := by
  unfold State.readBar
  rw [if_neg (by simp [hp]), if_neg (by decide), if_neg (by decide), if_neg (by decide), if_neg (by decide), if_neg (by decide),
    if_neg (by decide), if_neg (by simp [hb]), if_neg (by decide), if_neg (by decide), if_pos (by decide)]
  rfl

/-- A refused read returns zero. -/
theorem busRead_refused {m a : Nat} (h : (s.gateCheck (gateFor a) m a false ((s.tagOf m).elim 0 (·.1))).2 = false) :
    (s.busRead m a).2 = 0 := by
  unfold State.busRead
  split
  · rename_i e
    rw [e] at h
    cases h
  · rfl

/-- Settles O11: each block of BAR0 by its own lemma, and TIME_LO_READ by its two cases. -/
theorem timeRead : Obligations.TimeRead := by
  refine ⟨fun fn s hp => ⟨?_, ?_, ?_, ?_, fun off => readBar_unlisted s, fun r hr b hb => ?_, fun h off h1 _ => readBar_own s h h1,
    fun h hb => readBar_timeHi s (h ▸ hp) hb⟩, fun x off hoff => ?_, fun m a s => busRead_refused s, fun fn s => ⟨_, rfl, ?_⟩⟩
  · rw [readBar_identity s hp (by decide)]; rfl
  · rw [readBar_identity s hp (by decide)]; rfl
  · rw [readBar_identity s hp (by decide)]; rfl
  · rw [readBar_identity s hp (by decide), readBar_identity s hp (by decide)]; rfl
  · subst hb
    have h0 := readBar_ring s hp hr (off := 0) (by decide)
    rw [readBar_ring s hp hr (by decide), readBar_ring s hp hr (by decide), readBar_ring s hp hr (by decide),
      readBar_ring s hp hr (by decide), readBar_ring s hp hr (by decide), readBar_ring s hp hr (by decide)]
    rw [Nat.add_zero] at h0
    rw [h0]
    refine ⟨hiWord_append_loWord _, hiWord_append_loWord _, ?_, rfl, rfl⟩
    simp only [Ring.read, word, at', Nat.mul_comm]
    rfl
  · simp only [List.mem_cons, List.not_mem_nil, or_false] at hoff
    unfold CPage.read
    rw [if_neg (by omega), if_neg (by omega), if_pos (by omega)]
  · by_cases h : fn.val ≠ 0 ∨ s.life.st = .blank
    · rw [if_pos h]
      exact ⟨fun h0 h1 => absurd h (by simp [h0, h1]), fun _ => ⟨rfl, rfl⟩, rfl, rfl, rfl⟩
    · rw [if_neg h]
      refine ⟨fun _ _ => ⟨ofNat_low _, ?_⟩, fun hn => absurd hn h, rfl, rfl, rfl⟩
      rw [← ofNat_high]
      rfl

end Sys2Proof.Machine
end

section
/-! Which descriptor records an operation leaves: every record afterwards stands for one of before, and only records that a test picks
out are gone. -/

namespace Sys2Proof.Machine

section
variable {s t u : State}

/-- Two records of one descriptor: the same number, ring, place in it and bytes. -/
structure DRec.sameDesc (q r : DRec) : Prop where
  id : r.id = q.id
  fn : r.fn = q.fn
  ring : r.ring = q.ring
  idx : r.idx = q.idx
  bytes : r.bytes = q.bytes

theorem DRec.sameDesc.refl (r : DRec) : r.sameDesc r := ⟨rfl, rfl, rfl, rfl, rfl⟩

theorem DRec.sameDesc.trans {p q r : DRec} (h : p.sameDesc q) (k : q.sameDesc r) : p.sameDesc r :=
  ⟨k.id.trans h.id, k.fn.trans h.fn, k.ring.trans h.ring, k.idx.trans h.idx, k.bytes.trans h.bytes⟩

/-- The records of t are those of s whose numbers pass the test, each still of its descriptor. -/
def State.narrows (s t : State) (keep : Nat → Bool) : Prop :=
  ∃ f : DRec → DRec, (∀ r : DRec, r.sameDesc (f r)) ∧ t.disp.descs = (s.disp.descs.filter fun r => keep r.id).map f

/-- Every record is still there. -/
def State.relabels (s t : State) : Prop := s.narrows t fun _ => true

theorem State.narrows.trans {k k' : Nat → Bool} (h : s.narrows t k) (h' : t.narrows u k') : s.narrows u fun i => k i && k' i := by
  obtain ⟨f, hf, e⟩ := h
  obtain ⟨g, hg, e'⟩ := h'
  refine ⟨g ∘ f, fun r => (hf r).trans (hg _), ?_⟩
  have hid : (fun r => k' r.id) ∘ f = fun r => k' r.id := funext fun r => congrArg k' (hf r).id
  rw [e', e, List.filter_map, hid, List.map_map, List.filter_filter]
  congr 2
  exact funext fun r => Bool.and_comm ..

theorem State.narrows.congr {k k' : Nat → Bool} (h : s.narrows t k) (hk : ∀ i, k i = k' i) : s.narrows t k' := funext hk ▸ h

theorem State.relabels.of_descs (h : t.disp.descs = s.disp.descs) : s.relabels t :=
  ⟨id, fun r => .refl r, by simpa using h⟩

theorem State.relabels.of_disp (h : t.disp = s.disp) : s.relabels t := .of_descs (by rw [h])

theorem State.relabels.refl (s : State) : s.relabels s := .of_disp rfl

theorem State.relabels.trans (h : s.relabels t) (k : t.relabels u) : s.relabels u := State.narrows.trans h k

theorem State.relabels.narrows {k : Nat → Bool} (h : s.relabels t) (h' : t.narrows u k) : s.narrows u k :=
  (State.narrows.trans h h').congr fun _ => Bool.true_and _

theorem State.narrows.relabels {k : Nat → Bool} (h : s.narrows t k) (h' : t.relabels u) : s.narrows u k :=
  (State.narrows.trans h h').congr fun _ => Bool.and_true _

theorem State.relabels.fold {α : Type} {f : State → α → State} (h : ∀ (s : State) (a : α), s.relabels (f s a)) (as : List α) (s : State) :
    s.relabels (as.foldl f s) := by
  induction as generalizing s with
  | nil => exact .refl s
  | cons a r ih => exact (h s a).trans (ih _)

theorem State.relabels.ite {p : Prop} [Decidable p] (h : s.relabels t) (k : s.relabels u) : s.relabels (if p then t else u) := by
  split <;> assumption

/-- What stands for a record afterwards. -/
theorem State.narrows.mem {k : Nat → Bool} (h : s.narrows t k) {q : DRec} (hq : q ∈ t.disp.descs) :
    k q.id = true ∧ ∃ r ∈ s.disp.descs, r.sameDesc q := by
  obtain ⟨f, hf, e⟩ := h
  rw [e] at hq
  obtain ⟨r, hr, rfl⟩ := List.mem_map.1 hq
  obtain ⟨hr, hk⟩ := List.mem_filter.1 hr
  exact ⟨(hf r).id ▸ hk, r, hr, hf r⟩

theorem find_narrowed (l : List DRec) (k : Nat → Bool) (f : DRec → DRec) (hf : ∀ r, (f r).id = r.id) (e : Nat) :
    ((l.filter fun r => k r.id).map f).find? (fun r => r.id == e) = if k e then (l.find? fun r => r.id == e).map f else none := by
  have hid : (fun r : DRec => r.id == e) ∘ f = fun r => r.id == e := funext fun r => by rw [Function.comp_apply, hf]
  rw [List.find?_map, hid, List.find?_filter]
  by_cases he : k e = true
  · rw [if_pos he]
    congr 2
    exact funext fun r => by
      by_cases hr : r.id = e
      · simp [hr, he]
      · simp [hr]
  · rw [if_neg he]
    have hnone : l.find? (fun r => k r.id && r.id == e) = none := List.find?_eq_none.2 fun r _ hr => by
      obtain ⟨h1, h2⟩ := (Bool.and_eq_true _ _).mp hr
      exact he (beq_iff_eq.1 h2 ▸ h1)
    simpa using hnone

/-- Where a record of descriptor e stands afterwards. -/
theorem State.narrows.desc {k : Nat → Bool} (h : s.narrows t k) (e : Nat) :
    (k e = false → t.desc e = none) ∧ (s.desc e = none → t.desc e = none)
    ∧ (k e = true → ∀ r, s.desc e = some r → ∃ q, t.desc e = some q ∧ r.sameDesc q) := by
  obtain ⟨f, hf, hd⟩ := h
  have hfind := find_narrowed s.disp.descs k f (fun r => (hf r).id) e
  rw [← hd] at hfind
  refine ⟨fun hk => ?_, fun hs => ?_, fun hk r hr => ⟨f r, ?_, hf r⟩⟩
  · exact hfind.trans (if_neg (by simp [hk]))
  · refine hfind.trans ?_
    rw [show (s.disp.descs.find? fun r => r.id == e) = none from hs, Option.map_none, ite_self]
  · refine hfind.trans ?_
    rw [if_pos hk, show (s.disp.descs.find? fun r => r.id == e) = some r from hr, Option.map_some]

theorem State.narrows.gone {k : Nat → Bool} {e : Nat} (h : s.narrows t k) (hk : k e = false) : t.desc e = none := (h.desc e).1 hk

theorem State.narrows.none {k : Nat → Bool} {e : Nat} (h : s.narrows t k) (hs : s.desc e = none) : t.desc e = none := (h.desc e).2.1 hs

/-- The bytes of a record that stays. -/
theorem State.narrows.map_bytes {k : Nat → Bool} {e : Nat} (h : s.narrows t k) (hk : k e = true) :
    (t.desc e).map DRec.bytes = (s.desc e).map DRec.bytes := by
  cases hs : s.desc e with
  | none => rw [h.none hs]
  | some r =>
    obtain ⟨q, hq, hr⟩ := (h.desc e).2.2 hk r hs
    rw [hq, Option.map_some, Option.map_some, hr.bytes]

theorem State.relabels.map_bytes (h : s.relabels t) (e : Nat) : (t.desc e).map DRec.bytes = (s.desc e).map DRec.bytes :=
  State.narrows.map_bytes h rfl

end

variable (s : State)

/-- The record of a descriptor that is changed. -/
theorem desc_modDesc_some {d : Nat} {r : DRec} {f : DRec → DRec} (h : s.desc d = some r) (hf : ∀ r, (f r).id = r.id := by exact fun _ => rfl) :
    (s.modDesc d f).desc d = some (f r) := by
  rw [s.desc_modDesc d f hf, h, Option.map_some]

theorem relabels_modDesc (d : Nat) (f : DRec → DRec) (hf : ∀ r : DRec, r.sameDesc (f r)) : s.relabels (s.modDesc d f) := by
  refine ⟨fun r => if r.id = d then f r else r, fun r => ?_, by simp [State.modDesc]⟩
  dsimp only
  split
  · exact hf r
  · exact .refl r

theorem relabels_takeUp (k : Nat) : s.relabels (s.takeUp k) := by
  rcases s.takeUp_is k with h | ⟨d, h⟩
  · rw [h]; exact .refl s
  · rw [h]; exact relabels_modDesc s d _ fun _ => ⟨rfl, rfl, rfl, rfl, rfl⟩

theorem relabels_unwait (d : Nat) : s.relabels (s.unwait d) := by
  unfold State.unwait
  split
  · exact .refl s
  · refine State.relabels.trans ?_ (relabels_takeUp ..)
    exact relabels_modDesc s d _ fun _ => ⟨rfl, rfl, rfl, rfl, rfl⟩

theorem relabels_releaseTrans (d : Nat) : s.relabels (s.releaseTrans d) := by
  unfold State.releaseTrans
  split
  · exact .refl s
  · rename_i r _
    have hslots : s.relabels (r.trans.foldl State.releaseSlot s) :=
      .fold (f := State.releaseSlot) (fun _ _ => .of_disp rfl) _ s
    refine hslots.trans ?_
    exact relabels_modDesc _ d _ fun _ => ⟨rfl, rfl, rfl, rfl, rfl⟩

theorem relabels_zeroOut (d : Nat) : s.relabels (s.zeroOut d) := by
  unfold State.zeroOut
  split
  · exact .refl s
  · rename_i r _
    have hwritten : s.relabels (s.writeExtents r r.written (zeros (extentTotal r.written))) := .of_disp (keeps_writeExtents ..).disp_eq
    refine hwritten.trans ?_
    exact relabels_modDesc _ d _ fun _ => ⟨rfl, rfl, rfl, rfl, rfl⟩

/-- A descriptor's removal takes its own records and no other. -/
theorem narrows_removeDesc (d : Nat) (ab : Bool) : s.narrows (s.removeDesc d ab) (· != d) := by
  unfold State.removeDesc
  split
  · rename_i h
    refine ⟨id, fun r => .refl r, ?_⟩
    rw [List.map_id, List.filter_eq_self.2]
    intro r hr
    simpa using List.find?_eq_none.1 h r hr
  · have hheld : s.relabels (((s.closeHeld d ab).releaseTrans d).dropFwd d) :=
      (State.relabels.of_disp (keeps_closeHeld s d ab).disp_eq).trans ((relabels_releaseTrans _ d).trans (.of_disp rfl))
    refine State.relabels.narrows hheld (State.narrows.relabels ⟨id, fun r => .refl r, ?_⟩ (relabels_takeUp _ _))
    simp

theorem narrows_abandonDesc (d : Nat) : s.narrows (s.abandonDesc d) (· != d) := (relabels_zeroOut s d).narrows (narrows_removeDesc _ d true)

theorem narrows_abandonDescs (ds : List Nat) : ∀ s : State, s.narrows (ds.foldl State.abandonDesc s) fun i => !ds.contains i := by
  induction ds with
  | nil => exact fun s => (State.relabels.refl s).congr fun _ => rfl
  | cons d r ih =>
    intro s
    refine ((narrows_abandonDesc s d).trans (ih _)).congr fun i => ?_
    rw [List.contains_cons, Bool.not_or]
    rfl

end Sys2Proof.Machine
end

section
/-! The mailbox's refusals and PAGING_ENABLE (02 R27, R31, R32), the poll of a ring (R47, R48) and its fault (R34). -/

namespace Sys2Proof.Machine

variable (s : State)

/-! ### The mailbox (02 R27, R31) -/

theorem mailbox_busy {n code : Nat} {run : State → State} (h : (s.func n).mboxRun.isSome = true) :
    s.mailbox n code run = s.setFunc n { s.func n with mboxBusy := true } := by
  unfold State.mailbox
  rw [if_pos h]

theorem mailbox_notReady {n code : Nat} {run : State → State} (h0 : (s.func n).mboxRun = none) (h1 : (s.func n).fnReady = false) :
    s.mailbox n code run = s := by
  unfold State.mailbox
  rw [if_neg (by simp [h0]), if_pos (by simp [h1])]

theorem mailbox_noPartition {n code : Nat} {run : State → State} (h0 : (s.func n).mboxRun = none) (h1 : (s.func n).fnReady = true)
    (h2 : s.partLive n = false) : s.mailbox n code run = s.mboxEnd n code stAccess := by
  unfold State.mailbox
  rw [if_neg (by simp [h0]), if_neg (by simp [h1]), if_pos (by simp [h2])]

/-- What a mailbox command leaves where it does not run. -/
theorem mailbox_refuses (n code : Nat) (run : State → State) {c : Instr} (hc : exec c s = .next (s.settled (s.mailbox n code run))) :
    let f := s.func n
    (f.mboxRun.isSome = true → ∃ t, exec c s = .next t ∧ s.keeps t [.host] ∧ t.host.mem = s.host.mem ∧ t.host.posted = s.host.posted
        ∧ t.func n = { f with mboxBusy := true } ∧ ∀ m, m ≠ n → t.func m = s.func m)
    ∧ (f.mboxRun = none → f.fnReady = false → ∃ t, exec c s = .next t ∧ s.sameBut t)
    ∧ (f.mboxRun = none → f.fnReady = true → s.partLive n = false →
        ∃ t, exec c s = .next t ∧ s.keeps t [.host] ∧ (t.func n).mboxResult = BitVec.ofNat 32 (at' code 16 + stAccess.toNat)
          ∧ (∀ q, t.ring n q = s.ring n q) ∧ ∀ m, m ≠ n → t.func m = s.func m) := by
  intro f
  refine ⟨fun h => ⟨_, hc, ?_⟩, fun h0 h1 => ⟨_, hc, ?_⟩, fun h0 h1 h2 => ⟨_, hc, ?_⟩⟩
  · rw [mailbox_busy s h]
    exact ⟨(keeps_host s _ (by decide)).settled, rfl, rfl, s.func_setFunc .., fun m hm => s.func_setFunc_ne _ hm⟩
  · rw [mailbox_notReady s h0 h1]
    exact s.sameBut_settled
  · rw [mailbox_noPartition s h0 h1 h2]
    have e := (MboxEnded.of_mboxEnd s n 0 code stAccess).settled
    exact ⟨e.keeps, e.result, fun q => s.mboxEnd_ring .., e.others⟩

/-- Settles O13: both commands go through the mailbox, which refuses them alike. -/
theorem mailboxRefuses : Obligations.MailboxRefuses := by
  intro fn r s f c hc
  simp only [List.mem_cons, List.not_mem_nil, or_false] at hc
  rcases hc with rfl | rfl
  · exact mailbox_refuses s fn.val 1 _ rfl
  · exact mailbox_refuses s fn.val 2 _ rfl

/-! ### PAGING_ENABLE (02 R32) -/

/-- The three checks on the paging pair, as 02 R32 lists them. -/
theorem Vault.formOk_iff (v : Vault) :
    v.formOk = true ↔ v.pgEnabled = false ∧ 6 ≤ v.pgLog2.toNat ∧ v.pgLog2.toNat ≤ 12 ∧ 4096 ∣ v.prqBase.toNat ∧ 4096 ∣ v.psqBase.toNat
      ∧ 4096 ∣ v.pbufBase.toNat ∧ 64 ∣ v.psqPi.toNat ∧ 64 ∣ v.prqCi.toNat ∧ 2 ^ v.pgLog2.toNat ≤ v.pbufCount.toNat
      ∧ v.pbufCount.toNat ≤ 4096 := by
  simp only [Vault.formOk, Bool.and_eq_true, Bool.not_eq_true', decide_eq_true_eq, beq_iff_eq, Nat.dvd_iff_mod_eq_zero, and_assoc]
  rfl

theorem rangesPass_vault_iff (v : Vault) :
    s.rangesPass 0 v.ranges = true ↔ s.hostPasses 0 false v.prqBase.toNat (32 * 2 ^ v.pgLog2.toNat) true = true
      ∧ s.hostPasses 0 false v.psqBase.toNat (16 * 2 ^ v.pgLog2.toNat) false = true
      ∧ s.hostPasses 0 false v.psqPi.toNat 4 false = true ∧ s.hostPasses 0 false v.prqCi.toNat 4 false = true
      ∧ s.hostPasses 0 false v.pbufBase.toNat (4096 * v.pbufCount.toNat) false = true
      ∧ s.hostPasses 0 false v.pbufBase.toNat (4096 * v.pbufCount.toNat) true = true := by
  simp only [State.rangesPass, Vault.ranges, Vault.ringLen, List.all_cons, List.all_nil, Bool.and_true, Bool.and_eq_true]

/-- The paging pair as PAGING_ENABLE starts it. -/
def State.pagingStarted (s : State) : State :=
  s.setVault { s.vault with pgEnabled := true, prqTail := 0, prqCiSeen := 0, psqHead := 0, psqPiSeen := 0, psInterval := 200, recommit := false }

theorem enablePaging_virtual {n : Nat} (h : n ≠ 0) : s.enablePaging n = s.mboxEnd n 3 stAccess := by
  unfold State.enablePaging
  rw [if_pos h]

theorem enablePaging_badForm (h : ¬s.vault.formOk = true) : s.enablePaging 0 = s.mboxEnd 0 3 stBad := by
  unfold State.enablePaging
  rw [if_neg (by simp), if_pos (by simpa using h)]

theorem enablePaging_outside (hf : s.vault.formOk = true) (h : ¬s.rangesPass 0 s.vault.ranges = true) :
    s.enablePaging 0 = s.mboxEnd 0 3 stAccess := by
  unfold State.enablePaging
  rw [if_neg (by simp), if_neg (by simp [hf]), if_pos (by simpa using h)]

/-- With form and windows passed, the index words decide. -/
theorem enablePaging_inside (hf : s.vault.formOk = true) (h : s.rangesPass 0 s.vault.ranges = true) :
    s.enablePaging 0
      = if leNat (s.hostGet s.vault.psqPi.toNat 4) = 0 ∧ leNat (s.hostGet s.vault.prqCi.toNat 4) = 0 then
          (if s.vault.recommit then (s.pagingStarted.mboxEnd 0 3 stDone).startCommit else s.pagingStarted.mboxEnd 0 3 stDone).vaultGoes
        else s.mboxEnd 0 3 stBad := by
  obtain ⟨-, -, hpi, hci, -⟩ := (rangesPass_vault_iff s _).1 h
  unfold State.enablePaging
  rw [if_neg (by simp), if_neg (by simp [hf]), if_neg (by simp [h])]
  simp only [s.wordsZero_pass hpi hci]
  by_cases hz : leNat (s.hostGet s.vault.psqPi.toNat 4) = 0 ∧ leNat (s.hostGet s.vault.prqCi.toNat 4) = 0
  · rw [if_pos hz, if_pos hz]; rfl
  · rw [if_neg hz, if_neg hz]

/-- What the end of PAGING_ENABLE of function n leaves in x. -/
structure PagingEnds (s x : State) (n : Nat) (w : Word32) : Prop where
  keeps : s.keeps x [.host]
  result : (x.func n).mboxResult = w
  run : (x.func n).mboxRun = none
  done : (x.func n).evtStat.getLsbD 0 = true
  mem : x.host.mem = s.host.mem
  rings : ∀ m q, x.ring m q = s.ring m q

theorem PagingEnds.of_mboxEnd (n : Nat) (st : Word16) : PagingEnds s (s.mboxEnd n 3 st) n (BitVec.ofNat 32 (at' 3 16 + st.toNat)) :=
  let e := MboxEnded.of_mboxEnd s n 0 3 st
  ⟨e.keeps, e.result, e.run, e.done, e.mem, fun m q => s.mboxEnd_ring ..⟩

theorem exec_pagingEnable (fn : Fn) (h0 : (s.func fn.val).mboxRun = none) (h1 : (s.func fn.val).fnReady = true)
    (h2 : s.partLive fn.val = true) {x : State} (hx : s.enablePaging fn.val = x) : becomesThen (.pagingEnable fn) s x :=
  congrArg (answer s) (congrArg State.after ((s.mailbox_runs h0 h1 h2).trans hx))

/-- Settles O14: the first check of `enablePaging` that fails decides. -/
theorem pagingEnabled : Obligations.PagingEnabled := by
  intro fn s h0 h1 h2 v n form inside zero ends
  have ended : ∀ (st : Word16), s.enablePaging fn.val = s.mboxEnd fn.val 3 st →
      ∃ x, becomesThen (.pagingEnable fn) s x ∧ s.keeps x [.host] ∧ ends x (BitVec.ofNat 32 (at' 3 16 + st.toNat)) := fun st h =>
    let e := PagingEnds.of_mboxEnd s fn.val st
    ⟨_, exec_pagingEnable s fn h0 h1 h2 h, e.keeps, e.result, e.run, e.done, e.mem, e.rings⟩
  have hform : v.formOk = true ↔ form := v.formOk_iff
  have hinside : s.rangesPass 0 v.ranges = true ↔ inside := rangesPass_vault_iff s v
  refine ⟨fun hn => ended stAccess (enablePaging_virtual s hn), fun hn hf => ended stBad ?_, fun hn hf hi => ended stAccess ?_,
    fun hn hf hi hz => ended stBad ?_, fun hn hf hi hz => ?_⟩
  · rw [hn, enablePaging_badForm s (mt hform.1 hf)]
  · rw [hn, enablePaging_outside s (hform.2 hf) (mt hinside.1 hi)]
  · rw [hn, enablePaging_inside s (hform.2 hf) (hinside.2 hi), if_neg hz]
  · have hrun : s.enablePaging fn.val = _ := (congrArg s.enablePaging hn).trans
      ((enablePaging_inside s (hform.2 hf) (hinside.2 hi)).trans (if_pos hz))
    obtain ⟨f, p, hh⟩ := s.pagingStarted.mboxEnd_host 0 3 stDone
    have e := PagingEnds.of_mboxEnd s.pagingStarted 0 stDone
    rw [← hn] at hh hrun e
    refine ⟨s.pagingStarted.mboxEnd fn.val 3 stDone, exec_pagingEnable s fn h0 h1 h2 hrun, ?_,
      ⟨e.result, e.run, e.done, e.mem, e.rings⟩, by rw [hh]; rfl⟩
    have hv : s.keeps s.pagingStarted [.vault] := keeps_vault s _ (by decide)
    exact hv.widen.trans e.keeps.widen

/-! ### The poll of a ring (02 R47, R48) -/

/-- From s to t only ring r of function n has changed, to y, with the function's flags oc and ci of overcommitted and invalid
consumer indexes. -/
structure RingLeft (s t : State) (n r : Nat) (y : Ring) (oc ci : Bool) : Prop where
  keeps : s.keeps t [.host]
  mem : t.host.mem = s.host.mem
  posted : t.host.posted = s.host.posted
  ring : t.ring n r = y
  others : ∀ m q, ¬(m = n ∧ q = r) → t.ring m q = s.ring m q
  overcommit : (t.func n).overcommit = oc
  ciInvalid : (t.func n).ciInvalid = ci

theorem RingLeft.refl (n r : Nat) : RingLeft s s n r (s.ring n r) (s.func n).overcommit (s.func n).ciInvalid :=
  ⟨.refl s _, rfl, rfl, rfl, fun _ _ _ => rfl, rfl, rfl⟩

section
variable {s} {t : State} {n r : Nat} {y z : Ring} {oc ci : Bool}

theorem RingLeft.setRing (h : RingLeft s t n r y oc ci) (z : Ring) : RingLeft s (t.setRing n r z) n r z oc ci := by
  refine ⟨h.keeps.trans (keeps_host t _ (by decide)), h.mem, h.posted, t.ring_setRing .., fun m q hmq => ?_, ?_, ?_⟩
  · rw [t.ring_setRing_ne _ hmq, h.others m q hmq]
  · exact (congrArg Func.overcommit (t.func_setFunc n _)).trans h.overcommit
  · exact (congrArg Func.ciInvalid (t.func_setFunc n _)).trans h.ciInvalid

theorem ringError_func (t : State) (n r : Nat) (f : Func → Func) :
    (t.ringError n r f).func n = { f (t.func n) with ringMask := (f (t.func n)).ringMask ||| BitVec.ofNat 8 (2 ^ r) } := t.func_setFunc ..

theorem ringError_ring (t : State) (n r : Nat) (f : Func → Func) {m q : Nat} (hf : (f (t.func n)).rings = (t.func n).rings) :
    (t.ringError n r f).ring m q = t.ring m q :=
  t.ring_setFunc (f := { f (t.func n) with ringMask := (f (t.func n)).ringMask ||| BitVec.ofNat 8 (2 ^ r) }) hf m q

theorem RingLeft.ringError (h : RingLeft s t n r y oc ci) {f : Func → Func} (hf : (f (t.func n)).rings = (t.func n).rings) :
    RingLeft s (t.ringError n r f) n r y (f (t.func n)).overcommit (f (t.func n)).ciInvalid := by
  have hr : ∀ m q, (t.ringError n r f).ring m q = t.ring m q := fun m q => ringError_ring t n r f hf
  refine ⟨h.keeps.trans (keeps_host t _ (by decide)), h.mem, h.posted, (hr n r).trans h.ring, fun m q hmq => (hr m q).trans (h.others m q hmq), ?_, ?_⟩
  · rw [ringError_func]
  · rw [ringError_func]

theorem RingLeft.hostPasses (h : RingLeft s t n r y oc ci) (p a len : Nat) (w : Bool) :
    t.hostPasses p false a len w = s.hostPasses p false a len w := by
  unfold State.hostPasses State.windows State.gateOf
  rw [h.keeps.gate_eq]

theorem RingLeft.hostGet (h : RingLeft s t n r y oc ci) (a len : Nat) : t.hostGet a len = s.hostGet a len := by
  unfold State.hostGet
  rw [h.mem]

/-- A consumer index that has been read is taken where it has not moved backwards or past CQ_TAIL. -/
theorem RingLeft.readConsumer (h : RingLeft s t n r y oc ci) (hp : s.hostPasses n false y.ciAddr.toNat 4 false = true) :
    let c := BitVec.ofNat 32 (leNat (s.hostGet y.ciAddr.toNat 4))
    let taken := (c - y.ciSeen).toNat ≤ (y.cqTail - y.ciSeen).toNat
    RingLeft s (t.readConsumer n r) n r { y with ciSeen := if taken then c else y.ciSeen } oc (ci || !decide taken) := by
  intro c taken
  have hrun : t.readConsumer n r = if (y.cqTail - y.ciSeen).toNat < (c - y.ciSeen).toNat
      then t.ringError n r fun f => { f with ciInvalid := true } else t.setRing n r { y with ciSeen := c } := by
    unfold State.readConsumer
    simp only [h.ring, t.readWord_pass ((h.hostPasses ..).trans hp), h.hostGet]
    rfl
  rw [hrun]
  by_cases ht : taken
  · rw [if_neg (Nat.not_lt.2 ht), if_pos ht]
    simpa [ht] using h.setRing { y with ciSeen := c }
  · rw [if_pos (Nat.lt_of_not_le ht), if_neg ht]
    have herr := h.ringError (f := fun f => { f with ciInvalid := true }) rfl
    simpa [ht, h.overcommit] using herr

/-- The end of flow control: the ring goes on where its gap fits, and stops with OVERCOMMIT where it does not. -/
theorem RingLeft.gap (h : RingLeft s t n r y oc ci) :
    RingLeft s (if y.gapFits then t.setRing n r { y with stopped := false }
        else (t.setRing n r { y with stopped := true }).ringError n r fun f => { f with overcommit := true }) n r
      { y with stopped := !y.gapFits } (oc || !y.gapFits) ci := by
  by_cases hg : y.gapFits = true
  · simpa [hg] using h.setRing { y with stopped := false }
  · have hs := h.setRing { y with stopped := true }
    have herr := hs.ringError (f := fun f => { f with overcommit := true }) rfl
    simpa [hg, hs.ciInvalid] using herr

/-- Flow control of a ring without a fault. -/
theorem RingLeft.flowControl (h : RingLeft s t n r y oc ci) (hy : y.fault = false) :
    (y.gapFits = true → RingLeft s (t.flowControl n r) n r { y with stopped := false } oc ci)
    ∧ (y.gapFits = false → s.hostPasses n false y.ciAddr.toNat 4 false = true →
        let c := BitVec.ofNat 32 (leNat (s.hostGet y.ciAddr.toNat 4))
        let taken := (c - y.ciSeen).toNat ≤ (y.cqTail - y.ciSeen).toNat
        let z := { y with ciSeen := if taken then c else y.ciSeen }
        RingLeft s (t.flowControl n r) n r { z with stopped := !z.gapFits } (oc || !z.gapFits) (ci || !decide taken)) := by
  refine ⟨fun hg => ?_, fun hg hp => ?_⟩
  · unfold State.flowControl
    rw [h.ring, if_pos hg]
    exact h.setRing _
  · have hc := h.readConsumer hp
    unfold State.flowControl
    rw [h.ring, if_neg (by simp [hg])]
    simp only [hc.ring]
    rw [if_neg (by simp [hy])]
    exact hc.gap

end

/-- A ring is polled while it runs and has no descriptor left to read, or flow control holds it. -/
def Ring.isPolled (x : Ring) : Prop :=
  x.enabled = true ∧ x.fault = false ∧ x.draining = false ∧ (x.piSeen = x.sqHead ∨ x.stopped = true)

/-- A ring whose producer index has been read. -/
def Ring.polledAt (x : Ring) (pi : Word32) : Ring :=
  { x with piSeen := pi, interval := if pi = x.piSeen then min x.pollCap (2 * x.interval) else 200 }

theorem pollRing_idle {n r : Nat} (h : ¬(s.ring n r).isPolled) : s.pollRing n r = s := by
  unfold State.pollRing
  rw [if_pos]
  unfold Ring.isPolled at h
  by_contra hc
  simp only [Bool.or_eq_true, Bool.not_eq_true', Bool.and_eq_true, bne_iff_ne, ne_eq, not_or, not_and_or, Bool.not_eq_false,
    Bool.not_eq_true, not_not] at hc
  tauto

theorem Ring.isPolled_test {x : Ring} (h : x.isPolled) :
    ¬(!x.enabled || x.fault || x.draining || (x.piSeen != x.sqHead && !x.stopped)) = true := by
  obtain ⟨h1, h2, h3, h4⟩ := h
  rcases h4 with h4 | h4 <;> simp [h1, h2, h3, h4]

theorem pollRing_reads {n r : Nat} (h : (s.ring n r).isPolled) (hp : s.hostPasses n false (s.ring n r).piAddr.toNat 4 false = true) :
    s.pollRing n r
      = (s.setRing n r ((s.ring n r).polledAt (BitVec.ofNat 32 (leNat (s.hostGet (s.ring n r).piAddr.toNat 4))))).flowControl n r := by
  unfold State.pollRing
  rw [if_neg (Ring.isPolled_test h)]
  simp only [s.readWord_pass hp]
  rfl

theorem pollRing_refused {n r : Nat} (h : (s.ring n r).isPolled) (hp : s.hostPasses n false (s.ring n r).piAddr.toNat 4 false = false) :
    ∃ f g, s.pollRing n r = (s.noteRefusal 0 ringEngineId f false g n).ringFault n r := by
  obtain ⟨f, g, hc⟩ := s.checkHost_refuse ringEngineId n false _ 4 false hp
  refine ⟨f, g, ?_⟩
  unfold State.pollRing State.readWord
  rw [if_neg (Ring.isPolled_test h)]
  simp only [hc]
  rfl

/-- The state after the host's own stores. -/
def State.stored (s : State) (w : List (Nat × Byte)) : State := { s with host := { s.host with mem := memStores s.host.mem w } }

theorem exec_ringPoll_ring {w : List (Nat × Byte)} (hw : storesWf w = true) (fn : Fn) (r : RingNo) :
    exec (.ringPoll (.ring fn r) w) s = .next (s.settled ((s.stored w).pollRing fn.val r.val)) :=
  (exec_ringPoll s (.ring fn r) w).trans (withStores_of_wf s hw _)

/-- Settles O15: `pollRing` on the state with the stores made; `RingLeft.flowControl` says how flow control ends. -/
theorem ringPolled : Obligations.RingPolled := by
  intro fn r w s hw m x at' pi cap polled y
  have hk : s.keeps (s.stored w) [.host] := keeps_host s _ (by decide)
  have hstart := (RingLeft.refl (s.stored w) fn.val r.val).setRing (x.polledAt pi)
  refine ⟨_, exec_ringPoll_ring s hw fn r, fun hn => ?_, fun hd hp hfit => ?_, fun hd hp hover hci => ?_⟩
  · have hidle : (s.stored w).pollRing fn.val r.val = s.stored w := pollRing_idle _ hn
    rw [hidle]
    exact ⟨hk.settled, rfl, rfl, rfl⟩
  · rw [pollRing_reads (s.stored w) hd hp]
    have e := (hstart.flowControl hd.2.1).1 (decide_eq_true hfit)
    exact ⟨(hk.trans e.keeps).settled, e.mem, e.ring, e.others, e.posted, e.overcommit⟩
  · rw [pollRing_reads (s.stored w) hd hp]
    have e := (hstart.flowControl hd.2.1).2 (decide_eq_false (Nat.not_le.2 hover)) hci
    exact ⟨(hk.trans e.keeps).settled, e.mem, e.others, e.posted, e.ring, e.ciInvalid, e.overcommit⟩

/-! ### A ring's fault (02 R34) -/

/-- A gate that keeps its first fault, or latches one, has a fault to show. -/
theorem faultValid_latch {g g' : Gate} (h : g'.faultValid = true) : (if g.faultValid then g else g').faultValid = true := by
  split
  · assumption
  · exact h

theorem faultValid_noteRefusal (g m a : Nat) (w : Bool) (ans : GateAns) (p : Nat) :
    ((s.noteRefusal g m a w ans p).gateOf g).faultValid = true := by
  unfold State.noteRefusal
  rw [s.gateOf_setGate]
  exact faultValid_latch rfl

theorem faultValid_checkHost (m p : Nat) (old : Bool) (a n : Nat) (w : Bool) (h : (s.gateOf 0).faultValid = true) :
    ((s.checkHost m p old a n w).1.gateOf 0).faultValid = true := by
  unfold State.checkHost
  split
  · exact h
  · exact faultValid_noteRefusal ..

theorem writeExtents_cons (r : DRec) (e : Nat × Nat) (es : List (Nat × Nat)) (b : Bytes) :
    s.writeExtents r (e :: es) b
      = (if (s.checkHost r.master r.fn r.oldWin e.1 e.2 true).2
          then (s.checkHost r.master r.fn r.oldWin e.1 e.2 true).1.postWrite r.fn e.1 (b.take e.2)
          else (s.checkHost r.master r.fn r.oldWin e.1 e.2 true).1).writeExtents r es (b.drop e.2) := rfl

theorem faultValid_writeExtents (r : DRec) (es : List (Nat × Nat)) :
    ∀ (s : State) (b : Bytes), (s.gateOf 0).faultValid = true → ((s.writeExtents r es b).gateOf 0).faultValid = true := by
  induction es with
  | nil => exact fun s b h => h
  | cons e es ih =>
    intro s b h
    have hc := faultValid_checkHost s r.master r.fn r.oldWin e.1 e.2 true h
    rw [writeExtents_cons]
    refine ih _ _ ?_
    split
    · exact hc
    · exact hc

theorem faultValid_of_keeps {t : State} {l : List Area} (hk : s.keeps t l) (hl : .gate ∉ l) (h : (s.gateOf 0).faultValid = true) :
    (t.gateOf 0).faultValid = true := by
  rw [State.gateOf, hk.gate_eq hl]
  exact h

theorem faultValid_abandonDesc (d : Nat) (h : (s.gateOf 0).faultValid = true) : ((s.abandonDesc d).gateOf 0).faultValid = true := by
  refine faultValid_of_keeps _ (keeps_removeDesc (s.zeroOut d) d true) (by decide) ?_
  unfold State.zeroOut
  split
  · exact h
  · exact faultValid_writeExtents _ _ s _ h

theorem faultValid_abandonDescs (ds : List Nat) :
    ∀ s : State, (s.gateOf 0).faultValid = true → ((ds.foldl State.abandonDesc s).gateOf 0).faultValid = true := by
  induction ds with
  | nil => exact fun s h => h
  | cons d r ih => exact fun s h => ih _ (faultValid_abandonDesc s d h)

theorem abandonDescs_funcs (ds : List Nat) : ∀ s : State, (ds.foldl State.abandonDesc s).host.funcs = s.host.funcs := by
  induction ds with
  | nil => exact fun s => rfl
  | cons d r ih => exact fun s => (ih _).trans (abandonDesc_funcs s d)

/-- The ring is marked in FAULT and the function told of it, before its descriptors go. -/
def State.ringFaulted (s : State) (n q : Nat) : State :=
  ((s.setRing n q { s.ring n q with fault := true }).ringError n q fun f => { f with ringFault := true }).raiseEvt n evRingFault

theorem ringFault_eq (n q : Nat) :
    s.ringFault n q
      = let v := ((s.ringFaulted n q).ringDescs n q).foldl State.abandonDesc (s.ringFaulted n q)
        v.setRing n q { v.ring n q with outstanding := 0 } := rfl

theorem ringFaulted_ring (n q : Nat) : (s.ringFaulted n q).ring n q = { s.ring n q with fault := true } := by
  unfold State.ringFaulted
  rw [State.raiseEvt_ring, ringError_ring _ _ _ _ rfl, State.ring_setRing]

theorem ringFaulted_ring_ne {n q m p : Nat} (h : ¬(m = n ∧ p = q)) : (s.ringFaulted n q).ring m p = s.ring m p := by
  unfold State.ringFaulted
  rw [State.raiseEvt_ring, ringError_ring _ _ _ _ rfl, State.ring_setRing_ne _ _ h]

theorem ringFaulted_func {n q : Nat} (hq : q < 8) :
    ((s.ringFaulted n q).func n).ringFault = true ∧ ((s.ringFaulted n q).func n).ringMask.getLsbD q = true
    ∧ ((s.ringFaulted n q).func n).evtStat.getLsbD evRingFault = true := by
  obtain ⟨p, hp⟩ := State.raiseEvt_func ((s.setRing n q { s.ring n q with fault := true }).ringError n q fun f => { f with ringFault := true })
    n evRingFault
  unfold State.ringFaulted
  rw [hp, ringError_func]
  refine ⟨rfl, ?_, ?_⟩
  · exact (setFlag_getLsbD _ _ _ hq).trans (by simp)
  · exact (setFlag_getLsbD _ _ _ (by decide)).trans (by simp)

theorem ringFaulted_keeps (n q : Nat) : s.keeps (s.ringFaulted n q) [.host] := by
  obtain ⟨f, p, h⟩ := State.raiseEvt_host ((s.setRing n q { s.ring n q with fault := true }).ringError n q fun f => { f with ringFault := true })
    n evRingFault
  unfold State.ringFaulted
  rw [h]
  exact keeps_host s _ (by decide)

/-- The function behind a ring's fault: its flags as the fault raised them, its descriptors gone. -/
theorem ringFault_func (n q : Nat) (m : Nat) :
    ∃ g, ((s.ringFault n q).func m) = { (s.ringFaulted n q).func m with rings := g } := by
  rw [ringFault_eq]
  dsimp only
  have hv : ∀ m, State.func (((s.ringFaulted n q).ringDescs n q).foldl State.abandonDesc (s.ringFaulted n q)) m = (s.ringFaulted n q).func m :=
    fun m => by rw [State.func, State.func, abandonDescs_funcs]
  by_cases hm : m = n
  · subst hm
    exact ⟨_, by rw [State.setRing, State.func_setFunc, hv]⟩
  · exact ⟨_, by rw [State.func_setRing_ne _ _ _ hm, hv]⟩

theorem ringFault_ring (n q : Nat) : (s.ringFault n q).ring n q = { s.ring n q with fault := true, outstanding := 0 } := by
  rw [ringFault_eq]
  dsimp only
  rw [State.ring_setRing, State.ring, State.func, abandonDescs_funcs]
  show { (s.ringFaulted n q).ring n q with outstanding := 0 } = _
  rw [ringFaulted_ring]

theorem ringFault_ring_ne {n q m p : Nat} (h : ¬(m = n ∧ p = q)) : (s.ringFault n q).ring m p = s.ring m p := by
  rw [ringFault_eq]
  dsimp only
  rw [State.ring_setRing_ne _ _ h, State.ring, State.func, abandonDescs_funcs]
  exact ringFaulted_ring_ne s h

/-- A ring's fault takes the records of its descriptors and no other. -/
theorem narrows_ringFault (n q : Nat) : s.narrows (s.ringFault n q) fun i => !(s.ringDescs n q).contains i := by
  have hd : (s.ringFaulted n q).disp = s.disp := (ringFaulted_keeps s n q).disp_eq
  have hds : (s.ringFaulted n q).ringDescs n q = s.ringDescs n q := by rw [State.ringDescs, hd, State.ringDescs]
  have h := State.relabels.narrows (.of_disp hd) (narrows_abandonDescs ((s.ringFaulted n q).ringDescs n q) (s.ringFaulted n q))
  rw [hds] at h
  refine State.narrows.relabels h (.of_disp ?_)
  rw [ringFault_eq, hds]
  rfl

theorem mem_ringDescs {n q i : Nat} : i ∈ s.ringDescs n q ↔ ∃ d ∈ s.disp.descs, d.fn = n ∧ d.ring = q ∧ d.id = i := by
  simp only [State.ringDescs, List.mem_map, List.mem_filter, Bool.and_eq_true, beq_iff_eq, and_assoc]

/-- Settles O16: the refused poll faults the ring (`pollRing_refused`), and `narrows_ringFault` says which records go. -/
theorem ringFaults : Obligations.RingFaults := by
  intro fn r s x h1 h2 h3 h4 hp
  obtain ⟨f, g, hrun⟩ := pollRing_refused s ⟨h1, h2, h3, .inl h4⟩ hp
  let u := s.noteRefusal 0 ringEngineId f false g fn.val
  obtain ⟨rings, hf⟩ := ringFault_func u fn.val r.val fn.val
  obtain ⟨hflag, hmask, hevt⟩ := ringFaulted_func u (n := fn.val) r.isLt
  have hn := narrows_ringFault u fn.val r.val
  refine ⟨_, (exec_ringPoll_ring s (w := []) rfl fn r).trans (congrArg _ (congrArg _ hrun)), ?_, ?_, ?_, ?_, ?_, fun d hd => ?_, fun e he => ?_, ?_⟩
  · exact ringFault_ring u fn.val r.val
  · exact fun m p hmp => ringFault_ring_ne u hmp
  · rw [State.settled_func, hf]; exact hflag
  · rw [State.settled_func, hf]; exact hmask
  · rw [State.settled_func, hf]; exact hevt
  · obtain ⟨hk, q, hq, hqd⟩ := hn.mem hd
    rintro ⟨hfn, hring⟩
    refine absurd hk ?_
    simpa using (mem_ringDescs u).2 ⟨q, hq, hqd.fn ▸ hfn, hqd.ring ▸ hring, hqd.id.symm⟩
  · refine hn.map_bytes ?_
    have hno : e ∉ u.ringDescs fn.val r.val := fun hmem => by
      obtain ⟨d, hd, hfn, hring, hid⟩ := (mem_ringDescs u).1 hmem
      exact he d hd hid ⟨hfn, hring⟩
    simpa using hno
  · refine faultValid_abandonDescs _ (u.ringFaulted fn.val r.val) ?_
    exact faultValid_of_keeps u (ringFaulted_keeps u ..) (by decide) (faultValid_noteRefusal ..)

end Sys2Proof.Machine
end

section
/-! Moderation timers (02 R53), fences (R50), waiting transient slots (03 R68), descriptor reads (02 R49) and the dispatcher (01 R14). -/

namespace Sys2Proof.Machine

variable (s : State)

/-! ### Moderation timers (02 R53) -/

theorem func_setRing_msix (n r : Nat) (x : Ring) : ((s.setRing n r x).func n).msix = (s.func n).msix ∧ ((s.setRing n r x).func n).pba = (s.func n).pba := by
  have h : (s.setRing n r x).func n = { s.func n with rings := mset (s.func n).rings r x } := s.func_setFunc ..
  rw [h]
  exact ⟨rfl, rfl⟩

theorem sendVector_sent {n v : Nat} (hv : v < 10) :
    let e := mget (s.func n).msix v {}
    (e.mask = false → (s.sendVector n v).host.posted = s.host.posted ++ [.msix n v e.addr.toNat e.data]
      ∧ ((s.sendVector n v).func n).pba = (s.func n).pba)
    ∧ (e.mask = true → (s.sendVector n v).host.posted = s.host.posted ∧ mget ((s.sendVector n v).func n).pba v false = true) := by
  intro e
  unfold State.sendVector
  rw [if_neg (by omega)]
  refine ⟨fun he => ?_, fun he => ?_⟩
  · rw [if_neg (by rw [he]; decide)]
    exact ⟨rfl, rfl⟩
  · rw [if_pos he]
    exact ⟨rfl, by rw [s.func_setFunc]; exact mget_mset_self ..⟩

theorem Ring.irqOff_eq_false {x : Ring} (h : x.irqEn = true) (hv : x.vector.toNat < 10) : x.irqOff = false := by
  unfold Ring.irqOff
  rw [h, decide_eq_false (by omega)]
  rfl

theorem irqTimer_ring_idle {x : Ring} (h : x.irqEn = false ∨ 10 ≤ x.vector.toNat ∨ x.timer = 0 ∨ x.pend = 0) :
    ¬(!x.irqOff && x.timer != 0 && decide (0 < x.pend)) = true := by
  unfold Ring.irqOff
  rcases h with h | h | h | h <;> simp [h]

theorem signalRing_mem (n r : Nat) : s.keeps (s.signalRing n r) [.host] ∧ (s.signalRing n r).host.mem = s.host.mem := by
  obtain ⟨f, p, h⟩ := s.signalRing_host n r
  rw [h]
  exact ⟨keeps_host s _ (by decide), rfl⟩

theorem sendVector_mem (n v : Nat) : s.keeps (s.sendVector n v) [.host] ∧ (s.sendVector n v).host.mem = s.host.mem
    ∧ (s.sendVector n v).host.pgPend = s.host.pgPend := by
  obtain ⟨f, p, h⟩ := s.sendVector_host n v
  rw [h]
  exact ⟨keeps_host s _ (by decide), rfl, rfl⟩

theorem exec_irqTimer_ring_sends (fn : Fn) (r : RingNo) {x : Ring} (hx : s.ring fn.val r.val = x) (h1 : x.irqEn = true) (h2 : x.vector.toNat < 10)
    (h3 : x.timer ≠ 0) (h4 : 0 < x.pend) : exec (.irqTimer (.ring fn r)) s = .next (s.settled (s.signalRing fn.val r.val)) := by
  subst hx
  refine congrArg (answer s) (if_pos ?_)
  rw [Ring.irqOff_eq_false h1 h2, decide_eq_true h4]
  simpa using h3

theorem exec_irqTimer_ring_idle (fn : Fn) (r : RingNo) {x : Ring} (hx : s.ring fn.val r.val = x)
    (h : x.irqEn = false ∨ 10 ≤ x.vector.toNat ∨ x.timer = 0 ∨ x.pend = 0) : exec (.irqTimer (.ring fn r)) s = .next (s.settled s) := by
  subst hx
  exact congrArg (answer s) (if_neg (irqTimer_ring_idle h))

/-- Settles O20: a timer signals its ring or vector 9 where records pend, and `sendVector_sent` says what a vector does. -/
theorem timerInterrupts : Obligations.TimerInterrupts := by
  intro fn r s x sent
  refine ⟨?_, ?_⟩
  · by_cases hs : x.irqEn = true ∧ x.vector.toNat < 10 ∧ x.timer ≠ 0 ∧ 0 < x.pend
    · obtain ⟨h1, h2, h3, h4⟩ := hs
      obtain ⟨hk, hm⟩ := signalRing_mem s fn.val r.val
      refine ⟨_, exec_irqTimer_ring_sends s fn r rfl h1 h2 h3 h4, hk.settled, hm, fun n q hn => s.signalRing_ring_ne _ _ hn,
        fun _ _ _ _ => ⟨s.signalRing_ring .., ?_⟩, fun h => ?_⟩
      · obtain ⟨hmsix, hpba⟩ := func_setRing_msix s fn.val r.val { s.ring fn.val r.val with pend := 0 }
        have e := sendVector_sent (s.setRing fn.val r.val { s.ring fn.val r.val with pend := 0 }) (n := fn.val) h2
        rw [hmsix, hpba] at e
        exact e
      · rw [h1] at h
        rcases h with h | h | h | h
        · cases h
        · omega
        · exact absurd h h3
        · omega
    · have hidle : x.irqEn = false ∨ 10 ≤ x.vector.toNat ∨ x.timer = 0 ∨ x.pend = 0 := by
        rw [← Bool.not_eq_true]
        by_contra hc
        simp only [not_or, not_not] at hc
        exact hs ⟨hc.1, by omega, hc.2.2.1, by omega⟩
      exact ⟨_, exec_irqTimer_ring_idle s fn r rfl hidle, (State.keeps.refl s _).settled, rfl, fun _ _ _ => rfl,
        fun h1 h2 h3 h4 => absurd ⟨h1, h2, h3, h4⟩ hs, fun _ => s.sameBut_settled⟩
  · by_cases hs : s.host.pgTimer ≠ 0 ∧ 0 < s.host.pgPend
    · have hrun : exec (.irqTimer .paging) s = .next (s.settled ({ s with host := { s.host with pgPend := 0 } }.sendVector 0 9)) :=
        congrArg (answer s) (if_pos (by simpa using hs))
      let u : State := { s with host := { s.host with pgPend := 0 } }
      obtain ⟨hk, hm, hp⟩ := sendVector_mem u 0 9
      refine ⟨_, hrun, ((keeps_host s _ (by decide)).trans hk).settled, hm, fun n q => u.sendVector_ring ..,
        fun _ _ => ⟨hp, sendVector_sent u (n := 0) (by decide)⟩, fun h => absurd hs ?_⟩
      rintro ⟨h1, h2⟩
      rcases h with h | h
      · exact h1 h
      · omega
    · have hrun : exec (.irqTimer .paging) s = .next (s.settled s) := congrArg (answer s) (if_neg (by simpa [Nat.pos_iff_ne_zero] using hs))
      exact ⟨_, hrun, (State.keeps.refl s _).settled, rfl, fun _ _ => rfl, fun h1 h2 => absurd ⟨h1, h2⟩ hs, fun _ => s.sameBut_settled⟩

/-! ### Fences (02 R50) -/

theorem earlier_iff (r : DRec) : s.earlier r = true ↔ ∃ q ∈ s.disp.descs, q.fn = r.fn ∧ q.ring = r.ring ∧ q.id < r.id := by
  simp only [State.earlier, List.any_eq_true, Bool.and_eq_true, beq_iff_eq, decide_eq_true_eq, and_assoc]

theorem desc_of_mem {r : DRec} (h : r ∈ s.disp.descs) : ∃ q, s.desc r.id = some q := by
  cases hs : s.desc r.id with
  | some q => exact ⟨q, rfl⟩
  | none => simpa using List.find?_eq_none.1 hs r h

/-- Settles O19: by whether a record of the ring with a lower number is left. -/
theorem fenceReleased : Obligations.FenceReleased := by
  intro fn r d s hfind before
  obtain ⟨hin, hd⟩ : d ∈ s.disp.descs ∧ (d.fn = fn.val ∧ d.ring = r.val) := by
    have hd := List.find?_some hfind
    simp only [Bool.and_eq_true, beq_iff_eq] at hd
    exact ⟨List.mem_of_find?_eq_some hfind, hd.1⟩
  have hbefore : s.earlier d = true ↔ before := by
    rw [earlier_iff, hd.1, hd.2]
  have hrun : exec (.fenceRelease fn r) s = answer s (if s.earlier d then s else
      { s.modDesc d.id (fun q => { q with stage := .inbox }) with disp := { (s.modDesc d.id fun q => { q with stage := .inbox }).disp with
        inbox := s.disp.inbox ++ [d.id] } }) := by
    refine congrArg (answer s) ?_
    rw [hfind]
    rfl
  refine ⟨fun hb => ⟨_, hrun.trans (congrArg (answer s) (if_pos (hbefore.2 hb))), s.sameBut_settled⟩,
    fun hb => ⟨_, hrun.trans (congrArg (answer s) (if_neg (mt hbefore.1 hb))), ?_, rfl, ?_, fun e he => ?_, rfl⟩⟩
  · exact (keeps_disp s _ (by decide)).settled
  · obtain ⟨q, hq⟩ := desc_of_mem s hin
    refine ⟨{ q with stage := .inbox }, ?_, rfl⟩
    exact desc_modDesc_some s hq
  · exact s.desc_modDesc_ne d.id (fun q => { q with stage := .inbox }) (fun _ => rfl) he

/-! ### Waiting transient slots (03 R68) -/

theorem firstWaiter_desc {p k : Nat} {r : DRec} (h : s.firstWaiter p = some (r, k)) : s.desc r.id = some r := by
  obtain ⟨d, -, hd⟩ := List.exists_of_findSome?_eq_some h
  split at hd
  · rename_i q hq
    split at hd
    · split at hd
      · cases hd
        rw [State.desc_id s hq]
        exact hq
      · cases hd
    · cases hd
  · cases hd

/-- A descriptor that goes on: its record but for the stage, which is that of work to be taken up or just taken up. -/
theorem desc_unwait {d : Nat} {r : DRec} (h : s.desc d = some r) :
    ∃ q, (s.unwait d).desc d = some q ∧ q.trans = r.trans ∧ (q.stage = .queued ∨ q.stage = .started ∨ q.stage = .mgmt) := by
  have hmod : (s.modDesc d fun q => { q with stage := if q.isMgmt then .mgmt else .queued }).desc d
      = some { r with stage := if r.isMgmt then .mgmt else .queued } := desc_modDesc_some s h
  unfold State.unwait
  rw [h]
  rcases State.desc_takeUp (s.modDesc d fun q => { q with stage := if q.isMgmt then .mgmt else .queued }) r.core d with e | e
  · refine ⟨_, e.trans hmod, rfl, ?_⟩
    cases r.isMgmt
    · exact .inl rfl
    · exact .inr (.inr rfl)
  · exact ⟨_, e.trans (congrArg _ hmod), rfl, .inr (.inl rfl)⟩

theorem unwait_coreQ (d : Nat) : (s.unwait d).disp.coreQ = s.disp.coreQ := by
  unfold State.unwait
  split
  · rfl
  · rw [State.takeUp_disp]
    rfl

/-- Settles O21: the first waiter takes its slots where they suffice. -/
theorem slotsReserved : Obligations.SlotsReserved := by
  intro p s
  refine ⟨fun h => ⟨_, congrArg (answer s) (by rw [h]), s.sameBut_settled⟩, fun r k h => ?_⟩
  let u : State := s.modDesc r.id fun q => { q with trans := q.trans ++ (s.freePool p.val).take (k - q.trans.length) }
  let v : State := { u with kr := { u.kr with poolWait := u.kr.poolWait.erase r.id } }
  have hrun : exec (.slotReserve p) s = answer s (if k - r.trans.length ≤ (s.freePool p.val).length then v.unwait r.id else s) := by
    refine congrArg (answer s) ?_
    rw [h]
  refine ⟨fun hlt => ⟨_, hrun.trans (congrArg (answer s) (if_neg (by omega))), s.sameBut_settled⟩,
    fun hle => ?_⟩
  have hv : v.desc r.id = some { r with trans := r.trans ++ (s.freePool p.val).take (k - r.trans.length) } :=
    desc_modDesc_some s (firstWaiter_desc s h)
  obtain ⟨q, hq, htrans, hstage⟩ := desc_unwait v hv
  have hk : s.keeps v [.disp, .kr] := (keeps_disp s _ (by decide)).trans (keeps_kr u _ (by decide))
  refine ⟨_, q, hrun.trans (congrArg (answer s) (if_pos hle)), (hk.trans (keeps_unwait v r.id).widen).settled, hq, htrans, hstage, ?_, ?_⟩
  · exact (keeps_unwait v r.id).kr_eq
  · exact unwait_coreQ v r.id

/-! ### Reading descriptors (02 R49) -/

/-- Where the i-th descriptor from the head of ring q of function n stands. -/
def State.slotAt (s : State) (n q i : Nat) : Nat :=
  (s.ring n q).sqBase.toNat + 64 * (((s.ring n q).sqHead + BitVec.ofNat 32 i).toNat % 2 ^ (s.ring n q).log2.toNat)

/-- The record of the i-th descriptor read from ring q of function n: its number, place and bytes, waiting for the dispatcher or for its
fence. -/
structure State.readAs (s : State) (n q i : Nat) (d : DRec) : Prop where
  id : d.id = s.disp.nextId + i
  fn : d.fn = n
  ring : d.ring = q
  idx : d.idx = (s.ring n q).sqHead + BitVec.ofNat 32 i
  bytes : d.bytes = s.hostGet (s.slotAt n q i) 64
  stage : d.stage = .inbox ∨ d.stage = .fenced

/-- From s to t the first c descriptors of ring q of function n have been read, as the records l. -/
structure HeadRead (s t : State) (n q c : Nat) (l : List DRec) : Prop where
  keeps : s.keeps t [.host, .disp]
  mem : t.host.mem = s.host.mem
  posted : t.host.posted = s.host.posted
  descs : t.disp.descs = s.disp.descs ++ l
  length : l.length = c
  rr : t.disp.rr = s.disp.rr
  nextId : t.disp.nextId = s.disp.nextId + c
  reads : ∀ i < c, ∃ d, l[i]? = some d ∧ s.readAs n q i d
  ring : t.ring n q = { s.ring n q with sqHead := (s.ring n q).sqHead + BitVec.ofNat 32 c, outstanding := (s.ring n q).outstanding + c }
  others : ∀ m p, ¬(m = n ∧ p = q) → t.ring m p = s.ring m p

theorem HeadRead.refl (n q : Nat) : HeadRead s s n q 0 [] where
  keeps := .refl s _
  mem := rfl
  posted := rfl
  descs := (List.append_nil _).symm
  length := rfl
  rr := rfl
  nextId := rfl
  reads := fun i hi => absurd hi (Nat.not_lt_zero i)
  ring := by simp
  others := fun _ _ _ => rfl

/-- The record a descriptor read makes, and whether its fence holds it. -/
def State.nextRec (s : State) (n q : Nat) : DRec :=
  { id := s.disp.nextId, fn := n, ring := q, idx := (s.ring n q).sqHead,
    bytes := s.hostGet ((s.ring n q).sqBase.toNat + 64 * ((s.ring n q).sqHead.toNat % ringSize (s.ring n q))) 64, stage := .inbox,
    oldWin := mhas s.gate.oldWin n }

def State.nextHeld (s : State) (n q : Nat) : Bool := (s.nextRec n q).fence && s.earlier (s.nextRec n q)

/-- One descriptor read that the gate passes, on a device that has not been felled. -/
theorem readOne_eq {n q : Nat} (hp : s.hostPasses n false ((s.ring n q).sqBase.toNat + 64 * ((s.ring n q).sqHead.toNat % ringSize (s.ring n q))) 64 false = true)
    (hf : s.tam.felledState = false) :
    s.readOne n q
      = { s.setRing n q { s.ring n q with sqHead := (s.ring n q).sqHead + 1, outstanding := (s.ring n q).outstanding + 1 } with
          disp := { s.disp with nextId := s.disp.nextId + 1,
                                descs := s.disp.descs ++ [{ s.nextRec n q with stage := if s.nextHeld n q then .fenced else .inbox }],
                                inbox := if s.nextHeld n q then s.disp.inbox else s.disp.inbox ++ [s.disp.nextId] } } := by
  unfold State.readOne
  dsimp only
  rw [s.checkHost_pass _ _ _ _ _ _ hp]
  exact if_neg (Bool.eq_false_iff.1 hf)

theorem ofNat_succ_head (x : Word32) (c : Nat) : x + BitVec.ofNat 32 c + 1 = x + BitVec.ofNat 32 (c + 1) := by
  rw [BitVec.add_assoc, BitVec.ofNat_add]
  rfl

section
variable {s} {t : State} {n q c : Nat} {l : List DRec}

theorem HeadRead.slot_eq (h : HeadRead s t n q c l) :
    (t.ring n q).sqBase.toNat + 64 * ((t.ring n q).sqHead.toNat % ringSize (t.ring n q)) = s.slotAt n q c := by
  rw [h.ring]
  rfl

theorem HeadRead.nextRec_reads (h : HeadRead s t n q c l) (st : Stage) (hst : st = .inbox ∨ st = .fenced) :
    s.readAs n q c { t.nextRec n q with stage := st } where
  id := h.nextId
  fn := rfl
  ring := rfl
  idx := by
    show (t.ring n q).sqHead = _
    rw [h.ring]
  bytes := by
    show t.hostGet _ 64 = _
    rw [h.slot_eq, State.hostGet, h.mem, State.hostGet]
  stage := hst

/-- One more descriptor read. -/
theorem HeadRead.readOne (h : HeadRead s t n q c l) (hp : s.hostPasses n false (s.slotAt n q c) 64 false = true)
    (hf : s.tam.felledState = false) : ∃ d, HeadRead s (t.readOne n q) n q (c + 1) (l ++ [d]) := by
  refine ⟨{ t.nextRec n q with stage := if t.nextHeld n q then .fenced else .inbox }, ?_⟩
  have hgate : t.hostPasses n false (s.slotAt n q c) 64 false = s.hostPasses n false (s.slotAt n q c) 64 false := by
    unfold State.hostPasses State.windows State.gateOf
    rw [h.keeps.gate_eq]
  rw [readOne_eq t (by rw [h.slot_eq, hgate, hp]) (by rw [h.keeps.tam_eq, hf])]
  refine ⟨?_, h.mem, h.posted, ?_, ?_, h.rr, ?_, fun i hi => ?_, ?_, fun m p hmp => ?_⟩
  · exact h.keeps.trans ((keeps_host t _ (by decide)).trans (keeps_disp _ _ (by decide)))
  · rw [← List.append_assoc, ← h.descs]
  · rw [List.length_append, h.length]; rfl
  · show t.disp.nextId + 1 = _
    rw [h.nextId, Nat.add_assoc]
  · rcases Nat.lt_succ_iff_lt_or_eq.1 hi with hi | rfl
    · obtain ⟨d, hd, hr⟩ := h.reads i hi
      exact ⟨d, by rw [List.getElem?_append_left (by rw [h.length]; exact hi), hd], hr⟩
    · refine ⟨_, by rw [← h.length, List.getElem?_concat_length], h.nextRec_reads _ ?_⟩
      cases t.nextHeld n q
      · exact .inl rfl
      · exact .inr rfl
  · refine (t.ring_setRing ..).trans ?_
    rw [h.ring]
    dsimp only
    rw [ofNat_succ_head, Nat.add_assoc]
  · exact (t.ring_setRing_ne _ hmp).trans (h.others m p hmp)

/-- Up to k more descriptors, until the ring or the room for them ends. -/
theorem HeadRead.readSome (hp : ∀ i < 16, s.hostPasses n false (s.slotAt n q i) 64 false = true) (hf : s.tam.felledState = false) (k : Nat) :
    ∀ {t : State} {c : Nat} {l : List DRec}, HeadRead s t n q c l → c + k ≤ 16 →
      ∃ c' l', HeadRead s (t.readSome n q k) n q c' l' ∧ c ≤ c' ∧ c' ≤ c + k
        ∧ (c' = c + k ∨ (t.readSome n q k).readable n q = false ∨ (t.readSome n q k).readsOn = false) := by
  induction k with
  | zero => exact fun {t c l} h _ => ⟨c, l, h, Nat.le_refl c, Nat.le_refl c, .inl rfl⟩
  | succ k ih =>
    intro t c l h hk
    unfold State.readSome
    by_cases hg : (t.readable n q && t.readsOn) = true
    · rw [if_pos hg]
      obtain ⟨d, h1⟩ := h.readOne (hp c (by omega)) hf
      obtain ⟨c', l', h', hge, hle, hend⟩ := ih h1 (by omega)
      exact ⟨c', l', h', by omega, by omega, hend.imp_left (by omega)⟩
    · rw [if_neg hg]
      refine ⟨c, l, h, Nat.le_refl c, by omega, .inr ?_⟩
      rwa [Bool.and_eq_true, not_and_or, Bool.not_eq_true, Bool.not_eq_true] at hg

end

/-- The state with the turn moved to ring k. -/
def State.turned (s : State) (k : Nat) : State := { s with disp := { s.disp with rr := k } }

theorem exec_descriptorRead_idle (h : s.readsOn = false ∨ s.nextRing = none) : exec .descriptorRead s = .next (s.settled s) := by
  refine congrArg (answer s) ?_
  rcases h with h | h
  · rw [h]; rfl
  · rw [h]; exact ite_self s

theorem exec_descriptorRead {k : Nat} (h1 : s.readsOn = true) (h2 : s.nextRing = some k) :
    exec .descriptorRead s = .next (s.settled ((s.turned k).readSome (k / 8) (k % 8) 16)) := by
  refine congrArg (answer s) ?_
  rw [h1, h2]
  rfl

/-- Settles O17: `HeadRead` is kept by every descriptor read, and the first one is made. -/
theorem descriptorsRead : Obligations.DescriptorsRead := by
  intro s
  refine ⟨fun h => ⟨_, exec_descriptorRead_idle s h, s.sameBut_settled⟩, fun k h1 h2 hf => ?_⟩
  intro n q x slot hp
  let u := s.turned k
  have hp' : ∀ i < 16, u.hostPasses n false (u.slotAt n q i) 64 false = true := hp
  obtain ⟨d, hfirst⟩ := (HeadRead.refl u n q).readOne (hp' 0 (by decide)) hf
  have hready : (u.readable n q && u.readsOn) = true := by
    have e1 : u.readable n q = true := s.nextRing_readable h2
    have e2 : u.readsOn = true := h1
    rw [e1, e2]
    rfl
  obtain ⟨c, l, h, hge, hle, hend⟩ := HeadRead.readSome (n := n) (q := q) hp' hf 15 hfirst (by decide)
  have hrun : u.readSome n q 16 = (u.readOne n q).readSome n q 15 := if_pos hready
  rw [← hrun] at h hend
  refine ⟨_, c, l, exec_descriptorRead s h1 h2, ((keeps_disp s _ (by decide)).trans h.keeps).settled, h.mem, h.posted, by omega, by omega,
    h.descs, h.length, h.rr, h.nextId, fun i hi => ?_, h.ring, h.others, hend.imp_left (by omega)⟩
  obtain ⟨d, hd, hr⟩ := h.reads i hi
  exact ⟨d, hd, hr.id, hr.fn, hr.ring, hr.idx, hr.bytes, hr.stage⟩

/-! ### The dispatcher (01 R14) -/

theorem leastBy_eq_none {f : Nat → Nat} {l : List Nat} : leastBy f l = none ↔ l = [] := by
  cases l with
  | nil => exact ⟨fun _ => rfl, fun _ => rfl⟩
  | cons a r =>
    refine ⟨fun h => ?_, fun h => by cases h⟩
    unfold leastBy at h
    split at h
    · cases h
    · split at h <;> cases h

/-- The choice of `leastBy` in an ascending list: a member with the least measure, the lowest of those. -/
theorem leastBy_spec {f : Nat → Nat} {l : List Nat} {k : Nat} (hl : l.Pairwise (· < ·)) (h : leastBy f l = some k) :
    k ∈ l ∧ ∀ j ∈ l, f k < f j ∨ (f k = f j ∧ k ≤ j) := by
  induction l generalizing k with
  | nil => cases h
  | cons a r ih =>
    obtain ⟨ha, hr⟩ := List.pairwise_cons.1 hl
    cases hb : leastBy f r with
    | none =>
      simp only [leastBy, hb, Option.some.injEq] at h
      have := leastBy_eq_none.1 hb
      subst h this
      exact ⟨List.mem_singleton_self a, fun j hj => by rw [List.mem_singleton.1 hj]; exact .inr ⟨rfl, Nat.le_refl a⟩⟩
    | some b =>
      obtain ⟨hbr, hmin⟩ := ih hr hb
      simp only [leastBy, hb] at h
      split at h
      · cases h
        refine ⟨List.mem_cons_of_mem a hbr, fun j hj => ?_⟩
        rcases List.mem_cons.1 hj with rfl | hj
        · exact .inl ‹_›
        · exact hmin j hj
      · cases h
        refine ⟨List.mem_cons_self, fun j hj => ?_⟩
        rcases List.mem_cons.1 hj with rfl | hj
        · exact .inr ⟨rfl, Nat.le_refl j⟩
        · have := ha j hj
          rcases hmin j hj with hlt | ⟨heq, -⟩
          · exact .inl (by omega)
          · omega

theorem range_pairwise (n : Nat) : (List.range n).Pairwise (· < ·) := List.pairwise_lt_range

theorem coresOf_pairwise (c : Nat) : (coresOf c).Pairwise (· < ·) :=
  List.pairwise_map.2 (List.pairwise_lt_range.imp fun h => by omega)

theorem mem_coresOf {c k : Nat} : k ∈ coresOf c ↔ ∃ j < 8, k = 8 * c + j := by
  simp only [coresOf, List.mem_map, List.mem_range]
  exact ⟨fun ⟨j, hj, e⟩ => ⟨j, hj, e.symm⟩, fun ⟨j, hj, e⟩ => ⟨j, hj, e.symm⟩⟩

theorem mem_roomy {c : Nat} :
    (c ∈ s.serving.filter fun c => (coresOf c).any fun k => decide (s.coreLoad k < 4))
      ↔ c < 8 ∧ s.pwr.servingBits.getLsbD c = true ∧ ∃ j < 8, (s.coreQueue (8 * c + j)).length < 4 := by
  simp only [List.mem_filter, State.serving, List.mem_range, List.any_eq_true, mem_coresOf, State.coreLoad, and_assoc]
  refine and_congr_right fun _ => and_congr_right fun _ => ⟨?_, ?_⟩
  · rintro ⟨k, ⟨j, hj, rfl⟩, hk⟩
    exact ⟨j, hj, of_decide_eq_true hk⟩
  · rintro ⟨j, hj, hk⟩
    exact ⟨_, ⟨j, hj, rfl⟩, decide_eq_true hk⟩

theorem clusterLoad_eq (c : Nat) : s.clusterLoad c = ((List.range 8).map fun j => (s.coreQueue (8 * c + j)).length).sum := by
  unfold State.clusterLoad coresOf
  rw [List.map_map]
  rfl

/-- The core a verb's descriptor goes to: in the least loaded cluster with room the least loaded core with room. -/
theorem verbCore_spec {k : Nat} (h : s.verbCore = some k) :
    let load := fun (k : Nat) => (s.coreQueue k).length
    let sum := fun (c : Nat) => ((List.range 8).map fun j => load (8 * c + j)).sum
    let room := fun (c : Nat) => s.pwr.servingBits.getLsbD c = true ∧ ∃ j < 8, load (8 * c + j) < 4
    k < 64 ∧ room (k / 8) ∧ load k < 4 ∧ (∀ c < 8, room c → sum (k / 8) < sum c ∨ (sum (k / 8) = sum c ∧ k / 8 ≤ c))
      ∧ (∀ j < 8, load (8 * (k / 8) + j) < 4 → load k < load (8 * (k / 8) + j) ∨ (load k = load (8 * (k / 8) + j) ∧ k % 8 ≤ j)) := by
  intro load sum room
  unfold State.verbCore at h
  split at h
  · cases h
  · rename_i c hc
    obtain ⟨hmem, hmin⟩ := leastBy_spec ((range_pairwise 8).filter _ |>.filter _) hc
    obtain ⟨hkmem, hkmin⟩ := leastBy_spec ((coresOf_pairwise c).filter _) h
    obtain ⟨hc8, hroom⟩ := (mem_roomy s).1 hmem
    obtain ⟨hkc, hk4⟩ := List.mem_filter.1 hkmem
    obtain ⟨j, hj, rfl⟩ := mem_coresOf.1 hkc
    have hdiv : (8 * c + j) / 8 = c := by omega
    rw [hdiv]
    refine ⟨by omega, hroom, of_decide_eq_true hk4, fun c' hc' hr => ?_, fun i hi hlt => ?_⟩
    · have := hmin c' ((mem_roomy s).2 ⟨hc', hr⟩)
      rwa [clusterLoad_eq, clusterLoad_eq] at this
    · exact (hkmin _ (List.mem_filter.2 ⟨mem_coresOf.2 ⟨i, hi, rfl⟩, decide_eq_true hlt⟩)).imp_right fun ⟨e, hle⟩ => ⟨e, by omega⟩

theorem verbCore_isSome {c : Nat} (hc : c < 8) (h : s.pwr.servingBits.getLsbD c = true ∧ ∃ j < 8, (s.coreQueue (8 * c + j)).length < 4) :
    ∃ k, s.verbCore = some k := by
  unfold State.verbCore
  split
  · rename_i hn
    have := (mem_roomy s).2 ⟨hc, h⟩
    rw [leastBy_eq_none.1 hn] at this
    cases this
  · rename_i c hc
    obtain ⟨hmem, -⟩ := leastBy_spec ((range_pairwise 8).filter _ |>.filter _) hc
    obtain ⟨-, -, j, hj, hlt⟩ := (mem_roomy s).1 hmem
    refine Option.isSome_iff_exists.1 (Option.isSome_iff_ne_none.2 fun hn => ?_)
    have : 8 * c + j ∈ (coresOf c).filter fun k => decide (s.coreLoad k < 4) :=
      List.mem_filter.2 ⟨mem_coresOf.2 ⟨j, hj, rfl⟩, decide_eq_true hlt⟩
    rw [leastBy_eq_none.1 hn] at this
    cases this

theorem verbCore_eq_none (h : ¬∃ c < 8, s.pwr.servingBits.getLsbD c = true ∧ ∃ j < 8, (s.coreQueue (8 * c + j)).length < 4) :
    s.verbCore = none := by
  have hnil : (s.serving.filter fun c => (coresOf c).any fun k => decide (s.coreLoad k < 4)) = [] :=
    List.eq_nil_iff_forall_not_mem.2 fun c hc => h ⟨c, (mem_roomy s).1 hc⟩
  unfold State.verbCore
  rw [hnil]
  rfl

/-- What stands behind a descriptor that has been placed on core k. -/
structure Placed (s t : State) (d k : Nat) : Prop where
  keeps : s.keeps t [.disp]
  queue : t.coreQueue k = s.coreQueue k ++ [d]
  queues : ∀ j, j ≠ k → t.coreQueue j = s.coreQueue j
  inbox : t.disp.inbox = s.disp.inbox
  desc : ∃ q, t.desc d = some q ∧ q.core = k ∧ (q.stage = .queued ∨ q.stage = .started)

theorem seat_local {d : Nat} {r : DRec} (hd : s.desc d = some r) (hr : r.ring < meshRing) : s.seat d = s := by
  have hnone : (some r).filter (fun r => decide (meshRing ≤ r.ring ∧ r.ring < txnRing)) = none := by
    rw [Option.filter_some, if_neg]
    simp only [decide_eq_true_eq]
    omega
  unfold State.seat
  rw [hd, hnone]

theorem placed_place {d k : Nat} {r : DRec} (hd : s.desc d = some r) (hr : r.ring < meshRing) : Placed s (s.place d k) d k := by
  let u : State := s.modDesc d fun q => { q with stage := .queued, core := k }
  let v : State := { u with disp := { u.disp with coreQ := mset u.disp.coreQ k (u.coreQueue k ++ [d]) } }
  have hv : v.desc d = some { r with stage := .queued, core := k } := desc_modDesc_some s hd
  have htaken : ∃ q, (v.takeUp k).desc d = some q ∧ q.core = k ∧ q.ring = r.ring ∧ (q.stage = .queued ∨ q.stage = .started) := by
    rcases v.desc_takeUp k d with e | e
    · exact ⟨_, e.trans hv, rfl, rfl, .inl rfl⟩
    · exact ⟨_, e.trans (congrArg _ hv), rfl, rfl, .inr rfl⟩
  obtain ⟨q, hq, hcore, hring, hstage⟩ := htaken
  have hplace : s.place d k = v.takeUp k := seat_local (v.takeUp k) hq (hring ▸ hr)
  rw [hplace]
  refine ⟨(keeps_disp s _ (by decide)).trans (keeps_takeUp v k), ?_, fun j hj => ?_, ?_, q, hq, hcore, hstage⟩
  · rw [v.takeUp_coreQueue]
    exact mget_mset_self ..
  · rw [v.takeUp_coreQueue]
    exact mget_mset_ne _ _ _ hj
  · rw [v.takeUp_disp]
    rfl

/-- DISPATCH where both waiting places are empty and nothing waits for the forwarded queue. -/
theorem exec_dispatch (h1 : s.disp.mgmtPlace = none) (h2 : s.disp.recipePlace = none) {x : State} (hx : s.dispatchOne = x)
    (h3 : x.mesh.waitFwd = []) : exec .dispatch s = .next (s.settled x) := by
  have hempty : s.emptyPlaces = s := by
    unfold State.emptyPlaces
    rw [h1]
    dsimp only
    rw [h2]
  have hadmit : x.admitFwd = x := by
    unfold State.admitFwd
    rw [h3]
  refine congrArg (answer s) ?_
  rw [hempty, hx, hadmit]

section
variable {s} {d : Nat} {rest : List Nat} {r : DRec} (hin : s.disp.inbox = d :: rest) (hd : s.desc d = some r) (hok : s.refusedAtOnce r = none)
include hin hd hok

theorem dispatchOne_place (h1 : r.isMgmt = false) (h2 : r.isRecipe = false) {k : Nat} (hk : s.verbCore = some k) :
    s.dispatchOne = (s.leaveInbox d).place d k := by
  unfold State.dispatchOne
  rw [hin]
  dsimp only
  rw [hd]
  dsimp only
  rw [hok]
  simp only [h1, h2, hk, Bool.false_eq_true, if_false]

theorem dispatchOne_stays (h1 : r.isMgmt = false) (h2 : r.isRecipe = false) (hk : s.verbCore = none) : s.dispatchOne = s := by
  unfold State.dispatchOne
  rw [hin]
  dsimp only
  rw [hd]
  dsimp only
  rw [hok]
  simp only [h1, h2, hk, Bool.false_eq_true, if_false]

theorem dispatchOne_mgmt (h1 : r.isMgmt = true) (h2 : s.disp.mgmtPlace = none) :
    s.dispatchOne = if s.disp.mgmtQ.length < 16 then (s.leaveInbox d).placeMgmt d
      else
        let t := (s.leaveInbox d).modDesc d fun q => { q with stage := .mgmtPlace }
        { t with disp := { t.disp with mgmtPlace := some d } } := by
  unfold State.dispatchOne
  rw [hin]
  dsimp only
  rw [hd]
  dsimp only
  rw [hok]
  simp only [h1, h2, if_true, Option.isNone_none, Bool.and_true, decide_eq_true_eq]

end

theorem leaveInbox_inbox {d : Nat} {rest : List Nat} (h : s.disp.inbox = d :: rest) : (s.leaveInbox d).disp.inbox = rest := by
  show s.disp.inbox.erase d = rest
  rw [h, List.erase_cons_head]

/-- Settles O18: by the kind of descriptor; `verbCore_spec` says which core takes a verb. -/
theorem dispatched : Obligations.Dispatched := by
  intro d rest r s hin hd h1 h2 h3 hok load sum room
  have hkl : s.keeps (s.leaveInbox d) [.disp] := keeps_disp s _ (by decide)
  have hmgmt : ∀ {x : State}, s.dispatchOne = x → s.keeps x [.disp] → exec .dispatch s = .next (s.settled x) := fun hx hk =>
    exec_dispatch s h1 h2 hx (by rw [hk.mesh_eq, h3])
  refine ⟨fun hm hr hring hroom => ?_, fun hm hr hno => ?_, fun hm hlt => ?_, fun hm hge => ?_⟩
  · obtain ⟨c, hc, hcroom⟩ := hroom
    obtain ⟨k, hk⟩ := verbCore_isSome s hc hcroom
    obtain ⟨hk64, hkroom, hk4, hclusters, hcores⟩ := verbCore_spec s hk
    have hrun := dispatchOne_place hin hd hok hm hr hk
    have hp := placed_place (s.leaveInbox d) (k := k) hd hring
    have hkeep := hkl.trans hp.keeps
    exact ⟨_, k, hmgmt hrun hkeep, hkeep.settled, hk64, hkroom, hk4, hclusters, hcores, hp.queue, hp.queues,
      hp.inbox.trans (leaveInbox_inbox s hin), hp.desc⟩
  · have hrun := dispatchOne_stays hin hd hok hm hr (verbCore_eq_none s hno)
    exact ⟨_, hmgmt hrun (.refl s _), s.sameBut_settled⟩
  · have hrun := (dispatchOne_mgmt hin hd hok hm h1).trans (if_pos hlt)
    have hk : s.keeps ((s.leaveInbox d).placeMgmt d) [.disp] := keeps_disp s _ (by decide)
    exact ⟨_, hmgmt hrun hk, hk.settled, leaveInbox_inbox s hin, rfl, rfl⟩
  · have hrun := (dispatchOne_mgmt hin hd hok hm h1).trans (if_neg (by omega))
    exact ⟨_, hmgmt hrun (keeps_disp s _ (by decide)), (keeps_disp s _ (by decide)).settled, leaveInbox_inbox s hin, rfl, rfl, rfl⟩

end Sys2Proof.Machine
end

section
/-! What a completion leaves alone: the units outside its reach, which functions there are and are ready, and the records of host rings,
of which it makes none (02 R41 to R51; 14 R343, R351). -/

namespace Sys2Proof.Machine

/-- What completions may leave of s in t. -/
structure State.drains (s t : State) : Prop where
  keeps : s.keeps t [.host, .disp, .kr, .eng, .gate, .mesh]
  present : ∀ m, (t.func m).present = (s.func m).present
  fnReady : ∀ m, (t.func m).fnReady = (s.func m).fnReady
  partResets : ∀ m, (t.func m).partResets = (s.func m).partResets
  records : ∀ r ∈ t.disp.descs, r.ring < meshRing → ∃ q ∈ s.disp.descs, q.sameDesc r

section
variable {s t u : State}

theorem State.drains.refl (s : State) : s.drains s :=
  ⟨.refl s _, fun _ => rfl, fun _ => rfl, fun _ => rfl, fun r hr _ => ⟨r, hr, .refl r⟩⟩

theorem State.drains.trans (h : s.drains t) (k : t.drains u) : s.drains u where
  keeps := h.keeps.trans k.keeps
  present := fun m => (k.present m).trans (h.present m)
  fnReady := fun m => (k.fnReady m).trans (h.fnReady m)
  partResets := fun m => (k.partResets m).trans (h.partResets m)
  records := fun r hr hm => by
    obtain ⟨q, hq, hqr⟩ := k.records r hr hm
    obtain ⟨p, hp, hpq⟩ := h.records q hq (hqr.ring ▸ hm)
    exact ⟨p, hp, hpq.trans hqr⟩

theorem State.drains.ite {p : Prop} [Decidable p] (h : s.drains t) (k : s.drains u) : s.drains (if p then t else u) := by
  split <;> assumption

theorem State.drains.fold {α : Type} {f : State → α → State} (h : ∀ (s : State) (a : α), s.drains (f s a)) (as : List α) (s : State) :
    s.drains (as.foldl f s) := by
  induction as generalizing s with
  | nil => exact .refl s
  | cons a r ih => exact (h s a).trans (ih _)

/-- A step that changes no function's registers and whose records all stood before. -/
theorem State.drains.of_funcs (h : s.keeps t [.host, .disp, .kr, .eng, .gate, .mesh]) (hf : t.host.funcs = s.host.funcs)
    {k : Nat → Bool} (hr : s.narrows t k) : s.drains t := by
  have hfn : ∀ m, t.func m = s.func m := fun m => by rw [State.func, State.func, hf]
  exact ⟨h, fun m => by rw [hfn], fun m => by rw [hfn], fun m => by rw [hfn], fun r hm _ => (hr.mem hm).2⟩

theorem State.drains.of_keeps {l : List Area} (h : s.keeps t l) (hl : ∀ a ∈ l, a ∈ ([.kr, .eng, .gate, .mesh] : List Area) := by decide) :
    s.drains t :=
  .of_funcs (h.mono fun a ha => by have := hl a ha; simp at this ⊢; tauto)
    (by rw [h.host_eq fun hm => by simpa using hl _ hm]) (State.relabels.of_disp (h.disp_eq fun hm => by simpa using hl _ hm))

theorem State.drains.elim {α : Type} {o : Option α} {f : α → State} (h : ∀ a, s.drains (f a)) : s.drains (o.elim s f) := by
  cases o with
  | none => exact .refl s
  | some a => exact h a

end

variable (s : State)

/-! ### Host writes, faults and records -/

theorem drains_modDesc (d : Nat) (f : DRec → DRec) (hf : ∀ r : DRec, r.sameDesc (f r)) : s.drains (s.modDesc d f) :=
  .of_funcs (keeps_disp s _ (by decide)) rfl (relabels_modDesc s d f hf)

theorem drains_writeExtents (r : DRec) (es : List (Nat × Nat)) (b : Bytes) : s.drains (s.writeExtents r es b) :=
  .of_funcs (keeps_writeExtents ..).widen (writeExtents_funcs ..) (State.relabels.of_disp (keeps_writeExtents ..).disp_eq)

theorem drains_putOut (r : DRec) (b : Bytes) : s.drains (s.putOut r b) := by
  refine (drains_writeExtents s r (s.outExtents r b.length) b).trans ?_
  exact drains_modDesc _ r.id _ fun _ => ⟨rfl, rfl, rfl, rfl, rfl⟩

theorem drains_zeroOut (d : Nat) : s.drains (s.zeroOut d) := by
  unfold State.zeroOut
  split
  · exact .refl s
  · rename_i r _
    refine (drains_writeExtents s r r.written (zeros (extentTotal r.written))).trans ?_
    exact drains_modDesc _ d _ fun _ => ⟨rfl, rfl, rfl, rfl, rfl⟩

theorem drains_removeDesc (d : Nat) (ab : Bool) : s.drains (s.removeDesc d ab) :=
  .of_funcs (keeps_removeDesc s d ab).widen (by rw [(keeps_removeDesc s d ab).host_eq]) (narrows_removeDesc s d ab)

theorem drains_abandonDesc (d : Nat) : s.drains (s.abandonDesc d) := (drains_zeroOut s d).trans (drains_removeDesc ..)

/-- A function's registers change, but not whether it is there, ready, or how often it was reset. -/
theorem drains_setFunc {n : Nat} {f : Func} (h1 : f.present = (s.func n).present) (h2 : f.fnReady = (s.func n).fnReady)
    (h3 : f.partResets = (s.func n).partResets) : s.drains (s.setFunc n f) := by
  have hfn : ∀ m, (s.setFunc n f).func m = if m = n then f else s.func m := fun m => by
    by_cases hm : m = n
    · subst hm; rw [s.func_setFunc, if_pos rfl]
    · rw [s.func_setFunc_ne _ hm, if_neg hm]
  refine ⟨keeps_host s _ (by decide), fun m => ?_, fun m => ?_, fun m => ?_, fun r hr _ => ⟨r, hr, .refl r⟩⟩
  all_goals
    rw [hfn]
    split
    · simp only [*]
    · rfl

theorem drains_setRing (n r : Nat) (x : Ring) : s.drains (s.setRing n r x) := drains_setFunc s rfl rfl rfl

theorem drains_sendVector (n v : Nat) : s.drains (s.sendVector n v) := by
  unfold State.sendVector
  refine .ite (.refl s) (.ite ?_ ?_)
  · exact drains_setFunc s rfl rfl rfl
  · exact .of_funcs (keeps_host s _ (by decide)) rfl (State.relabels.of_disp rfl)

theorem drains_raiseEvt (n i : Nat) : s.drains (s.raiseEvt n i) := by
  unfold State.raiseEvt
  have hset : s.drains (s.setFunc n { s.func n with evtStat := setFlag (s.func n).evtStat i }) := drains_setFunc s rfl rfl rfl
  exact .ite (.refl s) (.ite (hset.trans (drains_sendVector ..)) hset)

theorem drains_ringFault (n q : Nat) : s.drains (s.ringFault n q) := by
  rw [ringFault_eq]
  refine State.drains.trans ?_ (drains_setRing ..)
  refine State.drains.trans ?_ (.fold drains_abandonDesc _ _)
  refine (drains_setRing s n q { s.ring n q with fault := true }).trans (State.drains.trans ?_ (drains_raiseEvt ..))
  exact drains_setFunc _ rfl rfl rfl

theorem drains_noteRecord (n r : Nat) (b : Bool) : s.drains (s.noteRecord n r b) := by
  unfold State.noteRecord
  have hset : s.drains (s.setRing n r { s.ring n r with pend := (s.ring n r).pend + 1 }) := drains_setRing ..
  refine .ite (.refl s) (.ite (hset.trans ?_) hset)
  exact (drains_setRing ..).trans (drains_sendVector ..)

theorem drains_checkHost (m p : Nat) (old : Bool) (a n : Nat) (w : Bool) : s.drains (s.checkHost m p old a n w).1 :=
  .of_keeps (keeps_checkHost ..)

theorem drains_writeRecord (r : DRec) (st : Word16) (len : Nat) (inl : Bytes) : s.drains (s.writeRecord r st len inl) := by
  unfold State.writeRecord
  simp only
  refine (drains_checkHost s ringEngineId r.fn false
    ((s.ring r.fn r.ring).cqBase.toNat + 32 * ((s.ring r.fn r.ring).cqTail.toNat % ringSize (s.ring r.fn r.ring))) 32 true).trans ?_
  refine .ite ?_ (drains_ringFault ..)
  refine State.drains.trans ?_ (drains_noteRecord ..)
  refine State.drains.trans ?_ (drains_setRing ..)
  exact .of_funcs (keeps_host _ _ (by decide)) rfl (State.relabels.of_disp rfl)

/-! ### The mesh's side -/

theorem keeps_emit (m : Sent) : s.keeps (s.emit m) [.mesh] := by
  unfold State.emit
  split
  · exact keeps_mesh s _ (by decide)
  · split
    · exact .refl _ _
    · exact .refl _ _
    · exact keeps_mesh s _ (by decide)

theorem keeps_send (dst type tag attempt aux : Nat) (b : Bytes) (p : Nat) : s.keeps (s.send dst type tag attempt aux b p) [.mesh] :=
  keeps_emit s _

theorem keeps_sendResult (r : DRec) (st : Word16) (out inl : Bytes) : s.keeps (s.sendResult r st out inl) [.mesh] := by
  unfold State.sendResult
  dsimp only
  split
  · exact .refl _ _
  · refine State.keeps.ite (keeps_mesh s _ (by decide)) (State.keeps.ite ?_ ?_)
    · exact (keeps_mesh s _ (by decide)).trans (keeps_send ..)
    · exact (keeps_mesh s _ (by decide)).trans (keeps_send ..)

theorem keeps_noteApplied (n : Nat) : s.keeps (s.noteApplied n) [.mesh] := by
  have hack : s.keeps (({ s with mesh := { s.mesh with rseq := n } } : State).ackTxn n) [.mesh] :=
    (keeps_mesh s _ (by decide)).trans (keeps_send ..)
  unfold State.noteApplied
  exact .ite (hack.trans (keeps_mesh _ _ (by decide))) hack

theorem drains_noteApplied (n : Nat) : s.drains (s.noteApplied n) := .of_keeps (keeps_noteApplied s n)

/-- A descriptor that applies a transaction is of no host ring. -/
theorem drains_addTxn {t : State} (h : s.keeps t [.disp, .mesh]) {r : DRec} (hr : r.ring = txnRing) (hd : t.disp.descs = s.disp.descs ++ [r]) :
    s.drains t := by
  have hfn : ∀ m, t.func m = s.func m := fun m => by rw [State.func, State.func, h.host_eq]
  refine ⟨h.widen, fun m => by rw [hfn], fun m => by rw [hfn], fun m => by rw [hfn], fun q hq hring => ?_⟩
  rw [hd] at hq
  rcases List.mem_append.1 hq with hq | hq
  · exact ⟨q, hq, .refl q⟩
  · rw [List.mem_singleton.1 hq, hr] at hring
    exact absurd hring (by decide)

theorem drains_beginTxn (t : Txn) : s.drains (s.beginTxn t) := by
  unfold State.beginTxn
  dsimp only
  split
  · refine drains_addTxn s ?_ rfl rfl
    exact .of_eq (fun _ => rfl) (fun h => absurd (by decide) h) (fun _ => rfl) (fun _ => rfl) (fun _ => rfl) (fun _ => rfl) (fun _ => rfl)
      (fun _ => rfl) (fun h => absurd (by decide) h) (fun _ => rfl) (fun _ => rfl) fun _ => rfl
  · refine drains_addTxn s ?_ rfl rfl
    exact keeps_disp s _ (by decide)

theorem drains_txnPump (f : Nat) : ∀ s : State, s.drains (s.txnPump f) := by
  induction f with
  | zero => exact fun s => .refl s
  | succ f ih =>
    intro s
    unfold State.txnPump
    split
    · exact .refl s
    · split
      · exact .refl s
      · rename_i t _
        have homes : s.drains (s.applyHomes (txnPay t.body)) :=
          .fold (fun s _ => .of_keeps (keeps_mesh (l := [.mesh]) s _ (by decide))) _ s
        exact .ite ((homes.trans (drains_noteApplied ..)).trans (ih _)) (drains_beginTxn ..)

theorem drains_txnApplied (st : Word16) : s.drains (s.txnApplied st) := by
  unfold State.txnApplied
  refine .ite ((drains_noteApplied ..).trans (drains_txnPump ..)) ?_
  exact .of_keeps (keeps_mesh (l := [.mesh]) s _ (by decide))

/-! ### Completions -/

theorem drains_completeOne (d : Nat) (st : Word16) (out inl : Bytes) (len : Option Nat) : s.drains (s.completeOne d st out inl len) := by
  unfold State.completeOne
  split
  · exact .refl s
  · rename_i r _
    have hflag : s.drains (if s.time.lock = true then s else s.flag d cfUnaligned) := by
      refine .ite (.refl s) ?_
      exact drains_modDesc s d _ fun _ => ⟨rfl, rfl, rfl, rfl, rfl⟩
    refine State.drains.trans ?_ (.ite (drains_txnApplied ..) (.refl _))
    refine hflag.trans (State.drains.trans (.ite ?_ ?_) (drains_removeDesc ..))
    · exact .elim fun q => .of_keeps (keeps_sendResult ..)
    · exact State.drains.trans (.ite (drains_putOut ..) (drains_zeroOut ..)) (.elim fun q => drains_writeRecord ..)

theorem drains_settle : s.drains s.settle := by
  refine .fold (fun s r => ?_) _ s
  split
  · refine .ite (.refl s) (.ite ?_ (drains_completeOne ..))
    exact drains_modDesc s r.id _ fun _ => ⟨rfl, rfl, rfl, rfl, rfl⟩
  · exact .refl s

theorem drains_complete (d : Nat) (st : Word16) (out inl : Bytes) (len : Option Nat) : s.drains (s.complete d st out inl len) :=
  (drains_completeOne ..).trans (drains_settle _)

theorem drains_finish (d : Nat) (st : Word16) : s.drains (s.finish d st) := drains_complete ..

theorem drains_deliver (d : Nat) (r : Result) : s.drains (s.deliver d r) := drains_complete ..

end Sys2Proof.Machine
end

section
/-! Commits of a gate's regions and fences (13 R316, R317, R321, R322, R327), and what the board controller reads (18 R422). -/

namespace Sys2Proof.Machine

variable (s : State)

/-! ### Regions (13 R316, R317, R321) -/

theorem Region.malformed_iff (r : Region) :
    r.malformed = true ↔ r.valid = true ∧ (r.sizeExp.toNat < 12 ∨ 40 < r.sizeExp.toNat ∨ ¬(2 ^ r.sizeExp.toNat ∣ r.base.toNat)) := by
  simp only [Region.malformed, Bool.and_eq_true, Bool.or_eq_true, decide_eq_true_eq, bne_iff_ne, ne_eq, Nat.dvd_iff_mod_eq_zero, or_assoc]

theorem committed_bad (g r : Nat) (v : Word32) : (s.committed g r v).bad = (s.committed g r v).malformed := rfl

theorem dbgMask_blank (m : BitVec 128) (h : s.life.st = .blank) : s.dbgMask m = m := if_pos h

theorem dbgMask_getLsbD (m : BitVec 128) (h : s.life.st ≠ .blank) {k : Nat} (hk : k < 128) :
    (s.dbgMask m).getLsbD k = (m.getLsbD k && !decide (k = 80)) := by
  unfold State.dbgMask
  rw [if_neg h, BitVec.getLsbD_and, BitVec.getLsbD_not, BitVec.getLsbD_ofNat, Nat.testBit_two_pow, decide_eq_true hk, Bool.true_and,
    Bool.true_and, decide_eq_decide.2 (eq_comm (a := 80) (b := k))]

/-- The masks of a region of another gate than GATE_HOST. -/
theorem committed_masks {g : Nat} (hg : g ≠ 0) (r : Nat) (v : Word32) :
    (s.committed g r v).rmask = s.dbgMask (mget (s.gateOf g).staged r {}).rmask
    ∧ (s.committed g r v).wmask = s.dbgMask (mget (s.gateOf g).staged r {}).wmask :=
  ⟨if_neg hg, if_neg hg⟩

theorem committed_rights (g r : Nat) (v : Word32) :
    (s.committed g r v).rd = (g == 0 && v.getLsbD 10) ∧ (s.committed g r v).wr = (g == 0 && v.getLsbD 11) := ⟨rfl, rfl⟩

theorem committed_sizeExp (g r : Nat) (v : Word32) : (s.committed g r v).sizeExp.toNat = v.toNat % 64 := BitVec.toNat_ofNat ..

theorem exec_regionCommit {g : Fin 6} {r : Byte} {v : Word32} (h : r.toNat < gateRegions g.val) :
    exec (.regionCommit g r v) s = .next (s.settled (s.setGate g.val { s.gateOf g.val with
      regions := mset (s.gateOf g.val).regions r.toNat (s.committed g.val r.toNat v), epoch := (s.gateOf g.val).epoch + 1,
      ruleErr := (s.gateOf g.val).ruleErr || (s.committed g.val r.toNat v).bad })) :=
  congrArg (answer s) (if_neg (Nat.not_le.2 h))

/-- A command that sets gate g alone. -/
theorem setGate_only (g : Nat) (x : Gate) :
    s.keeps (s.settled (s.setGate g x)) [.gate] ∧ (s.settled (s.setGate g x)).gateOf g = x
    ∧ ∀ h, h ≠ g → (s.settled (s.setGate g x)).gateOf h = s.gateOf h :=
  ⟨(keeps_gate s _ (by decide)).settled, s.gateOf_setGate .., fun _ hh => s.gateOf_setGate_ne _ hh⟩

/-- Settles O43: a commit sets the region that `committed` makes of CTRL and the staged copy. -/
theorem regionsCommitted : Obligations.RegionsCommitted := by
  intro g s y n
  refine ⟨fun r v hr => ?_, fun r v hr => ⟨_, congrArg (answer s) (if_pos hr), s.sameBut_settled⟩, ?_, ?_⟩
  · let x := s.committed g.val r.toNat v
    obtain ⟨hk, hg, hothers⟩ := setGate_only s g.val { y with regions := mset y.regions r.toNat x, epoch := y.epoch + 1, ruleErr := y.ruleErr || x.bad }
    refine ⟨_, x, exec_regionCommit s hr, hk, ?_, ?_, rfl, committed_sizeExp .., rfl, fun h0 => ?_, fun h0 => ?_, fun h0 hb => ?_,
      fun h0 hb => ?_, (by rw [committed_bad]; exact Region.malformed_iff x), ?_, fun k hk z => ?_, hothers, rfl⟩
    · rw [hg]; exact mget_mset_self ..
    · rw [hg]
    · obtain ⟨h1, h2⟩ := committed_rights s g.val r.toNat v
      exact ⟨h1.trans (by simp [h0]), h2.trans (by simp [h0])⟩
    · obtain ⟨h1, h2⟩ := committed_rights s g.val r.toNat v
      exact ⟨h1.trans (by simp [h0]), h2.trans (by simp [h0])⟩
    · obtain ⟨h1, h2⟩ := committed_masks s h0 r.toNat v
      exact ⟨h1.trans (dbgMask_blank s _ hb), h2.trans (dbgMask_blank s _ hb)⟩
    · obtain ⟨h1, h2⟩ := committed_masks s h0 r.toNat v
      rw [h1, h2]
      refine ⟨?_, ?_, fun k hk hne => ?_⟩
      · rw [dbgMask_getLsbD s _ hb (by decide)]; simp
      · rw [dbgMask_getLsbD s _ hb (by decide)]; simp
      · rw [dbgMask_getLsbD s _ hb hk]; simp [hne]; rfl
    · rw [hg]
    · rw [hg]; exact mget_mset_ne _ _ _ hk
  · obtain ⟨hk, hg, hothers⟩ := setGate_only s g.val { y with fenceBusy := true, fenceEpoch := y.epoch }
    exact ⟨_, rfl, hk, hg, hothers⟩
  · obtain ⟨hk, hg, hothers⟩ := setGate_only s g.val { y with fenceBusy := false }
    exact ⟨_, rfl, hk, hg, hothers⟩

end Sys2Proof.Machine
end

section
/-! The arbiters: maps, rotation and decisions (10 R248 to R254). -/

namespace Sys2Proof.Machine

/-! ### Ranks (10 R249, R254) -/

/-- The number whose first n nibbles are the values of f. -/
def packNibbles (f : Nat → Nat) (n : Nat) : Nat := ((List.range n).map fun i => at' (f i) (4 * i)).sum

theorem packNibbles_succ (f : Nat → Nat) (n : Nat) : packNibbles f (n + 1) = f 0 + 16 * packNibbles (fun i => f (i + 1)) n := by
  have hstep : (fun i => at' (f (i + 1)) (4 * (i + 1))) = fun i => 16 * at' (f (i + 1)) (4 * i) := funext fun i => by
    simp only [at', Nat.mul_succ, Nat.pow_add]
    ring
  unfold packNibbles
  rw [List.range_succ_eq_map, List.map_cons, List.map_map, List.sum_cons, ← List.sum_map_mul_left, ← hstep]
  simp only [at', Nat.mul_zero, Nat.pow_zero, Nat.mul_one]
  rfl

theorem packNibbles_lt {f : Nat → Nat} (hf : ∀ i, f i < 16) (n : Nat) : packNibbles f n < 16 ^ n := by
  induction n generalizing f with
  | zero => exact Nat.one_pos
  | succ n ih =>
    have h := ih fun i => hf (i + 1)
    have h0 := hf 0
    rw [packNibbles_succ, Nat.pow_succ]
    omega

theorem bits_packNibbles {f : Nat → Nat} (hf : ∀ i, f i < 16) {i n : Nat} (hi : i < n) : bits (packNibbles f n) (4 * i) 4 = f i := by
  have hpow : ∀ i, 2 ^ (4 * i) = 16 ^ i := fun i => by rw [Nat.pow_mul]
  unfold bits
  rw [hpow]
  induction n generalizing f i with
  | zero => exact absurd hi (Nat.not_lt_zero i)
  | succ n ih =>
    have h0 := hf 0
    rw [packNibbles_succ]
    cases i with
    | zero => omega
    | succ i =>
      have hdiv : (f 0 + 16 * packNibbles (fun i => f (i + 1)) n) / 16 = packNibbles (fun i => f (i + 1)) n := by omega
      rw [Nat.pow_succ', ← Nat.div_div_eq_div_mul, hdiv]
      exact ih (fun i => hf (i + 1)) (by omega)

/-- The nibbles as a register of n nibbles holds them. -/
theorem bits_ofNat_packNibbles {f : Nat → Nat} (hf : ∀ i, f i < 16) {i n : Nat} (hi : i < n) :
    bits (BitVec.ofNat (4 * n) (packNibbles f n)).toNat (4 * i) 4 = f i := by
  have hlt : packNibbles f n < 2 ^ (4 * n) := by rw [Nat.pow_mul]; exact packNibbles_lt hf n
  rw [BitVec.toNat_ofNat, Nat.mod_eq_of_lt hlt, bits_packNibbles hf hi]

theorem getD_map_range (f : Nat → Nat) {i n : Nat} (hi : i < n) : ((List.range n).map f).getD i 0 = f i := by
  simp [List.getD, hi]

/-- The rotation moves every rank one up. -/
theorem rankIn_rotateRanks (f : Nat → Nat) {i : Nat} (hi : i < 15) :
    rankIn (BitVec.ofNat 32 (rotateRanks ((List.range 15).map f)).1) (BitVec.ofNat 28 (rotateRanks ((List.range 15).map f)).2) i
      = (f i + 1) % 15 := by
  unfold rankIn rotateRanks
  rw [if_neg (by omega)]
  dsimp only
  by_cases h8 : i < 8
  · rw [if_pos h8]
    refine (bits_ofNat_packNibbles (f := fun i => (((List.range 15).map f).getD i 0 + 1) % 15) (fun i => by omega) h8).trans ?_
    rw [getD_map_range f hi]
  · rw [if_neg h8]
    refine (bits_ofNat_packNibbles (f := fun i => (((List.range 15).map f).getD (8 + i) 0 + 1) % 15) (n := 7) (fun i => by omega) (by omega)).trans ?_
    rw [getD_map_range f (by omega), Nat.add_sub_cancel' (by omega)]

/-! ### Reading an arbiter back -/

section
variable (x : Arb)

@[simp] theorem Arb.engine_setEngine (e : Nat) (y : EngArb) : (x.setEngine e y).engine e = y := mget_mset_self ..

theorem Arb.engine_setEngine_ne {e f : Nat} (y : EngArb) (h : f ≠ e) : (x.setEngine e y).engine f = x.engine f := mget_mset_ne _ _ _ h

@[simp] theorem Arb.engine_setInputQ (i e f : Nat) (q : List Req) : (x.setInputQ i e q).engine f = x.engine f := rfl

@[simp] theorem Arb.inputQ_setEngine (e i f : Nat) (y : EngArb) : (x.setEngine e y).inputQ i f = x.inputQ i f := rfl

theorem Arb.inputQ_setInputQ (i e : Nat) (q : List Req) : (x.setInputQ i e q).inputQ i e = q := by
  unfold Arb.inputQ Arb.setInputQ
  dsimp only
  split
  · rename_i h; rw [h]; exact mget_mdel_self ..
  · exact mget_mset_self ..

theorem Arb.inputQ_setInputQ_ne {i j : Nat} (e : Nat) (q : List Req) (h : j ≠ i) : (x.setInputQ i e q).inputQ j e = x.inputQ j e := by
  have hk : 4 * j + e ≠ 4 * i + e := by omega
  unfold Arb.inputQ Arb.setInputQ
  dsimp only
  split
  · exact mget_mdel_ne _ _ hk
  · exact mget_mset_ne _ _ _ hk

@[simp] theorem Arb.top_setEngine (e f : Nat) (y : EngArb) : (x.setEngine e y).top f = x.top f := rfl

theorem Arb.arrived_engine (e : Nat) : x.arrived.engine e = x.engine e := by
  unfold Arb.engine
  rw [x.arrived_live.2.2.2.2]

theorem Arb.upTo_engine (e f : Nat) : (x.upTo e).engine f = x.engine f := by
  unfold Arb.upTo
  split
  · exact x.arrived_engine f
  · rfl

end

/-! ### Decisions (10 R250 to R253) -/

/-- What a decision for engine e makes of arbiter x, which it sees as z: the owner and the counters, and all else of the other engines
and the maps. -/
structure Decided (z x : Arb) (e : Nat) (o : Option (Nat × Req)) (grants voids : Word32) : Prop where
  owner : (x.engine e).owner = o
  grants : (x.engine e).grants = grants
  voids : (x.engine e).voids = voids
  liveLo : x.liveLo = z.liveLo
  liveHi : x.liveHi = z.liveHi
  engines : ∀ f, f ≠ e → x.engine f = z.engine f

/-- The start of a decision: the engine's void grant has cost its cycle. -/
def Arb.counted (z : Arb) (e : Nat) : Arb :=
  z.setEngine e { z.engine e with voids := if (z.engine e).voided then satInc (z.engine e).voids else (z.engine e).voids, voided := false, fresh := false }

section
variable (z : Arb) (e : Nat)

theorem Arb.grant_engine (x : Arb) (i : Nat) (q : Req) :
    (x.grant e i q).engine e = { x.engine e with owner := some (i, { q with preempted := false }), fresh := true, grants := satInc (x.engine e).grants } :=
  Arb.engine_setEngine ..

/-- The counters of an engine when it has been granted. -/
theorem Arb.grant_decided {x : Arb} (i : Nat) (q : Req) (h1 : x.liveLo = z.liveLo) (h2 : x.liveHi = z.liveHi) (h3 : ∀ f, f ≠ e → x.engine f = z.engine f) :
    Decided z (x.grant e i q) e (some (i, { q with preempted := false })) (satInc (x.engine e).grants) (x.engine e).voids where
  owner := by rw [x.grant_engine]
  grants := by rw [x.grant_engine]
  voids := by rw [x.grant_engine]
  liveLo := h1
  liveHi := h2
  engines := fun f hf => (Arb.engine_setEngine_ne _ _ hf).trans (h3 f hf)

theorem Arb.setEngine_decided {x : Arb} {y : EngArb} {g v : Word32} (hg : y.grants = g) (hv : y.voids = v) (h1 : x.liveLo = z.liveLo) (h2 : x.liveHi = z.liveHi) (h3 : ∀ f, f ≠ e → x.engine f = z.engine f) :
    Decided z (x.setEngine e y) e y.owner g v where
  owner := by rw [Arb.engine_setEngine]
  grants := by rw [Arb.engine_setEngine, hg]
  voids := by rw [Arb.engine_setEngine, hv]
  liveLo := h1
  liveHi := h2
  engines := fun f hf => (Arb.engine_setEngine_ne _ _ hf).trans (h3 f hf)

/-- The voids behind a decision. -/
def EngArb.voidsAfter (y : EngArb) : Word32 := if y.voided then satInc y.voids else y.voids

theorem Arb.counted_engine : (z.counted e).engine e
    = { z.engine e with voids := (z.engine e).voidsAfter, voided := false, fresh := false } := Arb.engine_setEngine ..

theorem Arb.counted_grants : ((z.counted e).engine e).grants = (z.engine e).grants := by rw [z.counted_engine]

theorem Arb.counted_voids : ((z.counted e).engine e).voids = (z.engine e).voidsAfter := by rw [z.counted_engine]

theorem Arb.counted_engine_ne {f : Nat} (hf : f ≠ e) : (z.counted e).engine f = z.engine f := Arb.engine_setEngine_ne _ _ hf

theorem Arb.choose_none (h : z.top e = none) :
    Decided z ((z.counted e).choose e) e none (z.engine e).grants (z.engine e).voidsAfter := by
  have hrun : (z.counted e).choose e = (z.counted e).setEngine e { (z.counted e).engine e with owner := none } := by
    unfold Arb.choose
    have : ((z.counted e).setEngine e { (z.counted e).engine e with owner := none }).top e = none := h
    dsimp only
    rw [this]
  rw [hrun]
  exact z.setEngine_decided e (x := z.counted e) (y := { (z.counted e).engine e with owner := none })
    (z.counted_grants e) (z.counted_voids e) rfl rfl fun f hf => z.counted_engine_ne e hf

theorem Arb.choose_some {i : Nat} {q : Req} (h : z.top e = some (i, q)) :
    Decided z ((z.counted e).choose e) e (some (i, { q with preempted := false })) (satInc (z.engine e).grants) (z.engine e).voidsAfter := by
  let x := (z.counted e).setEngine e { (z.counted e).engine e with owner := none }
  have hrun : (z.counted e).choose e = x.grant e i q := by
    unfold Arb.choose
    have : ((z.counted e).setEngine e { (z.counted e).engine e with owner := none }).top e = some (i, q) := h
    dsimp only
    rw [this]
  have hx : x.engine e = { (z.counted e).engine e with owner := none } := Arb.engine_setEngine ..
  rw [hrun]
  have hd := z.grant_decided e (x := x) i q rfl rfl fun f hf => (Arb.engine_setEngine_ne _ _ hf).trans (z.counted_engine_ne e hf)
  rwa [hx, z.counted_engine] at hd

theorem Arb.hold_keeps {j : Nat} {o : Req} (h : ∀ i q, z.top e = some (i, q) → z.rank i ≤ z.rank j) :
    Decided z ((z.counted e).hold e j o) e (some (j, o)) (z.engine e).grants (z.engine e).voidsAfter := by
  let x := (z.counted e).setEngine e { (z.counted e).engine e with owner := some (j, o) }
  have hrun : (z.counted e).hold e j o = x := by
    unfold Arb.hold
    have htop : x.top e = z.top e := rfl
    dsimp only
    rw [htop]
    split
    · rfl
    · rename_i i q hq
      exact if_pos (h i q hq)
  rw [hrun]
  exact z.setEngine_decided e (x := z.counted e) (y := { (z.counted e).engine e with owner := some (j, o) })
    (z.counted_grants e) (z.counted_voids e) rfl rfl fun f hf => z.counted_engine_ne e hf

theorem Arb.hold_gives {i j : Nat} {o q : Req} (h : z.top e = some (i, q)) (hr : z.rank j < z.rank i) :
    Decided z ((z.counted e).hold e j o) e (some (i, { q with preempted := false })) (satInc (z.engine e).grants) (z.engine e).voidsAfter
    ∧ (((z.counted e).hold e j o).engine e).preempts = satInc (z.engine e).preempts
    ∧ (((z.counted e).hold e j o).inputQ j e).head? = some { o with preempted := true } := by
  let x := (z.counted e).setEngine e { (z.counted e).engine e with owner := some (j, o) }
  let w := x.setEngine e { x.engine e with preempts := satInc (x.engine e).preempts }
  let v := w.setInputQ j e ({ o with preempted := true } :: w.inputQ j e)
  have hrun : (z.counted e).hold e j o = v.grant e i q := by
    unfold Arb.hold
    have htop : ((z.counted e).setEngine e { (z.counted e).engine e with owner := some (j, o) }).top e = some (i, q) := h
    dsimp only
    rw [htop]
    exact if_neg (Nat.not_le.2 hr)
  have hx : x.engine e = { (z.counted e).engine e with owner := some (j, o) } := Arb.engine_setEngine ..
  have hv : v.engine e = { x.engine e with preempts := satInc (x.engine e).preempts } :=
    (w.engine_setInputQ ..).trans (Arb.engine_setEngine ..)
  have hne : ∀ f, f ≠ e → v.engine f = z.engine f := fun f hf =>
    (w.engine_setInputQ ..).trans ((Arb.engine_setEngine_ne _ _ hf).trans ((Arb.engine_setEngine_ne _ _ hf).trans (z.counted_engine_ne e hf)))
  rw [hrun]
  refine ⟨?_, ?_, ?_⟩
  · have hd := z.grant_decided e (x := v) i q rfl rfl hne
    rwa [hv, hx, z.counted_engine] at hd
  · refine (congrArg EngArb.preempts (Arb.engine_setEngine ..)).trans ?_
    show (v.engine e).preempts = _
    rw [hv, hx, z.counted_engine]
  · have hij : j ≠ i := fun h => by subst h; exact Nat.lt_irrefl _ hr
    show (((v.setInputQ i e ((v.inputQ i e).erase q)).inputQ j e)).head? = _
    rw [Arb.inputQ_setInputQ_ne _ _ _ hij, Arb.inputQ_setInputQ]
    rfl

/-- Off the digest engine the end of a request lets the highest rank have the engine. -/
theorem Arb.follow_chooses {x : Arb} {j : Nat} {o : Req} (he : e ≠ 3) : x.follow e j o = x.choose e := by
  unfold Arb.follow
  split
  · rfl
  · exact if_neg fun h => he h.1

/-- Requests that end leave the engines' counters and the maps. -/
theorem Arb.setInputQs_keeps (f : Nat → Arb → List Req) (l : List Nat) : ∀ x : Arb,
    (l.foldl (fun x i => x.setInputQ i e (f i x)) x).eng = x.eng ∧ (l.foldl (fun x i => x.setInputQ i e (f i x)) x).liveLo = x.liveLo
      ∧ (l.foldl (fun x i => x.setInputQ i e (f i x)) x).liveHi = x.liveHi := by
  induction l with
  | nil => exact fun x => ⟨rfl, rfl, rfl⟩
  | cons i r ih => exact fun x => ih _

theorem Arb.engine_of_eng {x y : Arb} (h : x.eng = y.eng) (f : Nat) : x.engine f = y.engine f := by rw [Arb.engine, h, Arb.engine]

theorem Arb.endReq_all :
    Decided z ((z.counted e).endReq e fun _ => true) e none (z.engine e).grants (z.engine e).voidsAfter := by
  obtain ⟨heng, hlo, hhi⟩ := Arb.setInputQs_keeps e (fun i x => (x.inputQ i e).filter fun _ => !true) (List.range 16) (z.counted e)
  unfold Arb.endReq
  dsimp only at heng hlo hhi ⊢
  generalize (List.range 16).foldl (fun x i => x.setInputQ i e ((x.inputQ i e).filter fun _ => !true)) (z.counted e) = x at heng hlo hhi ⊢
  have hx : ∀ f, x.engine f = (z.counted e).engine f := Arb.engine_of_eng heng
  have hne : ∀ f, f ≠ e → x.engine f = z.engine f := fun f hf => (hx f).trans (z.counted_engine_ne e hf)
  have hg : (x.engine e).grants = (z.engine e).grants := by rw [hx, z.counted_engine]
  have hv : (x.engine e).voids = (z.engine e).voidsAfter := by rw [hx, z.counted_engine]
  split
  · exact z.setEngine_decided e (x := x) (y := { x.engine e with owner := none, fresh := false }) hg hv hlo hhi hne
  · rename_i h
    exact ⟨h, hg, hv, hlo, hhi, hne⟩

end

/-- The engine's part of a decision on an arbiter that is up to date. -/
def Arb.decided (z : Arb) (e : Nat) : Arb :=
  if (z.engine e).oos then (z.counted e).endReq e fun _ => true
  else
    match (z.engine e).owner with
    | none => (z.counted e).choose e
    | some (j, q) => if { q with done := q.done + 1 }.more then (z.counted e).hold e j { q with done := q.done + 1 }
        else (z.counted e).follow e j { q with done := q.done + 1 }

theorem Arb.decide_eq (x : Arb) (e : Nat) :
    x.decide e = if ((x.upTo e).decided e).coming.isSome then { (x.upTo e).decided e with seen := e :: ((x.upTo e).decided e).seen }
      else (x.upTo e).decided e := rfl

/-- A decision marks the engine as having decided, and changes nothing else behind the engine's part. -/
theorem Arb.decide_reads (x : Arb) (e : Nat) :
    (x.decide e).eng = ((x.upTo e).decided e).eng ∧ (x.decide e).queue = ((x.upTo e).decided e).queue
    ∧ (x.decide e).liveLo = ((x.upTo e).decided e).liveLo ∧ (x.decide e).liveHi = ((x.upTo e).decided e).liveHi := by
  rw [x.decide_eq]
  split
  · exact ⟨rfl, rfl, rfl, rfl⟩
  · exact ⟨rfl, rfl, rfl, rfl⟩

theorem Decided.decide {x : Arb} {e : Nat} {o : Option (Nat × Req)} {g v : Word32} (h : Decided (x.upTo e) ((x.upTo e).decided e) e o g v) :
    Decided (x.upTo e) (x.decide e) e o g v := by
  obtain ⟨heng, -, hlo, hhi⟩ := x.decide_reads e
  have he : ∀ f, (x.decide e).engine f = ((x.upTo e).decided e).engine f := Arb.engine_of_eng heng
  exact ⟨by rw [he, h.owner], by rw [he, h.grants], by rw [he, h.voids], hlo.trans h.liveLo, hhi.trans h.liveHi, fun f hf => (he f).trans (h.engines f hf)⟩

theorem Arb.decided_oos {z : Arb} {e : Nat} (h : (z.engine e).oos = true) : z.decided e = (z.counted e).endReq e fun _ => true := if_pos h

theorem Arb.decided_idle {z : Arb} {e : Nat} (h : (z.engine e).oos = false) (ho : (z.engine e).owner = none) : z.decided e = (z.counted e).choose e := by
  unfold Arb.decided
  rw [if_neg (by simp [h]), ho]

theorem Arb.decided_more {z : Arb} {e j : Nat} {o : Req} (h : (z.engine e).oos = false) (ho : (z.engine e).owner = some (j, o))
    (hm : { o with done := o.done + 1 }.more = true) : z.decided e = (z.counted e).hold e j { o with done := o.done + 1 } := by
  unfold Arb.decided
  rw [if_neg (by simp [h]), ho]
  exact if_pos hm

theorem Arb.decided_ended {z : Arb} {e j : Nat} {o : Req} (he : e ≠ 3) (h : (z.engine e).oos = false) (ho : (z.engine e).owner = some (j, o))
    (hm : { o with done := o.done + 1 }.more = false) : z.decided e = (z.counted e).choose e := by
  unfold Arb.decided
  rw [if_neg (by simp [h]), ho]
  exact (if_neg (by simp [hm])).trans (Arb.follow_chooses e he)

/-! ### The commands -/

variable (s : State)

theorem noteProgress_keeps (a e : Nat) : s.keeps (s.noteProgress a e) [.eng] := by
  unfold State.noteProgress
  split
  · exact .refl _ _
  · exact .ite (keeps_eng s _ (by decide)) (.ite (keeps_eng s _ (by decide)) (.refl _ _))

theorem noteProgress_arbs (a e : Nat) : (s.noteProgress a e).eng.arbs = s.eng.arbs := by
  unfold State.noteProgress
  split
  · rfl
  · dsimp only
    split
    · rfl
    · split <;> rfl

/-- A decision of an engine that is no digest engine: the arbiter decides, and waiting OPENs may be served. -/
theorem exec_arbiterDecision {a : Fin 12} {e : Fin 4} (hup : s.arbUp a.val = true) (he : a.val < 8 ∧ e.val < 3 ∨ 8 ≤ a.val ∧ e.val = 0) :
    ∃ t, exec (.arbiterDecision a e) s = .next t ∧ s.keeps t [.eng] ∧ (∀ b, b ≠ a.val → t.arb b = s.arb b)
      ∧ t.arb a.val = (s.arb a.val).decide e.val := by
  let u := s.noteProgress a.val e.val
  have hu : ∀ b, u.arb b = s.arb b := fun b => by rw [State.arb, noteProgress_arbs, State.arb]
  let v := u.setArb a.val ((u.arb a.val).decide e.val)
  have hv : s.keeps v [.eng] := (noteProgress_keeps s _ _).trans (keeps_eng u _ (by decide))
  let arrives := (u.arb a.val).coming.isSome && (u.arb a.val).seen.contains e.val
  let w := if arrives && decide (a.val < 8) then v.serveAllOpens else v
  have hw : s.keeps w [.eng] ∧ ∀ b, w.arb b = v.arb b := by
    cases hserve : arrives && decide (a.val < 8) with
    | true =>
      have hwv : w = v.serveAllOpens := if_pos hserve
      rw [hwv]
      exact ⟨hv.trans (serveAllOpens_keeps v), fun b => by rw [State.arb, serveAllOpens_arbs, State.arb]⟩
    | false =>
      have hwv : w = v := if_neg (Bool.eq_false_iff.1 hserve)
      rw [hwv]
      exact ⟨hv, fun _ => rfl⟩
  refine ⟨s.settled w, ?_, hw.1.settled, fun b hb => ?_, ?_⟩
  · refine congrArg (answer s) ?_
    rw [if_neg (by simp [hup]; omega)]
    exact if_neg (by omega)
  · exact (hw.2 b).trans ((u.arb_setArb_ne _ hb).trans (hu b))
  · refine (hw.2 _).trans ((u.arb_setArb ..).trans ?_)
    rw [hu]

theorem exec_arbiterDecision_off {a : Fin 12} {e : Fin 4} (h : s.arbUp a.val = false ∨ (8 ≤ a.val ∧ e.val ≠ 0)) :
    exec (.arbiterDecision a e) s = .next (s.settled s) := by
  refine congrArg (answer s) (if_pos ?_)
  rcases h with h | h
  · simp [h]
  · simp only [decide_eq_true h, Bool.or_true]

/-- A command that sets arbiter a alone. -/
theorem setArb_only (a : Nat) (x : Arb) :
    s.keeps (s.settled (s.setArb a x)) [.eng] ∧ (∀ b, b ≠ a → (s.settled (s.setArb a x)).arb b = s.arb b)
    ∧ (s.settled (s.setArb a x)).arb a = x :=
  ⟨(keeps_eng s _ (by decide)).settled, fun _ hb => s.arb_setArb_ne _ hb, s.arb_setArb ..⟩

theorem Arb.commit_live (x : Arb) (lo : Word32) (hi : BitVec 28) :
    (x.coming = none → (x.commit lo hi).liveLo = x.liveLo ∧ (x.commit lo hi).liveHi = x.liveHi)
    ∧ (∀ m, x.coming = some m → ((x.commit lo hi).liveLo, (x.commit lo hi).liveHi) = m) ∧ (x.commit lo hi).mapErr = x.mapErr := by
  refine ⟨x.arrived_live.2.1, x.arrived_live.1, ?_⟩
  show x.arrived.mapErr = x.mapErr
  unfold Arb.arrived
  split <;> rfl

/-- Settles O44: the map commands set their arbiter; a decision is `Arb.decide`, whose engine's part goes by what the engine holds. -/
theorem arbitersDecide : Obligations.ArbitersDecide := by
  intro a s x others
  refine ⟨fun hup hok => ?_, fun hup hbad => ?_, fun hup hrot => ?_, fun h => ?_, fun hup => ?_, fun e he => ?_, fun e hup he => ?_⟩
  · obtain ⟨hk, ho, ha⟩ := setArb_only s a.val (x.commit x.pendLo x.pendHi)
    have hrun : exec (.mapCommit a) s = .next (s.settled (s.setArb a.val (x.commit x.pendLo x.pendHi))) :=
      congrArg (answer s) ((if_pos hup).trans (congrArg (s.setArb a.val) (if_pos hok)))
    obtain ⟨hnone, hsome, herr⟩ := x.commit_live x.pendLo x.pendHi
    refine ⟨_, hrun, ⟨hk, ho⟩, ?_⟩
    rw [ha]
    exact ⟨rfl, rfl, herr, rfl, hnone, hsome⟩
  · obtain ⟨hk, ho, ha⟩ := setArb_only s a.val { x with mapErr := true }
    exact ⟨_, congrArg (answer s) ((if_pos hup).trans (congrArg (s.setArb a.val) (if_neg (Bool.eq_false_iff.1 hbad)))), ⟨hk, ho⟩, ha⟩
  · obtain ⟨hk, ho, ha⟩ := setArb_only s a.val x.rotate
    refine ⟨_, BitVec.ofNat 32 (rotateRanks ((List.range 15).map x.arrived.rank)).1, BitVec.ofNat 28 (rotateRanks ((List.range 15).map x.arrived.rank)).2,
      congrArg (answer s) (if_pos (by rw [hup]; exact hrot)), ⟨hk, ho⟩, ?_, ?_, fun i hi => rankIn_rotateRanks x.arrived.rank hi⟩
    · exact congrArg Arb.coming ha
    · exact congrArg Arb.rotCount ha
  · have hoff : ¬(s.arbUp a.val && (s.arb a.val).rotEn) = true := by
      rcases h with h | h
      · simp [h]
      · have : (s.arb a.val).rotEn = false := h
        simp [this]
    exact ⟨_, congrArg (answer s) (if_neg hoff), s.sameBut_settled⟩
  · exact ⟨_, congrArg (answer s) (if_neg (by simp [hup])), s.sameBut_settled⟩
  · exact ⟨_, exec_arbiterDecision_off s he, s.sameBut_settled⟩
  · intro y z gives
    obtain ⟨t, hrun, hk, ho, ha⟩ := exec_arbiterDecision s hup he
    have he3 : e.val ≠ 3 := by omega
    have hy : z.engine e.val = y := x.upTo_engine e.val e.val
    have gives_of : ∀ {o : Option (Nat × Req)} {n : Word32}, Decided z (z.decided e.val) e.val o n (z.engine e.val).voidsAfter → gives o n := by
      intro o n h
      have hd := h.decide
      rw [hy] at hd
      refine ⟨t, hrun, ⟨hk, ho⟩, ?_⟩
      rw [ha]
      exact ⟨hd.owner, hd.grants, hd.voids, hd.liveLo, hd.liveHi, fun f hf => (hd.engines f hf).trans (x.upTo_engine ..)⟩
    rw [← hy]
    refine ⟨fun hoos => gives_of ?_, fun hoos hown htop => gives_of ?_, fun hoos hown i q htop => gives_of ?_,
      fun hoos j o hown hmore hrank => gives_of ?_, fun hoos j o hown hmore i q htop hrank => ⟨gives_of ?_, t, hrun, ?_⟩,
      fun hoos j o hown hmore => ⟨fun htop => gives_of ?_, fun i q htop => gives_of ?_⟩⟩
    · rw [Arb.decided_oos hoos]
      exact z.endReq_all e.val
    · rw [Arb.decided_idle hoos hown]
      exact z.choose_none e.val htop
    · rw [Arb.decided_idle hoos hown]
      exact z.choose_some e.val htop
    · rw [Arb.decided_more hoos hown hmore]
      exact z.hold_keeps e.val hrank
    · rw [Arb.decided_more hoos hown hmore]
      exact (z.hold_gives e.val htop hrank).1
    · obtain ⟨-, hpre, hq⟩ := z.hold_gives e.val (o := { o with done := o.done + 1 }) htop hrank
      rw [← Arb.decided_more hoos hown hmore] at hpre hq
      obtain ⟨heng, hqueue, -, -⟩ := x.decide_reads e.val
      rw [ha]
      refine ⟨?_, ?_⟩
      · exact (congrArg (fun m => (mget m e.val {} : EngArb).preempts) heng).trans hpre
      · exact (congrArg (fun m => (mget m (4 * j + e.val) [] : List Req).head?) hqueue).trans hq
    · rw [Arb.decided_ended he3 hoos hown hmore]
      exact z.choose_none e.val htop
    · rw [Arb.decided_ended he3 hoos hown hmore]
      exact z.choose_some e.val htop

end Sys2Proof.Machine
end

section
/-! Edges, windows, lock and the loads of the time counter (15 R363 to R366). -/

namespace Sys2Proof.Machine

/-! ### The time behind each operation -/

/-- The time with LOCK v. -/
def Time.locked (t : Time) (v : Bool) : Time := if t.lock = v then t else { t with lock := v, lockEver := t.lockEver || v }

/-- The time loaded with v. -/
def Time.loaded (t : Time) (v : Word64) : Time := { t with counter := v, frac := 0, valid := true, setPending := false, holding := false }

/-- The time once LOCK has fallen. -/
def Time.fallen (t : Time) : Time :=
  if !t.lock then t
  else
    let u := { t.locked false with good := 0, badWindows := 0, trim := clampTrim t.lastF.toInt }
    if t.setPending then u.loaded t.setVal else u

section
variable (s : State)

theorem setLock_time (v : Bool) : (s.setLock v).time = s.time.locked v := by
  unfold State.setLock Time.locked
  split
  · rfl
  · exact (drains_raiseEvt _ 0 evPps).keeps.time_eq

theorem keeps_setLock (v : Bool) : s.keeps (s.setLock v) [.time, .host, .disp, .kr, .eng, .gate, .mesh] := by
  unfold State.setLock
  refine .ite (.refl _ _) ?_
  exact (keeps_time s _ (by decide)).trans (drains_raiseEvt _ 0 evPps).keeps.widen

theorem drains_delivers (l : List (Nat × Result)) : s.drains (l.foldl (fun s w => s.deliver w.1 w.2) s) :=
  .fold (fun s w => drains_deliver s w.1 w.2) l s

theorem loadTime_time (v : Word64) : (s.loadTime v).time = s.time.loaded v := (drains_delivers _ _).keeps.time_eq

theorem keeps_loadTime (v : Word64) : s.keeps (s.loadTime v) [.time, .host, .disp, .kr, .eng, .gate, .mesh] :=
  State.keeps.trans (keeps_time s (s.time.loaded v) (by decide)) (drains_delivers _ _).keeps.widen

theorem Time.locked_false_pending (t : Time) : (t.locked false).setPending = t.setPending ∧ (t.locked false).setVal = t.setVal
    ∧ (t.locked false).lastF = t.lastF := by
  unfold Time.locked
  split <;> exact ⟨rfl, rfl, rfl⟩

/-- LOCK falls: the state but for the waiting load. -/
def State.unlocked (s : State) : State :=
  (s.setLock false).setTime { (s.setLock false).time with good := 0, badWindows := 0, trim := clampTrim (s.setLock false).time.lastF.toInt }

theorem lockFall_eq (h : s.time.lock = true) :
    s.lockFall = if s.unlocked.time.setPending then s.unlocked.loadTime s.unlocked.time.setVal else s.unlocked :=
  if_neg (by simp [h])

theorem lockFall_time : s.lockFall.time = s.time.fallen := by
  cases h : s.time.lock with
  | false => rw [State.lockFall, if_pos (by simp [h]), Time.fallen, if_pos (by simp [h])]
  | true =>
    obtain ⟨h1, h2, h3⟩ := s.time.locked_false_pending
    have hu : s.unlocked.time = { s.time.locked false with good := 0, badWindows := 0, trim := clampTrim s.time.lastF.toInt } := by
      show ({ (s.setLock false).time with good := 0, badWindows := 0, trim := clampTrim (s.setLock false).time.lastF.toInt } : Time) = _
      rw [setLock_time, h3]
    have hpend : s.unlocked.time.setPending = s.time.setPending := by rw [hu]; exact h1
    have hval : s.unlocked.time.setVal = s.time.setVal := by rw [hu]; exact h2
    have hfallen : s.time.fallen = if s.time.setPending then s.unlocked.time.loaded s.time.setVal else s.unlocked.time := by
      rw [hu]
      exact if_neg (by simp [h])
    rw [lockFall_eq s h, hpend, hval, hfallen, apply_ite State.time, loadTime_time]

theorem keeps_lockFall : s.keeps s.lockFall [.time, .host, .disp, .kr, .eng, .gate, .mesh] := by
  cases h : s.time.lock with
  | false => rw [State.lockFall, if_pos (by simp [h])]; exact .refl _ _
  | true =>
    rw [lockFall_eq s h]
    have hu : s.keeps s.unlocked [.time, .host, .disp, .kr, .eng, .gate, .mesh] := (keeps_setLock s false).trans (keeps_time _ _ (by decide))
    exact .ite (hu.trans (keeps_loadTime ..)) hu

end

/-! ### What a change of LOCK leaves of an edge -/

/-- From t to u LOCK has changed: what the edge noted stands, and a waiting load may have happened. -/
structure Time.relocks (t u : Time) : Prop where
  missing : u.missing = t.missing
  outOfWindow : u.outOfWindow = t.outOfWindow
  ppsOffset : u.ppsOffset = t.ppsOffset
  capt : u.capt = t.capt
  lastBoundary : u.lastBoundary = t.lastBoundary
  freqSeq : u.freqSeq = t.freqSeq
  load : (u.setPending = t.setPending ∧ u.counter = t.counter ∧ u.frac = t.frac)
    ∨ (t.setPending = true ∧ u.setPending = false ∧ u.counter = t.setVal ∧ u.valid = true)

theorem Time.relocks.refl (t : Time) : t.relocks t := ⟨rfl, rfl, rfl, rfl, rfl, rfl, .inl ⟨rfl, rfl, rfl⟩⟩

theorem Time.locked_relocks (t : Time) (v : Bool) : t.relocks (t.locked v) := by
  unfold Time.locked
  split
  · exact .refl t
  · exact ⟨rfl, rfl, rfl, rfl, rfl, rfl, .inl ⟨rfl, rfl, rfl⟩⟩

theorem Time.locked_lock (t : Time) (v : Bool) : (t.locked v).lock = v := by
  unfold Time.locked
  split
  · assumption
  · rfl

theorem Time.fallen_relocks (t : Time) : t.relocks t.fallen := by
  have h := t.locked_relocks false
  have hpend := t.locked_false_pending.1
  unfold Time.fallen
  split
  · exact .refl t
  · cases hp : t.setPending with
    | true => exact ⟨h.missing, h.outOfWindow, h.ppsOffset, h.capt, h.lastBoundary, h.freqSeq, .inr ⟨hp, rfl, rfl, rfl⟩⟩
    | false =>
      refine ⟨h.missing, h.outOfWindow, h.ppsOffset, h.capt, h.lastBoundary, h.freqSeq, .inl ⟨hpend, ?_⟩⟩
      rcases h.load with ⟨-, hc, hf⟩ | ⟨hs, -⟩
      · exact ⟨hc, hf⟩
      · rw [hp] at hs; cases hs

theorem Time.fallen_lock (t : Time) : t.fallen.lock = false := by
  unfold Time.fallen
  cases h : t.lock with
  | false => exact h
  | true =>
    dsimp only
    rw [if_neg (by decide)]
    split
    · exact t.locked_lock false
    · exact t.locked_lock false

theorem Time.fallen_trim (t : Time) (h : t.lock = true) : t.fallen.trim = clampTrim t.lastF.toInt := by
  unfold Time.fallen
  rw [if_neg (by simp [h])]
  dsimp only
  split <;> rfl

theorem Time.fallen_unlocked (t : Time) (h : t.lock = false) : t.fallen = t := if_pos (by simp [h])

/-! ### A counted edge (15 R363, R364) -/

/-- The time as an edge at boundary b with offset off is noted. -/
def Time.noted (t : Time) (b : Nat) (off : Int) : Time :=
  { t with ppsOffset := BitVec.ofInt 32 off, capt := t.counter, missing := false, outOfWindow := false, lastBoundary := some b
           good := if off.natAbs ≤ 500 then (if t.lastBoundary == some (b - second) then t.good + 1 else 1) else 0 }

/-- LOCK as the edge's offset leaves it. -/
def Time.judged (t : Time) (off : Int) : Time := if 10000 < off.natAbs then t.fallen else if 4 ≤ t.good then t.locked true else t

/-- The end of a counted edge: a waiting load, or a step without LOCK. -/
def Time.edgeEnd (t : Time) (pending : Bool) (v : Word64) (b : Nat) (off : Int) : Time :=
  if pending then { (if t.setPending then t.loaded v else t) with lastBoundary := some v.toNat }
  else if !t.lock && decide (500 < off.natAbs) then t.align b off
  else t

theorem countEdge_time (s : State) (b : Nat) (off : Int) (y : Word64) (n : Word32) :
    (s.countEdge b off y n).time
      = (if s.time.lastBoundary == some (b - second) then ((s.time.noted b off).judged off).post y n else (s.time.noted b off).judged off).edgeEnd
          s.time.setPending s.time.setVal b off := by
  let u := s.setTime (s.time.noted b off)
  let v := if 10000 < off.natAbs then u.lockFall else if 4 ≤ u.time.good then u.setLock true else u
  have hv : v.time = (s.time.noted b off).judged off := by
    have happly : v.time = if 10000 < off.natAbs then u.lockFall.time else if 4 ≤ u.time.good then (u.setLock true).time else u.time := by
      rw [← apply_ite State.time, ← apply_ite State.time]
    rw [happly, lockFall_time, setLock_time]
    rfl
  let w := if s.time.lastBoundary == some (b - second) then v.setTime (v.time.post y n) else v
  have hw : w.time = if s.time.lastBoundary == some (b - second) then ((s.time.noted b off).judged off).post y n else (s.time.noted b off).judged off := by
    rw [← hv]
    exact apply_ite State.time ..
  have hrun : s.countEdge b off y n = if s.time.setPending then
      (if w.time.setPending then w.loadTime s.time.setVal else w).setTime
        { (if w.time.setPending then w.loadTime s.time.setVal else w).time with lastBoundary := some s.time.setVal.toNat }
      else if !w.time.lock && decide (500 < off.natAbs) then w.setTime (w.time.align b off) else w := rfl
  have hl : State.time (if w.time.setPending = true then w.loadTime s.time.setVal else w)
      = if w.time.setPending = true then w.time.loaded s.time.setVal else w.time := by
    rw [apply_ite State.time, loadTime_time]
  have he : State.time (if !w.time.lock && decide (500 < off.natAbs) then w.setTime (w.time.align b off) else w)
      = if !w.time.lock && decide (500 < off.natAbs) then w.time.align b off else w.time := apply_ite State.time ..
  clear_value w
  rw [hrun, ← hw, Time.edgeEnd, ← hl, ← he, apply_ite State.time]
  rfl

theorem Time.judged_relocks (t : Time) (off : Int) : t.relocks (t.judged off) := by
  unfold Time.judged
  split
  · exact t.fallen_relocks
  · split
    · exact t.locked_relocks true
    · exact .refl t

/-- What a counted edge keeps once LOCK has been judged: y and n are the posted count where the edge follows on the last boundary. -/
structure Edged (t u : Time) (off : Int) (follows : Bool) (y : Word64) (n : Word32) : Prop where
  missing : u.missing = false
  outOfWindow : u.outOfWindow = false
  ppsOffset : u.ppsOffset = BitVec.ofInt 32 off
  capt : u.capt = t.counter
  lock : u.lock = (t.judged off).lock
  posted : follows = true → u.freqSeq = t.freqSeq + 1 ∧ u.freq = y ∧ u.aonCount = n
  unposted : follows = false → u.freqSeq = t.freqSeq

theorem Time.noted_lock (t : Time) (b : Nat) (off : Int) : (t.noted b off).lock = t.lock := rfl

theorem Time.judged_lock (t : Time) (off : Int) :
    (10000 < off.natAbs → (t.judged off).lock = false) ∧ (off.natAbs ≤ 10000 → t.lock = true → (t.judged off).lock = true)
    ∧ (off.natAbs ≤ 10000 → 4 ≤ t.good → (t.judged off).lock = true)
    ∧ (t.lock = false → (10000 < off.natAbs ∨ t.good < 4) → t.judged off = t) := by
  unfold Time.judged
  refine ⟨fun h => ?_, fun h hl => ?_, fun h hg => ?_, fun hl h => ?_⟩
  · rw [if_pos h]; exact t.fallen_lock
  · rw [if_neg (by omega)]
    split
    · exact t.locked_lock true
    · exact hl
  · rw [if_neg (by omega), if_pos hg]; exact t.locked_lock true
  · split
    · exact t.fallen_unlocked hl
    · exact if_neg (by omega)

theorem Time.edgeEnd_stands (t : Time) (p : Bool) (v : Word64) (b : Nat) (off : Int) :
    let u := t.edgeEnd p v b off
    u.missing = t.missing ∧ u.outOfWindow = t.outOfWindow ∧ u.ppsOffset = t.ppsOffset ∧ u.capt = t.capt ∧ u.lock = t.lock
    ∧ u.freqSeq = t.freqSeq ∧ u.freq = t.freq ∧ u.aonCount = t.aonCount := by
  intro u
  have hu : u = t.edgeEnd p v b off := rfl
  unfold Time.edgeEnd Time.align at hu
  split at hu
  · split at hu <;> (rw [hu]; exact ⟨rfl, rfl, rfl, rfl, rfl, rfl, rfl, rfl⟩)
  · split at hu
    · split at hu <;> (rw [hu]; exact ⟨rfl, rfl, rfl, rfl, rfl, rfl, rfl, rfl⟩)
    · rw [hu]; exact ⟨rfl, rfl, rfl, rfl, rfl, rfl, rfl, rfl⟩

theorem Time.edgeEnd_loads (t : Time) (v : Word64) (b : Nat) (off : Int) (h : t.setPending = true ∨ (t.setPending = false ∧ t.counter = v ∧ t.valid = true)) :
    (t.edgeEnd true v b off).counter = v ∧ (t.edgeEnd true v b off).setPending = false ∧ (t.edgeEnd true v b off).valid = true
    ∧ (t.edgeEnd true v b off).lastBoundary = some v.toNat := by
  unfold Time.edgeEnd
  rw [if_pos rfl]
  rcases h with h | ⟨h, hc, hv⟩
  · rw [if_pos h]; exact ⟨rfl, rfl, rfl, rfl⟩
  · rw [if_neg (by simp [h])]; exact ⟨hc, h, hv, rfl⟩

theorem Time.edgeEnd_steps (t : Time) (v : Word64) (b : Nat) (off : Int) :
    (t.edgeEnd false v b off).lastBoundary = t.lastBoundary
    ∧ (off.natAbs ≤ 500 → (t.edgeEnd false v b off).counter = t.counter)
    ∧ (500 < off.natAbs → t.lock = false → (off < 0 → (t.edgeEnd false v b off).counter = BitVec.ofNat 64 b ∧ (t.edgeEnd false v b off).frac = 0)
        ∧ (0 < off → (t.edgeEnd false v b off).counter = t.counter ∧ (t.edgeEnd false v b off).holding = true)) := by
  unfold Time.edgeEnd
  rw [if_neg (by decide)]
  refine ⟨?_, fun h => ?_, fun h hl => ?_⟩
  · split
    · unfold Time.align; split <;> rfl
    · rfl
  · rw [if_neg (by simp; omega)]
  · rw [if_pos (by simp [hl, h])]
    unfold Time.align
    exact ⟨fun hn => by rw [if_pos hn]; exact ⟨rfl, rfl⟩, fun hp => by rw [if_neg (by omega)]; exact ⟨rfl, rfl⟩⟩

/-! ### The commands -/

variable (s : State)

theorem nearest_eq (c : Nat) : nearest c = (c + 500000000) / 1000000000 * 1000000000 := rfl

/-- An edge that is counted: every field it sets, from the offset, what was noted before, and a waiting load. -/
theorem countEdge_spec (b : Nat) (off : Int) (y : Word64) (n : Word32) :
    let t := (s.countEdge b off y n).time
    let follows := s.time.lastBoundary = some (b - second)
    t.missing = false ∧ t.outOfWindow = false ∧ t.ppsOffset = BitVec.ofInt 32 off ∧ t.capt = s.time.counter
    ∧ (10000 < off.natAbs → t.lock = false) ∧ (off.natAbs ≤ 10000 → s.time.lock = true → t.lock = true)
    ∧ (off.natAbs ≤ 500 → follows → 3 ≤ s.time.good → t.lock = true)
    ∧ (follows → t.freqSeq = s.time.freqSeq + 1 ∧ t.freq = y ∧ t.aonCount = n) ∧ (¬follows → t.freqSeq = s.time.freqSeq)
    ∧ (s.time.setPending = true → t.counter = s.time.setVal ∧ t.setPending = false ∧ t.valid = true
        ∧ t.lastBoundary = some s.time.setVal.toNat)
    ∧ (s.time.setPending = false → t.lastBoundary = some b ∧ (off.natAbs ≤ 500 → t.counter = s.time.counter)
        ∧ (500 < off.natAbs → s.time.lock = false →
            (off < 0 → t.counter = BitVec.ofNat 64 b ∧ t.frac = 0) ∧ (0 < off → t.counter = s.time.counter ∧ t.holding = true))) := by
  intro t follows
  let w := s.time.noted b off
  have hj := w.judged_relocks off
  obtain ⟨hl1, hl2, hl3, hl4⟩ := w.judged_lock off
  let u := if s.time.lastBoundary == some (b - second) then (w.judged off).post y n else w.judged off
  have ht : t = u.edgeEnd s.time.setPending s.time.setVal b off := countEdge_time s b off y n
  have hu : u.missing = (w.judged off).missing ∧ u.outOfWindow = (w.judged off).outOfWindow ∧ u.ppsOffset = (w.judged off).ppsOffset
      ∧ u.capt = (w.judged off).capt ∧ u.lock = (w.judged off).lock ∧ u.lastBoundary = (w.judged off).lastBoundary
      ∧ u.setPending = (w.judged off).setPending ∧ u.counter = (w.judged off).counter ∧ u.valid = (w.judged off).valid := by
    cases hf : s.time.lastBoundary == some (b - second) with
    | true =>
      have hu : u = (w.judged off).post y n := if_pos hf
      rw [hu]
      exact ⟨rfl, rfl, rfl, rfl, rfl, rfl, rfl, rfl, rfl⟩
    | false =>
      have hu : u = w.judged off := if_neg (Bool.eq_false_iff.1 hf)
      rw [hu]
      exact ⟨rfl, rfl, rfl, rfl, rfl, rfl, rfl, rfl, rfl⟩
  obtain ⟨u1, u2, u3, u4, u5, u6, u7, u8, u9⟩ := hu
  obtain ⟨e1, e2, e3, e4, e5, e6, e7, e8⟩ := u.edgeEnd_stands s.time.setPending s.time.setVal b off
  rw [← ht] at e1 e2 e3 e4 e5 e6 e7 e8
  have hlock : t.lock = (w.judged off).lock := e5.trans u5
  refine ⟨e1.trans (u1.trans hj.missing), e2.trans (u2.trans hj.outOfWindow), e3.trans (u3.trans hj.ppsOffset), e4.trans (u4.trans hj.capt),
    fun h => hlock.trans (hl1 h), fun h hl => hlock.trans (hl2 h hl), fun h hf hg => hlock.trans (hl3 (by omega) ?_), fun hf => ?_, fun hf => ?_,
    fun hp => ?_, fun hp => ?_⟩
  · have hgood : w.good = s.time.good + 1 := (if_pos h).trans (if_pos (beq_iff_eq.2 hf))
    omega
  · have hpost : u = (w.judged off).post y n := if_pos (beq_iff_eq.2 hf)
    rw [e6, e7, e8, hpost]
    exact ⟨congrArg (· + 1) hj.freqSeq, rfl, rfl⟩
  · have hpost : u = w.judged off := if_neg (by simpa using hf)
    rw [e6, hpost]
    exact hj.freqSeq
  · rw [ht, hp]
    refine u.edgeEnd_loads s.time.setVal b off ?_
    rw [u7, u8, u9]
    exact hj.load.imp (fun h => h.1.trans hp) fun h => h.2
  · have hload : (w.judged off).counter = s.time.counter := by
      rcases hj.load with h | h
      · exact h.2.1
      · exact absurd (hp.symm.trans h.1) (by decide)
    obtain ⟨h1, h2, h3⟩ := u.edgeEnd_steps s.time.setVal b off
    rw [ht, hp]
    refine ⟨h1.trans (u6.trans hj.lastBoundary), fun h => (h2 h).trans (u8.trans hload), fun h hl => ?_⟩
    have hgood : w.good = 0 := if_neg (by omega)
    have hunlocked : u.lock = false := by
      rw [u5, hl4 hl (.inr (by omega))]
      exact hl
    exact (h3 h hunlocked).imp_right fun k hpos => ⟨(k hpos).1.trans (u8.trans hload), (k hpos).2⟩

/-- The time as a window closes, before LOCK may fall. -/
def Time.windowClosed (t : Time) (held : Bool) : Time :=
  { t with missing := t.missing || !held, good := if held then t.good else 0, deltas := if held then t.deltas else []
           badWindows := if !held || t.outOfWindow then t.badWindows + 1 else 0 }

theorem exec_ppsWindowClose (h : s.time.ppsEn = true) :
    let held := s.time.lastBoundary == some (nearest s.time.counter.toNat)
    let u := s.setTime (s.time.windowClosed held)
    exec .ppsWindowClose s = .next (s.settled (if 3 ≤ u.time.badWindows then u.lockFall else u)) :=
  congrArg (answer s) (if_neg (by simp [h]))

theorem setTime_only (t : Time) : s.keeps (s.settled (s.setTime t)) [.time] := (keeps_time s t (by decide)).settled

/-- Settles O41: `countEdge_spec` for a counted edge, `Time.windowClosed` and `Time.fallen` for a window. -/
theorem timeKept : Obligations.TimeKept := by
  intro s c b off follows
  refine ⟨fun y n => ⟨fun h => ?_, fun h hoff => ?_, fun h hoff hb => ?_, fun h hoff hb => ?_⟩, fun h => ?_, fun h => ?_, ?_, ?_, ?_⟩
  · exact ⟨_, congrArg (answer s) (if_pos (by simp [h])), s.sameBut_settled⟩
  · have hrun : exec (.ppsEdge y n) s = answer s (if s.time.lock then s.setTime { s.time with outOfWindow := true }
        else s.setTime { s.time with outOfWindow := true, counter := BitVec.ofNat 64 ((c / second + 1) * second), frac := 0 }) :=
      congrArg (answer s) ((if_neg (by simp [h])).trans (if_pos hoff))
    cases hl : s.time.lock with
    | true => exact ⟨_, hrun.trans (congrArg (answer s) (if_pos hl)), setTime_only .., rfl, fun _ => rfl, fun k => by cases k⟩
    | false =>
      exact ⟨_, hrun.trans (congrArg (answer s) (if_neg (Bool.eq_false_iff.1 hl))), setTime_only .., rfl, fun k => (by cases k), fun _ => ⟨rfl, rfl⟩⟩
  · have hrun : exec (.ppsEdge y n) s = answer s (s.setTime { s.time with outOfWindow := true }) :=
      congrArg (answer s) ((if_neg (by simp [h])).trans ((if_neg (Nat.not_lt.2 hoff)).trans (if_pos hb)))
    exact ⟨_, hrun, setTime_only .., rfl⟩
  · have hrun : exec (.ppsEdge y n) s = answer s (s.countEdge b off y n) :=
      congrArg (answer s) ((if_neg (by simp [h])).trans ((if_neg (Nat.not_lt.2 hoff)).trans (if_neg hb)))
    obtain ⟨h1, h2, h3, h4, h5, h6, h7, h8, h9, h10, h11⟩ := countEdge_spec s b off y n
    refine ⟨_, hrun, h1, h2, h3, h4, h5, h6, h7, h8, h9, h10, fun hp => ?_⟩
    obtain ⟨k1, k2, k3⟩ := h11 hp
    refine ⟨k1, k2, fun hfar hl => ⟨fun hneg => ?_, (k3 hfar hl).2⟩⟩
    obtain ⟨hc, hf⟩ := (k3 hfar hl).1 hneg
    exact ⟨(congrArg BitVec.toNat hc).trans (BitVec.toNat_ofNat ..), hf⟩
  · exact ⟨_, congrArg (answer s) (if_pos (by simp [h])), s.sameBut_settled⟩
  · let held := s.time.lastBoundary == some b
    let u := s.setTime (s.time.windowClosed held)
    have hrun : exec .ppsWindowClose s = .next (s.settled (if 3 ≤ u.time.badWindows then u.lockFall else u)) := exec_ppsWindowClose s h
    have hku : s.keeps u [.time] := keeps_time s _ (by decide)
    have hmiss : ∀ v : State, v.time.missing = u.time.missing →
        (s.time.lastBoundary = some b → v.time.missing = s.time.missing) ∧ (s.time.lastBoundary ≠ some b → v.time.missing = true) := by
      intro v hv
      rw [hv]
      refine ⟨fun hb => ?_, fun hb => ?_⟩
      · have : held = true := beq_iff_eq.2 hb
        show (s.time.missing || !held) = _
        rw [this]; simp
      · have : held = false := beq_eq_false_iff_ne.2 hb
        show (s.time.missing || !held) = _
        rw [this]; simp
    have hbad : (s.time.lastBoundary ≠ some b ∨ s.time.outOfWindow = true) → u.time.badWindows = s.time.badWindows + 1 := by
      intro hb
      refine if_pos ?_
      rcases hb with hb | hb
      · have : held = false := beq_eq_false_iff_ne.2 hb
        simp [this]
      · simp [hb]
    have hgood : s.time.lastBoundary = some b → s.time.outOfWindow = false → u.time.badWindows = 0 := by
      intro hb ho
      have : held = true := beq_iff_eq.2 hb
      exact if_neg (by simp [this, ho])
    by_cases h3 : 3 ≤ u.time.badWindows
    · rw [if_pos h3] at hrun
      have hlt := lockFall_time u
      obtain ⟨m1, m2⟩ := hmiss u.lockFall (by rw [hlt]; exact u.time.fallen_relocks.missing)
      refine ⟨_, hrun, (hku.widen.trans (keeps_lockFall u).widen).settled, m1, m2, fun hb ho => ?_, fun hb hlt => ?_, fun hb hge => ⟨?_, fun hl => ?_⟩⟩
      · rw [hgood hb ho] at h3; omega
      · rw [hbad hb] at h3; omega
      · exact (congrArg Time.lock hlt).trans u.time.fallen_lock
      · exact (congrArg Time.trim hlt).trans (u.time.fallen_trim hl)
    · rw [if_neg h3] at hrun
      obtain ⟨m1, m2⟩ := hmiss u rfl
      refine ⟨_, hrun, hku.settled.widen, m1, m2, fun hb ho => ⟨hku.settled, hgood hb ho, rfl⟩, fun hb hlt => ⟨hku.settled, hbad hb, rfl⟩,
        fun hb hge => ?_⟩
      rw [hbad hb] at h3; omega
  · exact ⟨_, rfl, loadTime_time s s.time.setVal⟩
  · exact ⟨_, rfl, setTime_only .., rfl⟩
  · exact ⟨_, rfl, setTime_only .., rfl⟩

end Sys2Proof.Machine
end

section
/-! The seed queue's service, cluster operations, and power domains switched on and off (11 R265 to R270; 15 R369, R375, R378; 12 R286). -/

namespace Sys2Proof.Machine

variable (s : State)

/-! ### What the seed queue's service leaves alone -/

theorem keeps_setExpander (c : Nat) (x : Expander) : s.keeps (s.setExpander c x) [.ent] := keeps_ent s _ (by decide)

theorem keeps_seedServeOne (u : SeedUser) : s.keeps (s.seedServeOne u) [.ent, .eng, .kr] := by
  have hq : s.keeps { s with ent := { s.ent with queue := s.ent.queue.drop u.words } } [.ent, .eng, .kr] := keeps_ent s _ (by decide)
  unfold State.seedServeOne
  cases u with
  | instantiate c => exact hq.trans ((keeps_ent _ _ (by decide)).trans (keeps_eng _ _ (by decide)))
  | keyRegister => exact hq.trans (keeps_kr _ _ (by decide))
  | leave c => exact hq.trans (keeps_ent _ _ (by decide))
  | late c => exact hq.trans (keeps_ent _ _ (by decide))
  | early c => exact hq.trans (keeps_ent _ _ (by decide))

theorem keeps_seedServe (f : Nat) : ∀ s : State, s.keeps (s.seedServe f) [.ent, .eng, .kr] := by
  induction f with
  | zero => exact fun s => .refl _ _
  | succ f ih =>
    intro s
    unfold State.seedServe
    split
    · exact .refl _ _
    · exact .ite ((keeps_seedServeOne s _).trans (ih _)) (.refl _ _)

theorem keeps_wardenCalls (k : Nat) : ∀ (s t : State) (b : Bytes), s.wardenCalls k = some (t, b) → s.keeps t [.ent] := by
  induction k with
  | zero =>
    intro s t b h
    cases h
    exact .refl _ _
  | succ k ih =>
    intro s t b h
    unfold State.wardenCalls at h
    dsimp only at h
    split at h
    · obtain ⟨⟨u, b'⟩, hu, he⟩ := Option.map_eq_some_iff.1 h
      cases he
      exact (keeps_setExpander s _ _).trans (ih _ _ _ hu)
    · cases h

theorem keeps_newNonce : s.keeps s.newNonce [.ent, .life] := by
  unfold State.newNonce
  split
  · rename_i t b h
    exact (keeps_wardenCalls 2 s t b h).widen.trans (keeps_life t _ (by decide))
  · exact keeps_life s _ (by decide)

theorem keeps_freshNonce : s.keeps s.freshNonce [.ent, .life] := by
  unfold State.freshNonce
  exact .ite (keeps_newNonce s) (.refl _ _)

theorem keeps_raiseEvt (n i : Nat) : s.keeps (s.raiseEvt n i) [.host] := by
  obtain ⟨f, p, h⟩ := s.raiseEvt_host n i
  rw [h]
  exact keeps_host s _ (by decide)

theorem keeps_raiseAll (i : Nat) : s.keeps (s.raiseAll i) [.host] := .fold (fun s n => keeps_raiseEvt s n i) _ s

theorem keeps_entReadyCheck : s.keeps s.entReadyCheck [.ent, .life, .host] := by
  unfold State.entReadyCheck
  refine .ite (.refl _ _) (.ite ?_ (.refl _ _))
  have h1 : s.keeps { s with ent := { s.ent with ready := true } } [.ent, .life, .host] := keeps_ent s _ (by decide)
  exact h1.trans ((keeps_freshNonce _).widen.trans (keeps_raiseAll _ _).widen)

theorem keeps_seedQueue : s.keeps s.seedQueue [.ent, .eng, .kr, .life, .host] := by
  have h : s.keeps (s.seedServe 32).entReadyCheck [.ent, .eng, .kr, .life, .host] :=
    (keeps_seedServe 32 s).widen.trans (keeps_entReadyCheck _).widen
  unfold State.seedQueue
  exact .ite (.ite (h.trans (keeps_freshNonce _).widen) h) (.refl _ _)

theorem keeps_expanderCall (c : Nat) : s.keeps (s.expanderCall c).1 [.ent, .eng, .kr, .life, .host] := by
  unfold State.expanderCall
  dsimp only
  split
  · exact (keeps_setExpander s _ _).widen.trans (keeps_seedQueue _)
  · split
    · exact (keeps_setExpander s _ _).widen.trans (keeps_seedQueue _)
    · exact .refl _ _

theorem keeps_maskSeed (c : Nat) : s.keeps (s.maskSeed c).1 [.ent, .eng, .kr, .life, .host] := by
  have h1 := keeps_expanderCall s c
  unfold State.maskSeed
  split
  · rename_i t a h
    rw [h] at h1
    have h2 := keeps_expanderCall t c
    split
    · rename_i u b h'
      rw [h'] at h2
      exact h1.trans h2
    · exact h1.trans h2
  · exact h1

theorem keeps_pauSeed (u : Nat) : s.keeps (s.pauSeed u) [.ent, .eng, .kr, .life, .host] := by
  unfold State.pauSeed
  split
  · exact .refl _ _
  · rename_i c _
    have h1 := keeps_maskSeed s c
    split
    · rename_i t b h
      rw [h] at h1
      exact h1.trans (keeps_eng t _ (by decide))
    · rename_i t h
      rw [h] at h1
      exact h1

theorem keeps_pauSeeds : s.keeps s.pauSeeds [.ent, .eng, .kr, .life, .host] :=
  .fold (fun s u => .ite (keeps_pauSeed s u) (.refl _ _)) _ s

theorem keeps_serveCalls (c f : Nat) : ∀ s : State, s.keeps (State.serveCalls c f s) [.ent, .eng, .kr, .life, .host, .disp] := by
  induction f with
  | zero => exact fun s => .refl _ _
  | succ f ih =>
    intro s
    unfold State.serveCalls
    split
    · exact .refl _ _
    · rename_i q _
      refine .ite (.refl _ _) ?_
      have h1 : s.keeps (s.setExpander c { s.expander c with waits := (s.expander c).waits.erase q }) [.ent, .eng, .kr, .life, .host, .disp] :=
        (keeps_setExpander s _ _).widen
      refine State.keeps.trans (h1.trans (.ite ?_ (.ite ?_ (.refl _ _)))) (ih _)
      · exact (keeps_expanderCall _ c).widen
      · exact (keeps_unwait _ _).widen

theorem keeps_resumeRandom : s.keeps s.resumeRandom [.ent, .eng, .kr, .life, .host, .disp] :=
  .fold (fun s c => keeps_serveCalls c _ s) _ s

/-! ### Cluster operations (15 R378) -/

/-- A step of the cluster operations: no domain is switched. -/
structure State.runsOps (s t : State) : Prop where
  keeps : s.keeps t [.host, .disp, .kr, .eng, .gate, .mesh, .pwr]
  domains : t.pwr.domains = s.pwr.domains

section
variable {s} {t u : State}

theorem State.runsOps.refl (s : State) : s.runsOps s := ⟨.refl _ _, rfl⟩

theorem State.runsOps.trans (h : s.runsOps t) (k : t.runsOps u) : s.runsOps u := ⟨h.keeps.trans k.keeps, k.domains.trans h.domains⟩

theorem State.runsOps.ite {p : Prop} [Decidable p] (h : s.runsOps t) (k : s.runsOps u) : s.runsOps (if p then t else u) := by
  split <;> assumption

theorem State.runsOps.fold {α : Type} {f : State → α → State} (h : ∀ (s : State) (a : α), s.runsOps (f s a)) (as : List α) (s : State) :
    s.runsOps (as.foldl f s) := by
  induction as generalizing s with
  | nil => exact .refl s
  | cons a r ih => exact (h s a).trans (ih _)

theorem State.runsOps.of_keeps {l : List Area} (h : s.keeps t l)
    (hl : ∀ a ∈ l, a ∈ ([.host, .disp, .kr, .eng, .gate, .mesh] : List Area) := by decide) : s.runsOps t :=
  ⟨h.mono fun a ha => by have := hl a ha; simp at this ⊢; tauto, by rw [h.pwr_eq fun hm => by simpa using hl _ hm]⟩

theorem State.drains.runsOps (h : s.drains t) : s.runsOps t := .of_keeps h.keeps

end

theorem runsOps_setPwr (p : Power) (h : p.domains = s.pwr.domains) : s.runsOps (s.setPwr p) := ⟨keeps_pwr s p (by decide), h⟩

theorem runsOps_setCst (c : Nat) (v : CState) : s.runsOps (s.setCst c v) := runsOps_setPwr s _ rfl

theorem runsOps_setServing (c : Nat) (v : Bool) : s.runsOps (s.setServing c v) := by
  unfold State.setServing
  refine State.runsOps.trans ?_ (runsOps_setCst ..)
  exact ⟨keeps_pwr s _ (by decide), rfl⟩

theorem runsOps_quiesceStart (c : Nat) : s.runsOps (s.quiesceStart c) := by
  refine (runsOps_setServing s c false).trans (State.runsOps.trans (t := (s.setServing c false).replace c) ?_ ?_)
  · exact .of_keeps (keeps_disp (l := [.disp]) _ _ (by decide))
  · exact .of_keeps (keeps_eng (l := [.eng]) _ _ (by decide))

theorem runsOps_startOp (op : ClusterOp) : s.runsOps (s.startOp op) := by
  have h : s.runsOps (s.setPwr { s.pwr with current := some op, cycled := false }) := runsOps_setPwr s _ rfl
  unfold State.startOp
  cases op with
  | verb d k => exact h.trans (.of_keeps (keeps_disp (l := [.disp]) _ _ (by decide)))
  | repair c => exact .ite (h.trans (runsOps_quiesceStart _ c)) h
  | update c => exact .ite (h.trans (runsOps_quiesceStart _ c)) h

theorem runsOps_nextOp (f : Nat) : ∀ s : State, s.runsOps (s.nextOp f) := by
  induction f with
  | zero => exact fun s => .refl s
  | succ f ih =>
    intro s
    unfold State.nextOp
    split
    · exact .refl s
    · rename_i op rest _
      have h : s.runsOps (s.setPwr { s.pwr with turn := rest }) := runsOps_setPwr s _ rfl
      dsimp only
      split
      · exact .ite (h.trans (runsOps_startOp ..)) (h.trans (ih _))
      · exact h.trans (runsOps_startOp ..)

theorem runsOps_opEnds : s.runsOps s.opEnds :=
  State.runsOps.trans (runsOps_setPwr s { s.pwr with current := none, cycled := false } rfl) (runsOps_nextOp ..)

theorem runsOps_opGone : s.runsOps s.opGone := by
  unfold State.opGone
  split
  · exact .ite (runsOps_opEnds s) (.refl s)
  · exact .refl s

theorem runsOps_opDone (c : Nat) (st : Word16) : s.runsOps (s.opDone c st) := by
  unfold State.opDone
  split
  · exact .ite ((drains_complete s _ st [] [] none).runsOps.trans (runsOps_opEnds _)) (.refl s)
  · exact .refl s

theorem runsOps_clusterUp (c : Nat) : s.runsOps (s.clusterUp c) := by
  unfold State.clusterUp
  refine .ite ?_ (.refl s)
  refine (runsOps_setCst s c .quiesced).trans (State.runsOps.trans ?_ (runsOps_opDone ..))
  exact runsOps_setPwr _ _ rfl

theorem runsOps_clustersUp : s.runsOps s.clustersUp := .fold runsOps_clusterUp _ s

/-- The seed queue's service, with all that follows from it, switches no domain. -/
theorem seedsCame_domains : s.seedsCame.pwr.domains = s.pwr.domains := by
  have h1 : s.keeps s.seedQueue.pauSeeds.serveAllOpens [.ent, .eng, .kr, .life, .host] :=
    (keeps_seedQueue s).trans ((keeps_pauSeeds _).trans (serveAllOpens_keeps _).widen)
  unfold State.seedsCame
  rw [(keeps_resumeRandom _).pwr_eq, (runsOps_clustersUp _).domains, h1.pwr_eq]

/-! ### Domains (15 R369) -/

theorem domain_of_domains {t : State} (h : t.pwr.domains = s.pwr.domains) (d : Nat) : t.domain d = s.domain d := by
  rw [State.domain, h, State.domain]

theorem phaseOne_keeps (c : Nat) : s.keeps (s.phaseOne c) [.eng, .tam] := by
  have h1 : s.keeps (s.setEng { s.eng with sentinels := mset (mset s.eng.sentinels (sentinelKey c 0) {}) (sentinelKey c 1) {} }) [.eng, .tam] :=
    keeps_eng s _ (by decide)
  exact h1.trans ((keeps_tam _ _ (by decide)).trans (keeps_tam _ _ (by decide)))

theorem pointChanged_domains (c : Nat) : (s.pointChanged c).pwr.domains = s.pwr.domains := by
  unfold State.pointChanged
  split
  · split
    · split
      · exact (runsOps_opDone ..).domains.trans (congrArg Power.domains (phaseOne_keeps s c).pwr_eq)
      · rfl
    · rfl
  · rfl

theorem domainGood_domains (d : Nat) :
    (s.domainGood d).pwr = (s.setDomain d { s.domain d with pgood := true, iso := false, ramping := false }).pwr := by
  unfold State.domainGood
  dsimp only
  split
  · exact (phaseOne_keeps ..).pwr_eq
  · split
    · exact (keeps_pauSeeds _).pwr_eq
    · rfl

/-- A domain whose power is good, once all that follows from it has happened but the operation's end. -/
theorem powerIsGood_domain {d e : Nat} (h : ¬(11 ≤ d ∧ d ≤ 18 ∧ e = d - 8)) :
    (s.powerIsGood d).domain e = (s.setDomain d { s.domain d with pgood := true, iso := false, ramping := false }).domain e := by
  have hg : (s.domainGood d).domain e = (s.setDomain d { s.domain d with pgood := true, iso := false, ramping := false }).domain e := by
    rw [domain_of_domains _ (congrArg Power.domains (domainGood_domains s d))]
  unfold State.powerIsGood
  dsimp only
  split
  · rename_i hd
    rw [domain_of_domains _ ((pointChanged_domains ..).trans (seedsCame_domains _))]
    split
    · unfold State.rampOn
      split
      · exact hg
      · rw [State.domain_setDomain_ne _ _ (by omega)]
        exact hg
    · exact hg
  · split
    · rw [domain_of_domains _ ((pointChanged_domains ..).trans (runsOps_clustersUp _).domains)]
      exact hg
    · split
      · rw [domain_of_domains _ (congrArg Power.domains (keeps_servePau ..).pwr_eq)]
        exact hg
      · exact hg

/-- A cluster's cores ramp once its engines have power (15 R375). -/
theorem powerIsGood_ramps {c : Nat} (hc : c < 8) (hp : s.cst c = .powering) (ho : (s.domain (3 + c)).on = false) :
    (s.powerIsGood (11 + c)).domain (3 + c) = { on := true, ramping := true, op := (s.domain (11 + c)).op } := by
  have hd : 11 + c - 11 = c := by omega
  have hpwr := domainGood_domains s (11 + c)
  have hcst : (s.domainGood (11 + c)).cst c = .powering := by
    rw [State.cst, hpwr]
    exact hp
  have hdom := domain_of_domains (s.setDomain (11 + c) { s.domain (11 + c) with pgood := true, iso := false, ramping := false })
    (congrArg Power.domains hpwr)
  have hon : ((s.domainGood (11 + c)).domain (3 + c)).on = false := by
    rw [hdom, s.domain_setDomain_ne _ (by omega), ho]
  have hop : ((s.domainGood (11 + c)).domain (11 + c)).op = (s.domain (11 + c)).op := by
    rw [hdom, s.domain_setDomain]
  unfold State.powerIsGood
  dsimp only
  rw [if_pos (by omega), hd, domain_of_domains _ ((pointChanged_domains ..).trans (seedsCame_domains _)), if_pos hcst, State.rampOn,
    if_neg (by simp [hon]), State.domain_setDomain, hop]

theorem mget_foldl_mset {α : Type} (v : α) (ks : List Nat) (j : Nat) (z : α) : ∀ m : Map α,
    mget (ks.foldl (fun m k => mset m k v) m) j z = if j ∈ ks then v else mget m j z := by
  induction ks with
  | nil => exact fun m => by simp
  | cons k r ih =>
    intro m
    rw [List.foldl_cons, ih, mget_mset]
    by_cases h1 : j ∈ r <;> by_cases h2 : j = k <;> simp [h1, h2]

theorem armed_of_arm (ks : List Nat) (v : Bool) (k : Nat) (z : Bool) :
    mget (s.arm ks v).tam.armed k z = if k ∈ ks then v else mget s.tam.armed k z := mget_foldl_mset ..

/-- A domain switched off: its monitors are disarmed, and it is off and isolated with what it held gone. -/
def State.cutOff (s : State) (d : Nat) : State := (s.arm (entriesOf d) false).setDomain d { op := (s.domain d).op }

theorem powerOff_eq (d : Nat) :
    s.powerOff d = if 3 ≤ d ∧ d ≤ 10 then (s.cutOff d).clearClc (d - 3)
      else if 11 ≤ d ∧ d ≤ 18 then (s.cutOff d).clearCle (d - 11)
      else if 19 ≤ d ∧ d ≤ 22 then (s.cutOff d).clearPau (d - 19)
      else if 26 ≤ d then (s.cutOff d).linkDown (d - 26)
      else s.cutOff d := rfl

/-- What the units behind a domain lose: no domain is switched, and no monitor armed or disarmed. -/
structure State.forgets (s t : State) : Prop where
  keeps : s.keeps t [.disp, .kr, .eng, .ent, .tam, .mesh, .pwr]
  domains : t.pwr.domains = s.pwr.domains
  armed : t.tam.armed = s.tam.armed

theorem clearClc_forgets (c : Nat) : s.forgets (s.clearClc c) where
  keeps := (keeps_eng s _ (by decide)).trans ((keeps_pwr _ _ (by decide)).trans (keeps_disp _ _ (by decide)))
  domains := rfl
  armed := rfl

theorem clearCle_forgets (c : Nat) : s.forgets (s.clearCle c) where
  keeps := (keeps_eng s _ (by decide)).trans ((keeps_kr _ _ (by decide)).trans ((keeps_ent _ _ (by decide)).trans (keeps_tam _ _ (by decide))))
  domains := rfl
  armed := rfl

theorem clearPau_forgets (u : Nat) : s.forgets (s.clearPau u) where
  keeps := (keeps_eng s _ (by decide)).trans (keeps_eng _ _ (by decide))
  domains := rfl
  armed := rfl

theorem linkDown_forgets (p : Nat) : s.forgets (s.linkDown p) where
  keeps := keeps_mesh s _ (by decide)
  domains := rfl
  armed := rfl

theorem powerOff_forgets (d : Nat) : (s.cutOff d).forgets (s.powerOff d) := by
  rw [powerOff_eq]
  split
  · exact clearClc_forgets ..
  · split
    · exact clearCle_forgets ..
    · split
      · exact clearPau_forgets ..
      · split
        · exact linkDown_forgets ..
        · exact ⟨.refl _ _, rfl, rfl⟩

theorem exec_domainPower {dom : Fin 30} {on : Bool} (h : s.switchable dom.val = true) :
    exec (.domainPower dom on) s = .next (s.settled (if on then s.rampOn dom.val (s.domain dom.val).op
      else (domainCluster dom.val).elim (s.powerOff dom.val) fun c => (s.powerOff dom.val).setCst c .off)) := by
  refine congrArg (answer s) ((if_neg (by simp [h])).trans ?_)
  cases on with
  | true => rfl
  | false => cases domainCluster dom.val <;> rfl

/-- The cluster of a domain switched off is off: only its state changes. -/
theorem clusterOff_forgets (d : Nat) :
    let t := (domainCluster d).elim (s.powerOff d) fun c => (s.powerOff d).setCst c .off
    (s.cutOff d).forgets t ∧ ∀ c, domainCluster d = some c → t.cst c = .off := by
  have h := powerOff_forgets s d
  cases domainCluster d with
  | none => exact ⟨h, fun c hc => by cases hc⟩
  | some c =>
    refine ⟨⟨h.keeps.trans (keeps_pwr _ _ (by decide)), h.domains, h.armed⟩, fun k hk => ?_⟩
    cases hk
    exact mget_mset_self ..

/-- Settles O42: `powerOff_forgets` for a domain switched off, `powerIsGood_domain` and `powerIsGood_ramps` for its power-good. -/
theorem domainsSwitched : Obligations.DomainsSwitched := by
  intro dom s d
  refine ⟨fun on h => ⟨_, congrArg (answer s) (if_pos (by simpa using h)), s.sameBut_settled⟩, fun h => ⟨fun hon => ?_, fun hoff => ?_, ?_⟩,
    fun h => ⟨_, congrArg (answer s) (if_neg (Bool.eq_false_iff.1 h)), s.sameBut_settled⟩, fun h => ?_⟩
  · have hrun : exec (.domainPower dom true) s = .next (s.settled (s.rampOn d (s.domain d).op)) := exec_domainPower s h
    rw [State.rampOn, if_pos hon] at hrun
    exact ⟨_, hrun, s.sameBut_settled⟩
  · have hrun : exec (.domainPower dom true) s = .next (s.settled (s.rampOn d (s.domain d).op)) := exec_domainPower s h
    rw [State.rampOn, if_neg (Bool.eq_false_iff.1 hoff)] at hrun
    exact ⟨_, hrun, (keeps_pwr s _ (by decide)).settled, s.domain_setDomain .., fun e he => s.domain_setDomain_ne _ he⟩
  · obtain ⟨hf, hcst⟩ := clusterOff_forgets s d
    have hk : s.keeps (s.cutOff d) [.disp, .kr, .eng, .ent, .tam, .mesh, .pwr] := (keeps_tam s _ (by decide)).trans (keeps_pwr _ _ (by decide))
    have hd : ∀ e, State.domain ((domainCluster d).elim (s.powerOff d) fun c => (s.powerOff d).setCst c .off) e = (s.cutOff d).domain e :=
      domain_of_domains _ hf.domains
    refine ⟨_, exec_domainPower s h, (hk.trans hf.keeps).settled, ?_, ?_, fun k hkd => ?_, fun e he => (hd e).trans ?_, hcst⟩
    · exact (congrArg Domain.on (hd d)).trans (congrArg Domain.on (State.domain_setDomain ..))
    · exact (congrArg Domain.iso (hd d)).trans (congrArg Domain.iso (State.domain_setDomain ..))
    · refine (congrArg (fun m => mget m k true) hf.armed).trans ?_
      exact (armed_of_arm s (entriesOf d) false k true).trans (if_pos hkd)
    · exact State.domain_setDomain_ne _ _ he
  · refine ⟨s.powerIsGood d, congrArg (answer s) (if_pos h), ?_, fun c hdc hc hp ho => ?_, fun hout => ?_⟩
    · rw [powerIsGood_domain s (by omega), State.domain_setDomain]
    · rw [hdc]
      exact powerIsGood_ramps s hc hp ho
    · have hrun : s.powerIsGood d = s.setDomain d { s.domain d with pgood := true, iso := false, ramping := false } := by
        unfold State.powerIsGood State.domainGood
        dsimp only
        rw [if_neg (by omega), if_neg (by omega), if_neg (by omega), if_neg (by omega), if_neg (by omega)]
      rw [hrun]
      exact keeps_pwr s _ (by decide)

end Sys2Proof.Machine
end

section
/-! What a completion that fails takes: its own descriptor's records and, where its ring faults, others, but it adds none; and what a
device that has been felled holds no longer (02 R58; 12 R294). -/

namespace Sys2Proof.Machine

variable (s : State)

/-! ### Records that go -/

/-- From s to t no record has come, and those of the descriptors of ds are gone. -/
def State.loses (s t : State) (ds : List Nat) : Prop := ∃ k, s.narrows t k ∧ ∀ d ∈ ds, k d = false

section
variable {s} {t u : State} {ds es : List Nat}

theorem State.relabels.loses (h : s.relabels t) : s.loses t [] := ⟨_, h, fun _ hd => nomatch hd⟩

theorem State.loses.of_disp (h : t.disp = s.disp) : s.loses t [] := (State.relabels.of_disp h).loses

theorem State.loses.refl (s : State) : s.loses s [] := .of_disp rfl

theorem State.loses.trans (h : s.loses t ds) (k : t.loses u es) : s.loses u (ds ++ es) := by
  obtain ⟨p, hp, hd⟩ := h
  obtain ⟨q, hq, he⟩ := k
  refine ⟨_, hp.trans hq, fun d hm => ?_⟩
  rcases List.mem_append.1 hm with hm | hm
  · rw [hd d hm, Bool.false_and]
  · rw [he d hm, Bool.and_false]

theorem State.loses.sub (h : s.loses t ds) (hs : ∀ e ∈ es, e ∈ ds) : s.loses t es := by
  obtain ⟨p, hp, hd⟩ := h
  exact ⟨p, hp, fun e he => hd e (hs e he)⟩

theorem State.loses.andThen (h : s.loses t ds) (k : t.loses u es) : s.loses u ds := (h.trans k).sub fun _ he => List.mem_append_left _ he

theorem State.loses.after (h : s.loses t es) (k : t.loses u ds) : s.loses u ds := (h.trans k).sub fun _ he => List.mem_append_right _ he

theorem State.loses.ite {p : Prop} [Decidable p] (h : s.loses t ds) (k : s.loses u ds) : s.loses (if p then t else u) ds := by
  split <;> assumption

theorem State.loses.elim {α : Type} {o : Option α} {f : α → State} (h : ∀ a, s.loses (f a) []) : s.loses (o.elim s f) [] := by
  cases o with
  | none => exact .refl s
  | some a => exact h a

theorem State.loses.gone (h : s.loses t ds) {d : Nat} (hd : d ∈ ds) : t.desc d = none := by
  obtain ⟨k, hk, hds⟩ := h
  exact hk.gone (hds d hd)

/-- Only records of before stand, and none of the descriptors that are lost. -/
theorem State.loses.mem (h : s.loses t ds) {q : DRec} (hq : q ∈ t.disp.descs) : q.id ∉ ds ∧ ∃ r ∈ s.disp.descs, r.sameDesc q := by
  obtain ⟨k, hk, hds⟩ := h
  obtain ⟨h1, h2⟩ := hk.mem hq
  exact ⟨fun hm => (Bool.eq_false_iff.1 (hds _ hm)) h1, h2⟩

end

/-- Operations one after another, each of which loses its descriptors. -/
theorem State.loses.fold {α : Type} {f : State → α → State} {g : α → List Nat} (h : ∀ (s : State) (a : α), s.loses (f s a) (g a)) (as : List α) :
    ∀ s : State, s.loses (as.foldl f s) (as.flatMap g) := by
  induction as with
  | nil => exact fun s => .refl s
  | cons a r ih => exact fun s => (h s a).trans (ih _)

theorem loses_modDesc (d : Nat) (f : DRec → DRec) (hf : ∀ r : DRec, r.sameDesc (f r)) : s.loses (s.modDesc d f) [] :=
  (relabels_modDesc s d f hf).loses

theorem loses_removeDesc (d : Nat) (ab : Bool) : s.loses (s.removeDesc d ab) [d] :=
  ⟨_, narrows_removeDesc s d ab, fun e he => by simpa using he⟩

theorem loses_ringFault (n q : Nat) : s.loses (s.ringFault n q) (s.ringDescs n q) :=
  ⟨_, narrows_ringFault s n q, fun d hd => by simpa using hd⟩

theorem loses_putOut (r : DRec) (b : Bytes) : s.loses (s.putOut r b) [] := by
  have h : s.loses (s.writeExtents r (s.outExtents r b.length) b) [] := .of_disp (keeps_writeExtents ..).disp_eq
  refine h.andThen (es := []) ?_
  exact loses_modDesc _ r.id _ fun _ => ⟨rfl, rfl, rfl, rfl, rfl⟩

theorem loses_zeroOut (d : Nat) : s.loses (s.zeroOut d) [] := (relabels_zeroOut s d).loses

/-- A record is written in host memory, or faults its ring. -/
theorem writeRecord_is (r : DRec) (st : Word16) (len : Nat) (inl : Bytes) :
    ∃ c : State, s.keeps c [.gate] ∧ ((∃ h, s.writeRecord r st len inl = { c with host := h }) ∨ s.writeRecord r st len inl = c.ringFault r.fn r.ring) := by
  have hk := keeps_checkHost s ringEngineId r.fn false
    ((s.ring r.fn r.ring).cqBase.toNat + 32 * ((s.ring r.fn r.ring).cqTail.toNat % ringSize (s.ring r.fn r.ring))) 32 true
  refine ⟨_, hk, ?_⟩
  unfold State.writeRecord
  simp only
  split
  · obtain ⟨f, p, h, -⟩ := State.noteRecord_host _ r.fn r.ring r.irqNow
    exact .inl ⟨_, h⟩
  · exact .inr rfl

theorem loses_writeRecord (r : DRec) (st : Word16) (len : Nat) (inl : Bytes) : s.loses (s.writeRecord r st len inl) [] := by
  obtain ⟨c, hk, ⟨h, e⟩ | e⟩ := writeRecord_is s r st len inl
  · rw [e]
    exact .of_disp hk.disp_eq
  · rw [e]
    exact (State.loses.of_disp hk.disp_eq).andThen (loses_ringFault ..)

theorem txnApplied_fails {st : Word16} (h : succeeded st = false) : s.txnApplied st = { s with mesh := { s.mesh with memberMap := 0 } } :=
  if_neg (Bool.eq_false_iff.1 h)

/-- A status that fails stays as it is, whatever flags its descriptor has. -/
theorem flaggedStatus_fails {st : Word16} (h : succeeded st = false) (f : BitVec 15) : flaggedStatus st f = st := by
  unfold succeeded at h
  simp only [Bool.or_eq_false_iff, beq_eq_false_iff_ne] at h
  exact if_neg (not_or.2 h)

/-- A completion that does not succeed. -/
theorem loses_completeOne {d : Nat} {st : Word16} {out inl : Bytes} {len : Option Nat} (hst : succeeded st = false) :
    s.loses (s.completeOne d st out inl len) [d] := by
  unfold State.completeOne
  split
  · rename_i h
    refine ⟨(· != d), ⟨id, fun r => .refl r, ?_⟩, fun e he => by simpa using he⟩
    rw [List.map_id, List.filter_eq_self.2]
    intro r hr
    simpa using List.find?_eq_none.1 h r hr
  · rename_i r _
    have hflag : s.loses (if s.time.lock = true then s else s.flag d cfUnaligned) [] := by
      refine .ite (.refl s) ?_
      exact loses_modDesc s d _ fun _ => ⟨rfl, rfl, rfl, rfl, rfl⟩
    refine State.loses.andThen (es := []) ?_ (.ite ?_ (.refl _))
    · refine hflag.after (State.loses.after (es := []) (.ite ?_ ?_) (loses_removeDesc ..))
      · exact .elim fun q => .of_disp (keeps_sendResult ..).disp_eq
      · exact State.loses.andThen (.ite (loses_putOut ..) (loses_zeroOut ..)) (.elim fun q => loses_writeRecord ..)
    · rw [flaggedStatus_fails hst, txnApplied_fails _ hst]
      exact .of_disp rfl

/-! ### What a felled device holds no longer (12 R294) -/

/-- No engine holds a page or context, and the keys of the key register and the mesh are gone. -/
structure State.bare (s : State) : Prop where
  pages : s.eng.pages = []
  dpages : s.eng.dpages = []
  ctxs : s.eng.ctxs = []
  keys : s.kr.keys = none
  krReady : s.kr.ready = false
  mrk : s.mesh.mrk = none

section
variable {s} {t : State}

theorem State.bare.of_keeps {l : List Area} (h : s.bare) (hk : s.keeps t l) (h1 : .eng ∉ l := by decide) (h2 : .kr ∉ l := by decide)
    (h3 : .mesh ∉ l := by decide) : t.bare :=
  ⟨by rw [hk.eng_eq h1, h.pages], by rw [hk.eng_eq h1, h.dpages], by rw [hk.eng_eq h1, h.ctxs], by rw [hk.kr_eq h2, h.keys],
    by rw [hk.kr_eq h2, h.krReady], by rw [hk.mesh_eq h3, h.mrk]⟩

theorem State.bare.of_mesh (h : s.bare) (hk : s.keeps t [.mesh]) (hm : t.mesh.mrk = s.mesh.mrk) : t.bare :=
  ⟨by rw [hk.eng_eq, h.pages], by rw [hk.eng_eq, h.dpages], by rw [hk.eng_eq, h.ctxs], by rw [hk.kr_eq, h.keys], by rw [hk.kr_eq, h.krReady],
    hm.trans h.mrk⟩

theorem State.bare.fold {α : Type} {f : State → α → State} (h : ∀ (s : State) (a : α), s.bare → (f s a).bare) (as : List α) :
    ∀ s : State, s.bare → (as.foldl f s).bare := by
  induction as with
  | nil => exact fun s hs => hs
  | cons a r ih => exact fun s hs => ih _ (h s a hs)

theorem State.bare.ite {p : Prop} [Decidable p] (h : s.bare) (k : t.bare) : (if p then s else t : State).bare := by
  split <;> assumption

/-- Where no page or context is held, closing a descriptor's withdraws its OPENs alone. -/
theorem State.bare.closeHeld (h : s.bare) (d : Nat) (ab : Bool) : (s.closeHeld d ab).bare := by
  unfold State.closeHeld State.releaseLocks
  simp only [h.ctxs, h.dpages, h.pages, List.foldl_nil]
  exact ⟨rfl, rfl, rfl, h.keys, h.krReady, h.mrk⟩

theorem State.bare.releaseTrans (h : s.bare) (d : Nat) : (s.releaseTrans d).bare := by
  unfold State.releaseTrans
  split
  · exact h
  · rename_i r _
    have hslots : (r.trans.foldl State.releaseSlot s).bare :=
      .fold (f := State.releaseSlot) (fun s i hs => ⟨hs.pages, hs.dpages, hs.ctxs, hs.keys, hs.krReady, hs.mrk⟩) _ s h
    exact hslots.of_keeps (keeps_disp (l := [.disp]) _ _ (by decide))

theorem State.bare.removeDesc (h : s.bare) (d : Nat) (ab : Bool) : (s.removeDesc d ab).bare := by
  unfold State.removeDesc
  split
  · exact h
  · have h1 := (h.closeHeld d ab).releaseTrans d
    refine State.bare.of_keeps ?_ (keeps_takeUp ..)
    exact ⟨h1.pages, h1.dpages, h1.ctxs, h1.keys, h1.krReady, h1.mrk⟩

theorem State.bare.zeroOut (h : s.bare) (d : Nat) : (s.zeroOut d).bare := h.of_keeps (keeps_zeroOut s d)

theorem State.bare.abandonDesc (h : s.bare) (d : Nat) : (s.abandonDesc d).bare := (h.zeroOut d).removeDesc d true

theorem State.bare.ringFault (h : s.bare) (n q : Nat) : (s.ringFault n q).bare := by
  rw [ringFault_eq]
  refine State.bare.of_keeps (l := [.host]) ?_ (keeps_host _ _ (by decide))
  exact .fold (fun s d hs => hs.abandonDesc d) _ _ (h.of_keeps (ringFaulted_keeps s n q))

theorem State.bare.writeRecord (h : s.bare) (r : DRec) (st : Word16) (len : Nat) (inl : Bytes) : (s.writeRecord r st len inl).bare := by
  obtain ⟨c, hk, ⟨x, e⟩ | e⟩ := writeRecord_is s r st len inl
  · rw [e]
    exact (h.of_keeps hk).of_keeps (keeps_host (l := [.host]) c x (by decide))
  · rw [e]
    exact (h.of_keeps hk).ringFault ..

theorem emit_mrk (m : Sent) : (s.emit m).mesh.mrk = s.mesh.mrk := by
  unfold State.emit
  split
  · rfl
  · split <;> rfl

theorem sendResult_mrk (r : DRec) (st : Word16) (out inl : Bytes) : (s.sendResult r st out inl).mesh.mrk = s.mesh.mrk := by
  unfold State.sendResult
  dsimp only
  split
  · rfl
  · split
    · rfl
    · split <;> exact emit_mrk _

theorem State.bare.sendResult (h : s.bare) (r : DRec) (st : Word16) (out inl : Bytes) : (s.sendResult r st out inl).bare :=
  h.of_mesh (keeps_sendResult ..) (sendResult_mrk ..)

theorem State.bare.putOut (h : s.bare) (r : DRec) (b : Bytes) : (s.putOut r b).bare :=
  (h.of_keeps (keeps_writeExtents r (s.outExtents r b.length) s b)).of_keeps (keeps_disp (l := [.disp]) _ _ (by decide))

theorem State.bare.elim {α : Type} {o : Option α} {f : α → State} (h : s.bare) (hf : ∀ a, (f a).bare) : (o.elim s f).bare := by
  cases o with
  | none => exact h
  | some a => exact hf a

theorem State.bare.completeOne (h : s.bare) {d : Nat} {st : Word16} {out inl : Bytes} {len : Option Nat} (hst : succeeded st = false) :
    (s.completeOne d st out inl len).bare := by
  unfold State.completeOne
  split
  · exact h
  · rename_i r _
    have hflag : (if s.time.lock = true then s else s.flag d cfUnaligned).bare := by
      refine .ite h ?_
      exact h.of_keeps (keeps_disp (l := [.disp]) _ _ (by decide))
    have happlied : ∀ t : State, t.bare → (if r.ring = txnRing then t.txnApplied (flaggedStatus st r.flags) else t).bare := fun t ht => by
      rw [flaggedStatus_fails hst, txnApplied_fails _ hst]
      exact .ite ⟨ht.pages, ht.dpages, ht.ctxs, ht.keys, ht.krReady, ht.mrk⟩ ht
    refine happlied _ (State.bare.removeDesc (.ite ?_ ?_) d false)
    · exact hflag.elim fun q => hflag.sendResult ..
    · have hout := State.bare.ite (p := succeeded (flaggedStatus st r.flags) = true)
        (hflag.putOut r (if succeeded (flaggedStatus st r.flags) then out else [])) (hflag.zeroOut d)
      exact hout.elim fun q => hout.writeRecord ..

end

/-- Every descriptor that was read is gone. -/
theorem loses_fellDescs : s.loses s.fellDescs (s.disp.descs.map DRec.id) := by
  have h := State.loses.fold (f := fun (s : State) (r : DRec) =>
      if meshRing ≤ r.ring then s.removeDesc r.id false else s.completeOne r.id stFelled [] []) (g := fun r => [r.id])
    (fun s r => .ite (loses_removeDesc s r.id false) (loses_completeOne s (by decide))) s.disp.descs s
  rwa [← List.map_eq_flatMap] at h

theorem fellDescs_descs : s.fellDescs.disp.descs = [] := by
  refine List.eq_nil_iff_forall_not_mem.2 fun q hq => ?_
  obtain ⟨hno, r, hr, hqr⟩ := (loses_fellDescs s).mem hq
  exact hno (hqr.id ▸ List.mem_map_of_mem hr)

theorem State.bare.fellDescs {s : State} (h : s.bare) : s.fellDescs.bare :=
  .fold (fun s r hs => .ite (hs.removeDesc r.id false) (hs.completeOne (by decide))) _ s h

theorem drains_fellDescs : s.drains s.fellDescs :=
  .fold (fun s (r : DRec) => .ite (drains_removeDesc s r.id false) (drains_completeOne s r.id stFelled [] [] none)) _ s

/-- The state as the felling line is driven: keys and engines cleared, the event told. -/
def State.felling (s : State) : State :=
  (s.clearKeys.setTam { s.clearKeys.tam with fell := .felling, felledState := true, scrubbing := true }).raiseAll evFelled

theorem fell_eq (h : s.tam.felledState = false) : s.fell = s.felling.fellDescs := if_neg (Bool.eq_false_iff.1 h)

theorem fell_felled (h : s.tam.felledState = true) : s.fell = s := if_pos h

/-- A device that has just been felled holds no keys, no pages and no descriptors (12 R294; 02 R58). -/
theorem fell_holds (h : s.tam.felledState = false) :
    s.fell.bare ∧ s.fell.disp.descs = [] ∧ s.fell.vault.ready = false ∧ s.fell.ent.ready = false
    ∧ s.fell.tam = { s.tam with fell := .felling, felledState := true, scrubbing := true } ∧ s.fell.time = s.time ∧ s.fell.pwr.domains = s.pwr.domains
    ∧ s.fell.life.mainPower = s.life.mainPower := by
  let u := s.clearKeys.setTam { s.clearKeys.tam with fell := .felling, felledState := true, scrubbing := true }
  have hu : s.keeps u [.eng, .ent, .kr, .vault, .mesh, .pwr, .life, .tam] := .of_eq (fun _ => rfl) (fun _ => rfl) (fun h => absurd (by decide) h)
    (fun h => absurd (by decide) h) (fun h => absurd (by decide) h) (fun h => absurd (by decide) h) (fun h => absurd (by decide) h) (fun _ => rfl)
    (fun h => absurd (by decide) h) (fun _ => rfl) (fun h => absurd (by decide) h) (fun h => absurd (by decide) h)
  have hr : u.keeps s.felling [.host] := keeps_raiseAll u evFelled
  have hd := drains_fellDescs s.felling
  have hub : u.bare := ⟨rfl, rfl, rfl, rfl, rfl, rfl⟩
  have hb := (hub.of_keeps hr).fellDescs
  rw [fell_eq s h]
  refine ⟨hb, fellDescs_descs _, ?_, ?_, ?_, ?_, ?_, ?_⟩
  · rw [hd.keeps.vault_eq, hr.vault_eq]; rfl
  · rw [hd.keeps.ent_eq, hr.ent_eq]; rfl
  · rw [hd.keeps.tam_eq, hr.tam_eq]; rfl
  · rw [hd.keeps.time_eq, hr.time_eq]; rfl
  · rw [hd.keeps.pwr_eq, hr.pwr_eq]; rfl
  · have hlife := congrArg Life.mainPower (hr.widen.trans hd.keeps).life_eq
    exact hlife

end Sys2Proof.Machine
end

section
/-! Monitors, events and their log, built-in tests (12 R284 to R308; 16 R381). -/

namespace Sys2Proof.Machine

variable (s : State)

/-! ### Alarms (12 R289 to R292) -/

/-- A command that sets the tamper unit alone. -/
theorem setTam_only (t : Tamper) : s.keeps (s.settled (s.setTam t)) [.tam] := (keeps_tam s t (by decide)).settled

/-- The tamper state of s once it has been felled. -/
def Tamper.fallen (t : Tamper) : Tamper :=
  if t.felledState then t else { t with fell := .felling, felledState := true, scrubbing := true }

theorem fell_tam : s.fell.tam = s.tam.fallen := by
  cases h : s.tam.felledState with
  | true => rw [fell_felled s h, Tamper.fallen, if_pos h]
  | false => rw [(fell_holds s h).2.2.2.2.1, Tamper.fallen, if_neg (Bool.eq_false_iff.1 h)]

theorem Tamper.fallen_felled (t : Tamper) : t.fallen.felledState = true := by
  unfold Tamper.fallen
  split
  · assumption
  · rfl

/-- A felling leaves of the tamper unit all but its own state. -/
theorem Tamper.fallen_keeps (t : Tamper) :
    t.fallen = { t with fell := t.fallen.fell, felledState := t.fallen.felledState, scrubbing := t.fallen.scrubbing } := by
  unfold Tamper.fallen
  split <;> rfl

/-- What an alarm always leaves: its kind and number, TAMP_OUT_N low, and of a grave class no storage key. -/
structure Alarmed (t u : Tamper) (kind inst : Nat) : Prop where
  tampOutN : u.tampOutN = false
  lastKind : u.lastKind = BitVec.ofNat 8 kind
  lastInst : u.lastInst = BitVec.ofNat 8 inst
  emptied : grave (classOf kind) = true → u.storageKey = none ∧ u.canary = .emptied
  felledState : u.felledState = t.felledState
  fell : u.fell = t.fell
  scrubbing : u.scrubbing = t.scrubbing
  latched : u.latched = t.latched
  uvPending : u.uvPending = t.uvPending
  testBusy : u.testBusy = t.testBusy
  testFail : u.testFail = t.testFail
  first : t.effect = 0 → t.events = [] → u.pending = true ∧ u.events.length = 1 ∧ u.effect = classOf kind

/-- The alarm as it is confirmed, before its event. -/
def Tamper.confirms (t : Tamper) (kind inst : Nat) : Tamper :=
  if grave (classOf kind) then (t.confirmed kind inst).emptied else t.confirmed kind inst

theorem Tamper.confirms_events (t : Tamper) (kind inst : Nat) :
    (t.confirms kind inst).events = t.events ∧ (t.confirms kind inst).effect = t.effect := by
  unfold Tamper.confirms
  split <;> exact ⟨rfl, rfl⟩

theorem Tamper.confirms_alarmed (t : Tamper) (kind inst : Nat) {u : Tamper} (ho : u.tampOutN = (t.confirms kind inst).tampOutN)
    (hk : u.lastKind = (t.confirms kind inst).lastKind) (hi : u.lastInst = (t.confirms kind inst).lastInst)
    (hs : u.storageKey = (t.confirms kind inst).storageKey) (hc : u.canary = (t.confirms kind inst).canary)
    (hrest : u.felledState = (t.confirms kind inst).felledState ∧ u.fell = (t.confirms kind inst).fell
      ∧ u.scrubbing = (t.confirms kind inst).scrubbing ∧ u.latched = (t.confirms kind inst).latched
      ∧ u.uvPending = (t.confirms kind inst).uvPending ∧ u.testBusy = (t.confirms kind inst).testBusy ∧ u.testFail = (t.confirms kind inst).testFail)
    (hf : t.effect = 0 → t.events = [] → u.pending = true ∧ u.events.length = 1 ∧ u.effect = classOf kind) : Alarmed t u kind inst := by
  obtain ⟨h1, h2, h3, h4, h5, h6, h7⟩ := hrest
  unfold Tamper.confirms at ho hk hi hs hc h1 h2 h3 h4 h5 h6 h7
  cases hg : grave (classOf kind) with
  | true =>
    rw [if_pos hg] at ho hk hi hs hc h1 h2 h3 h4 h5 h6 h7
    exact ⟨ho, hk, hi, fun _ => ⟨hs, hc⟩, h1, h2, h3, h4, h5, h6, h7, hf⟩
  | false =>
    rw [if_neg (Bool.eq_false_iff.1 hg)] at ho hk hi hs hc h1 h2 h3 h4 h5 h6 h7
    exact ⟨ho, hk, hi, fun h => absurd (hg.symm.trans h) (by decide), h1, h2, h3, h4, h5, h6, h7, hf⟩

theorem Tamper.late_is (t : Tamper) : ∃ l, t.late = { t with events := l } := by
  unfold Tamper.late
  split
  · exact ⟨t.events, rfl⟩
  · exact ⟨_, rfl⟩

theorem Tamper.alarm_eq (t : Tamper) (kind inst : Nat) (time : Word64) :
    t.alarm kind inst time
      = if (t.confirms kind inst).events.any (·.window) then (t.confirms kind inst).joins (classOf kind) kind
        else if (t.confirms kind inst).effect = 0 then (t.confirms kind inst).opens (newEvent (classOf kind) kind inst time)
        else if grave (classOf kind) && !grave (t.confirms kind inst).effect then
          (t.confirms kind inst).opens { newEvent (classOf kind) kind inst time with escalation := true }
        else (t.confirms kind inst).late := rfl

theorem Tamper.alarm_alarmed (t : Tamper) (kind inst : Nat) (time : Word64) : Alarmed t (t.alarm kind inst time) kind inst := by
  obtain ⟨he, hf⟩ := t.confirms_events kind inst
  rw [t.alarm_eq]
  split
  · rename_i h
    refine t.confirms_alarmed kind inst rfl rfl rfl rfl rfl ⟨rfl, rfl, rfl, rfl, rfl, rfl, rfl⟩ fun _ hn => ?_
    rw [he, hn] at h
    cases h
  · split
    · refine t.confirms_alarmed kind inst rfl rfl rfl rfl rfl ⟨rfl, rfl, rfl, rfl, rfl, rfl, rfl⟩ fun h0 hn => ⟨rfl, ?_, ?_⟩
      · show ((t.confirms kind inst).events ++ _).length = 1
        rw [he, hn]
        rfl
      · show (t.confirms kind inst).effect ||| _ = _
        rw [hf, h0]
        exact BitVec.zero_or
    · rename_i h
      have hne : t.effect = 0 → False := fun h0 => h (hf.trans h0)
      split
      · exact t.confirms_alarmed kind inst rfl rfl rfl rfl rfl ⟨rfl, rfl, rfl, rfl, rfl, rfl, rfl⟩ fun h0 => (hne h0).elim
      · obtain ⟨l, hl⟩ := (t.confirms kind inst).late_is
        rw [hl]
        exact t.confirms_alarmed kind inst rfl rfl rfl rfl rfl ⟨rfl, rfl, rfl, rfl, rfl, rfl, rfl⟩ fun h0 => (hne h0).elim

/-- An alarm: the device is felled, and its tamper state takes the event. -/
theorem alarm_tam (kind inst : Nat) : (s.alarm kind inst).tam = s.tam.fallen.alarm kind inst s.fell.time.counter := by
  show s.fell.tam.alarm kind inst s.fell.time.counter = _
  rw [fell_tam]

/-! ### MONITOR_CONFIRM (12 R284) -/

/-- The monitor that confirmed is latched. -/
def State.latch (s : State) (k : Nat) : State := s.setTam { s.tam with latched := s.tam.latched ++ [k] }

theorem confirm_main {k : Nat} {high : Bool} (h : s.mainRun = true) :
    s.confirm k high = if (entryKind k).1 = 2 ∧ (entryKind k).2 < 8 ∧ !high then
        (s.latch k).fell.setTam { (s.latch k).fell.tam with uvPending := (s.latch k).fell.tam.uvPending ++ [(entryKind k).2], lastKind := 2
                                                            lastInst := BitVec.ofNat 8 (entryKind k).2 }
      else (s.latch k).alarm (entryKind k).1 (entryKind k).2 :=
  if_neg (Bool.eq_false_iff.1 (show (!(s.latch k).mainRun) = false from congrArg Bool.not h))

theorem confirm_cell {k : Nat} {high : Bool} (h : s.mainRun = false) :
    s.confirm k high = (s.latch k).setTam ((s.latch k).tam.cellAlarm (entryKind k).1 (entryKind k).2) :=
  if_pos (show (!(s.latch k).mainRun) = true from congrArg Bool.not h)

/-- What stands of a felled device in any state that has but another tamper state. -/
theorem fell_setTam {k : Nat} (t : Tamper) (h : s.tam.felledState = false) :
    let x := (s.latch k).fell.setTam t
    x.disp.descs = [] ∧ x.kr.keyed = false ∧ x.kr.ready = false ∧ x.vault.ready = false ∧ x.ent.ready = false ∧ x.eng.pages = []
    ∧ x.eng.ctxs = [] ∧ x.mesh.mrk = none := by
  obtain ⟨hb, hd, hv, he, -⟩ := fell_holds (s.latch k) h
  exact ⟨hd, by show Option.isSome _ = false; rw [show ((s.latch k).fell.setTam t).kr.keys = _ from hb.keys]; rfl, hb.krReady, hv, he, hb.pages,
    hb.ctxs, hb.mrk⟩

theorem fell_latch_tam (k : Nat) : (s.latch k).fell.tam = { s.tam.fallen with latched := s.tam.latched ++ [k] } := by
  rw [fell_tam]
  show ({ s.tam with latched := s.tam.latched ++ [k] } : Tamper).fallen = _
  unfold Tamper.fallen
  dsimp only
  split <;> rfl

/-- The kinds and instances of Table 12.1 fit their registers. -/
theorem entryKind_fits (k : Fin 159) : (entryKind k.val).1 < 256 ∧ (entryKind k.val).2 < 256 := by
  revert k
  decide +kernel

theorem Tamper.cellAlarm_spec (t : Tamper) (kind inst : Nat) :
    let u := t.cellAlarm kind inst
    u.latched = t.latched ∧ u.storageKey = none ∧ u.canary = .emptied ∧ u.tampOutN = false ∧ u.pOnCell = true ∧ u.events ≠ [] := by
  unfold Tamper.cellAlarm
  dsimp only
  split
  · exact ⟨rfl, rfl, rfl, rfl, rfl, by simp⟩
  · refine ⟨rfl, rfl, rfl, rfl, ?_, ?_⟩
    · exact Bool.or_true _
    · simp [Tamper.opens]

/-- Settles O35: on main power the device is felled and the alarm opens, joins or follows an event; on the cell the latch takes it. -/
theorem confirmationFells : Obligations.ConfirmationFells := by
  intro k high s e
  refine ⟨fun h => ⟨_, congrArg (answer s) (if_neg (Bool.eq_false_iff.1 h)), s.sameBut_settled⟩, fun h hm => ?_, fun h hm => ?_⟩
  · have hrun : exec (.monitorConfirm k high) s = answer s (s.confirm k.val high) := congrArg (answer s) (if_pos h)
    rw [confirm_main s hm] at hrun
    obtain ⟨hk1, hk2⟩ := entryKind_fits k
    have htam := fell_latch_tam s k.val
    have hfell : s.tam.felledState = false → s.tam.fallen.scrubbing = true ∧ s.tam.fallen.fell = .felling := fun hf => by
      rw [Tamper.fallen, if_neg (Bool.eq_false_iff.1 hf)]
      exact ⟨rfl, rfl⟩
    by_cases huv : e.1 = 2 ∧ e.2 < 8 ∧ (!high) = true
    · rw [if_pos huv] at hrun
      refine ⟨_, hrun, ?_, ?_, fun hf => ?_, fun _ _ _ => ⟨?_, ?_⟩, fun hno => absurd ?_ hno⟩
      · show k.val ∈ (s.latch k.val).fell.tam.latched
        rw [htam]
        simp
      · show (s.latch k.val).fell.tam.felledState = true
        rw [htam]
        exact s.tam.fallen_felled
      · obtain ⟨h1, h2, h3, h4, h5, h6, h7, h8⟩ := fell_setTam s (k := k.val) { (s.latch k.val).fell.tam with
          uvPending := (s.latch k.val).fell.tam.uvPending ++ [(entryKind k.val).2], lastKind := 2, lastInst := BitVec.ofNat 8 (entryKind k.val).2 } hf
        refine ⟨h1, h2, h3, h4, h5, h6, h7, h8, ?_, ?_⟩
        · show (s.latch k.val).fell.tam.scrubbing = true
          rw [htam]; exact (hfell hf).1
        · show (s.latch k.val).fell.tam.fell = .felling
          rw [htam]; exact (hfell hf).2
      · show (s.latch k.val).fell.tam.uvPending ++ _ = _
        rw [htam, s.tam.fallen_keeps]
      · show (s.latch k.val).fell.tam.events = _
        rw [htam, s.tam.fallen_keeps]
      · exact ⟨huv.1, huv.2.1, by simpa using huv.2.2⟩
    · rw [if_neg huv] at hrun
      have ha := ((s.latch k.val).fell.tam).alarm_alarmed e.1 e.2 (s.latch k.val).fell.time.counter
      let u := (s.latch k.val).fell.tam.alarm e.1 e.2 (s.latch k.val).fell.time.counter
      refine ⟨_, hrun, ?_, ?_, fun hf => ?_, fun h1 h2 h3 => absurd ⟨h1, h2, by simp [h3]⟩ huv, fun _ => ⟨?_, ?_, ?_, fun h0 hn => ?_, fun hg => ?_⟩⟩
      · show k.val ∈ u.latched
        rw [ha.latched, htam]
        simp
      · show u.felledState = true
        rw [ha.felledState, htam]
        exact s.tam.fallen_felled
      · obtain ⟨h1, h2, h3, h4, h5, h6, h7, h8⟩ := fell_setTam s (k := k.val) u hf
        refine ⟨h1, h2, h3, h4, h5, h6, h7, h8, ?_, ?_⟩
        · show u.scrubbing = true
          rw [ha.scrubbing, htam]; exact (hfell hf).1
        · show u.fell = .felling
          rw [ha.fell, htam]; exact (hfell hf).2
      · exact ha.tampOutN
      · show u.lastKind.toNat = _
        rw [ha.lastKind, BitVec.toNat_ofNat, Nat.mod_eq_of_lt hk1]
      · show u.lastInst.toNat = _
        rw [ha.lastInst, BitVec.toNat_ofNat, Nat.mod_eq_of_lt hk2]
      · refine ha.first ?_ ?_
        · rw [htam, s.tam.fallen_keeps]; exact h0
        · rw [htam, s.tam.fallen_keeps]; exact hn
      · exact ha.emptied hg
  · have hrun : exec (.monitorConfirm k high) s = answer s (s.confirm k.val high) := congrArg (answer s) (if_pos h)
    rw [confirm_cell s hm] at hrun
    obtain ⟨h1, h2, h3, h4, h5, h6⟩ := (s.latch k.val).tam.cellAlarm_spec e.1 e.2
    refine ⟨_, hrun, ((keeps_tam s _ (by decide)).trans (keeps_tam _ _ (by decide))).settled, ?_, h2, h3, h4, h5, h6⟩
    show k.val ∈ ((s.latch k.val).tam.cellAlarm e.1 e.2).latched
    rw [h1]
    show k.val ∈ s.tam.latched ++ [k.val]
    simp

/-! ### What settles (12 R288, R290, R292, R295) -/

/-- A device that scrubs, with a recipe in a core's cache. -/
def scrubbingState : State := { State.reset with tam := { State.reset.tam with scrubbing := true }, disp := { State.reset.disp with rcache := [(0, [(0, 0)])] } }

/-- Refutes O36: the end of the scrub empties the recipe caches too, and the statement's frame holds the dispatcher still. -/
theorem not_tamperSettles : ¬Obligations.TamperSettles := by
  intro h
  obtain ⟨-, -, hscrub, -⟩ := h scrubbingState
  obtain ⟨t, ht, hk, -⟩ := hscrub rfl
  obtain ⟨x, hx⟩ : ∃ x : State, exec .scrubDone scrubbingState = .next x ∧ x.disp.rcache = [] := ⟨_, rfl, rfl⟩
  obtain ⟨hx, hempty⟩ := hx
  rw [hx] at ht
  cases ht
  rw [hk.disp_eq] at hempty
  exact absurd hempty (by decide)

end Sys2Proof.Machine
end

section
/-! Events logged (12 R302; 16 R381), built-in tests (12 R286, R307, R308) and the margin sentinels (R309, R310). -/

namespace Sys2Proof.Machine

variable (s : State)

/-! ### The log (12 R302) -/

/-- What logging the events of l, oldest first, makes of s. -/
structure Logged (s t : State) (l : List Event) : Prop where
  keeps : s.keeps t [.tam, .life]
  events : t.tam.events = s.tam.events
  logSeq : t.tam.logSeq = s.tam.logSeq + BitVec.ofNat 32 l.length
  tally : s.tam.tally ≤ t.tam.tally
  bits : ∀ e ∈ l, ∀ b, e.tbit = some b → b < t.tam.tally

theorem logEvent_tally (e : Event) : (s.logEvent e).tam.tally = max s.tam.tally (e.tbit.elim 0 (· + 1)) := rfl

theorem logEvents_logged (l : List Event) : ∀ s : State, Logged s (l.foldl State.logEvent s) l := by
  induction l with
  | nil => exact fun s => ⟨.refl _ _, rfl, by simp, Nat.le_refl _, fun e he => nomatch he⟩
  | cons e r ih =>
    intro s
    have h := ih (s.logEvent e)
    have hk : s.keeps (s.logEvent e) [.tam, .life] := (keeps_tam s _ (by decide)).trans (keeps_life _ _ (by decide))
    have htally : s.tam.tally ⊔ (e.tbit.elim 0 (· + 1)) ≤ (r.foldl State.logEvent (s.logEvent e)).tam.tally := h.tally
    refine ⟨hk.trans h.keeps, h.events, ?_, (Nat.le_max_left ..).trans htally, fun e' he b hb => ?_⟩
    · refine h.logSeq.trans ?_
      show s.tam.logSeq + 1 + _ = _
      rw [List.length_cons, BitVec.add_assoc, Nat.add_comm r.length 1, BitVec.ofNat_add]
      rfl
    · rcases List.mem_cons.1 he with rfl | he
      · rw [hb] at htally
        have hle : s.tam.tally ⊔ (b + 1) ≤ (r.foldl State.logEvent (s.logEvent e')).tam.tally := htally
        exact Nat.lt_of_lt_of_le (Nat.lt_succ_self b) ((Nat.le_max_right ..).trans hle)
      · exact h.bits e' he b hb

/-- The latch once no event is left. -/
def Tamper.unlatched (t : Tamper) : Tamper :=
  { t with events := [], pending := false, pClass := 0, pOnCell := false, firstBit := 0, lastBit := 0, confirmedSince := false }

theorem completeEvents_eq :
    s.completeEvents
      = let t := (s.tam.events.filter fun e => !e.window).foldl State.logEvent s
        if (s.tam.events.filter (·.window)).isEmpty then t.setTam t.tam.unlatched
        else t.setTam { t.tam with events := s.tam.events.filter (·.window) } := by
  unfold State.completeEvents
  rw [List.partition_eq_filter_filter]
  rfl

/-- The events that are left, and what they leave of the latch. -/
theorem completeEvents_tam :
    let t := (s.tam.events.filter fun e => !e.window).foldl State.logEvent s
    let u := s.completeEvents
    t.keeps u [.tam] ∧ u.life = t.life ∧ u.tam.events = s.tam.events.filter (·.window) ∧ u.tam.logSeq = t.tam.logSeq ∧ u.tam.tally = t.tam.tally
    ∧ u.tam.log = t.tam.log ∧ (u.tam.events = [] → u.tam.pending = false ∧ u.tam.pClass = 0) := by
  intro t u
  have hu : u = if (s.tam.events.filter (·.window)).isEmpty then t.setTam t.tam.unlatched
      else t.setTam { t.tam with events := s.tam.events.filter (·.window) } := completeEvents_eq s
  cases he : (s.tam.events.filter (·.window)).isEmpty with
  | true =>
    rw [he, if_pos rfl] at hu
    rw [hu]
    exact ⟨keeps_tam t _ (by decide), rfl, (List.isEmpty_iff.1 he).symm, rfl, rfl, rfl, fun _ => ⟨rfl, rfl⟩⟩
  | false =>
    rw [he, if_neg (by decide)] at hu
    rw [hu]
    refine ⟨keeps_tam t _ (by decide), rfl, rfl, rfl, rfl, rfl, fun h => ?_⟩
    have hnil : s.tam.events.filter (·.window) = [] := h
    rw [hnil] at he
    cases he

/-- Settles O37: the closed events are logged one after another, and the latch clears with the last event. -/
theorem eventsLogged : Obligations.EventsLogged := by
  intro s
  refine ⟨fun hm hc => ?_, fun h => ?_⟩
  · have hany : (s.mainRun && s.tam.events.any fun e => !e.window) = true := by
      obtain ⟨e, he, hw⟩ := hc
      rw [hm, Bool.true_and, List.any_eq_true]
      exact ⟨e, he, by rw [hw]; rfl⟩
    have hlog := logEvents_logged (s.tam.events.filter fun e => !e.window) s
    obtain ⟨hk, hlife, he, hseq, htally, hlist, hpend⟩ := completeEvents_tam s
    refine ⟨_, congrArg (answer s) (if_pos hany), (hlog.keeps.trans hk.widen).settled, he, hseq.trans hlog.logSeq, ?_, fun e hin hw b hb => ?_,
      hpend, fun e hone hw => ?_⟩
    · show s.tam.tally ≤ s.completeEvents.tam.tally
      rw [htally]
      exact hlog.tally
    · show b < s.completeEvents.tam.tally
      rw [htally]
      exact hlog.bits e (List.mem_filter.2 ⟨hin, by rw [hw]; rfl⟩) b hb
    · have hclosed : (s.tam.events.filter fun e => !e.window) = [e] := by rw [hone]; simp [hw]
      rw [hclosed] at hlife hlist
      have hst : s.completeEvents.life.st = consequence s.life.st e := congrArg Life.st hlife
      refine ⟨hst, ⟨s.tam.logSeq + 1, e, lcCode s.life.st, lcCode (consequence s.life.st e)⟩, ?_, rfl, rfl, rfl, ?_⟩
      · exact congrArg List.head? hlist
      · exact (congrArg lcCode hst).symm
  · have hany : (s.mainRun && s.tam.events.any fun e => !e.window) = false := by
      rcases h with h | h
      · rw [h, Bool.false_and]
      · rw [List.any_eq_false.2 fun e he => by rw [h e he]; decide, Bool.and_false]
    exact ⟨_, congrArg (answer s) (if_neg (Bool.eq_false_iff.1 hany)), s.sameBut_settled⟩

/-! ### Built-in tests (12 R286, R307, R308) -/

theorem testable_idle {k : Nat} (h : s.testable k = true) : s.tam.testBusy = false := by
  simp only [State.testable, Bool.and_eq_true, Bool.not_eq_true'] at h
  exact h.1.1.1.1.1.1.1

theorem ofNat_toNat_byte (k : Byte) : BitVec.ofNat 8 k.toNat = k := by simp

theorem startTest_keeps (k : Nat) : s.keeps (s.startTest k) [.tam] := keeps_tam s _ (by decide)

/-- Settles O38: a test starts where `testable` says so; its end without a confirmation is an alarm of kind 13. -/
theorem monitorsTested : Obligations.MonitorsTested := by
  intro s
  refine ⟨fun k h => ?_, fun k h => ?_, fun k hk h => ?_, fun hb => ⟨?_, fun hm => ?_⟩, fun hb ok => ?_, fun dom => ⟨fun h1 h2 => ?_, fun h => ?_⟩⟩
  · let u := s.setTam { s.tam with testEntry := k }
    have hgo : (!u.tam.testBusy && u.testable k.toNat) = true := by
      have ht : u.testable k.toNat = true := h
      rw [ht, testable_idle u ht]
      rfl
    exact ⟨_, congrArg (answer s) (if_pos hgo), ((keeps_tam s _ (by decide)).trans (startTest_keeps u k.toNat)).settled, rfl, ofNat_toNat_byte k, rfl,
      rfl, rfl, mget_mset_self ..⟩
  · let u := s.setTam { s.tam with testEntry := k }
    have hno : (!u.tam.testBusy && u.testable k.toNat) = false := by
      have ht : u.testable k.toNat = false := h
      rw [ht, Bool.and_false]
    exact ⟨_, congrArg (answer s) (if_neg (Bool.eq_false_iff.1 hno)), setTam_only .., rfl⟩
  · have hlt : k < 256 := by
      obtain ⟨i, -, rfl⟩ := List.mem_map.1 (List.mem_of_find?_eq_some hk)
      omega
    have hrun : exec .monitorTestPeriodic s
        = answer s (if s.testable k then (s.startTest k).setTam { (s.startTest k).tam with nextTest := (k + 1) % 159 } else s) := by
      refine congrArg (answer s) ?_
      rw [hk]
    refine ⟨_, hrun.trans (congrArg (answer s) (if_pos h)), ((startTest_keeps s k).trans (keeps_tam _ _ (by decide))).settled, rfl, ?_, rfl, rfl⟩
    exact (BitVec.toNat_ofNat ..).trans (Nat.mod_eq_of_lt hlt)
  · refine ⟨_, congrArg (answer s) ((if_neg (by simp [hb])).trans (if_pos rfl)), setTam_only .., rfl, rfl, rfl, rfl, fun hf => ?_⟩
    exact if_pos hf
  · let u := s.setTam { s.tam with testBusy := false, testPass := false, testFail := true, testDone := s.tam.testRun
                                   fell := if s.tam.fell = .test then .armed else s.tam.fell }
    have hmain : (false || !u.mainRun) = false := by rw [show u.mainRun = s.mainRun from rfl, hm]; rfl
    have hrun : exec (.monitorTestEnd false) s = answer s (u.alarm 13 s.tam.testRun.toNat) :=
      congrArg (answer s) ((if_neg (by simp [hb])).trans (if_neg (Bool.eq_false_iff.1 hmain)))
    have ha := u.tam.fallen.alarm_alarmed 13 s.tam.testRun.toNat u.fell.time.counter
    have hu := alarm_tam u 13 s.tam.testRun.toNat
    refine ⟨_, hrun, ?_, ?_, ?_, ?_, ?_⟩
    · exact (congrArg Tamper.testBusy hu).trans (ha.testBusy.trans (by rw [u.tam.fallen_keeps]; rfl))
    · exact (congrArg Tamper.testFail hu).trans (ha.testFail.trans (by rw [u.tam.fallen_keeps]; rfl))
    · exact (congrArg Tamper.felledState hu).trans (ha.felledState.trans u.tam.fallen_felled)
    · exact (congrArg Tamper.tampOutN hu).trans ha.tampOutN
    · exact (congrArg Tamper.storageKey hu).trans (ha.emptied (by decide)).1
  · exact ⟨_, congrArg (answer s) (if_pos (by simp [hb])), s.sameBut_settled⟩
  · have hgo : ((s.domain dom.val).up && (s.domain dom.val).pgood) = true := by rw [h1, h2]; rfl
    refine ⟨_, congrArg (answer s) (if_pos hgo), setTam_only .., fun k hk => ?_, fun k hk z => ?_, rfl⟩
    · exact (armed_of_arm s (entriesOf dom.val) true k false).trans (if_pos hk)
    · exact (armed_of_arm s (entriesOf dom.val) true k z).trans (if_neg hk)
  · have hno : ((s.domain dom.val).up && (s.domain dom.val).pgood) = false := by
      rcases h with h | h
      · rw [h, Bool.false_and]
      · rw [h, Bool.and_false]
    exact ⟨_, congrArg (answer s) (if_neg (Bool.eq_false_iff.1 hno)), s.sameBut_settled⟩

/-! ### Margin sentinels (12 R309 to R311) -/

theorem sentinel_setSentinel (c f g : Nat) (x : Sentinel) :
    (s.setSentinel c f x).sentinel c g = if g = f then x else s.sentinel c g := by
  have hkey : sentinelKey c g = sentinelKey c f ↔ g = f := by
    unfold sentinelKey
    omega
  exact (mget_mset s.eng.sentinels (sentinelKey c f) (sentinelKey c g) x {}).trans (ite_congr (propext hkey) (fun _ => rfl) fun _ => rfl)

theorem sentinelRun_ops (x : Sentinel) (k n : Nat) : (x.run k n).ops = x.ops + BitVec.ofNat 64 n := by
  unfold Sentinel.run
  split <;> rfl

/-- Blocks that are run count on one of the two FCEs or the other. -/
theorem runBlocks_ops (c n : Nat) (h : s.ops c + n < 2 ^ 64) : (s.runBlocks c n).ops c = s.ops c + n := by
  have hs : s.ops c = (s.sentinel c 0).ops.toNat + (s.sentinel c 1).ops.toNat := rfl
  have hle : Config.freeNat 9 (s.ops c) % (n + 1) ≤ n := Nat.le_of_lt_succ (Nat.mod_lt _ (Nat.succ_pos n))
  unfold State.runBlocks
  generalize Config.freeNat 9 (s.ops c) % (n + 1) = a at hle
  simp only [State.ops, sentinel_setSentinel _ c, Nat.zero_ne_one, if_true, if_false, sentinelRun_ops,
    BitVec.toNat_add, BitVec.toNat_ofNat]
  omega

theorem runBlocks_keeps (c n : Nat) : s.keeps (s.runBlocks c n) [.eng] := keeps_eng s _ (by decide)

theorem fillBlocks_keeps (c n : Nat) : s.keeps (s.fillBlocks c n) [.eng] := .ite (runBlocks_keeps ..) (.refl _ _)

/-- An interval that is filled up has its blocks. -/
theorem fillBlocks_ops (c n : Nat) (h0 : (mget s.tam.interval c (0, 0)).1 ≤ s.ops c) (h : s.ops c + n < 2 ^ 64) :
    n ≤ (s.fillBlocks c n).ops c - (mget s.tam.interval c (0, 0)).1 := by
  rcases Nat.lt_or_ge (s.ops c - (mget s.tam.interval c (0, 0)).1) n with hlt | hge
  · have hrun : s.fillBlocks c n = s.runBlocks c (n - (s.ops c - (mget s.tam.interval c (0, 0)).1)) := if_pos hlt
    rw [hrun, runBlocks_ops s c _ (by omega)]
    omega
  · have hrun : s.fillBlocks c n = s := if_neg (Nat.not_lt.2 hge)
    rwa [hrun]

theorem setAdvance_keeps (c a : Nat) : s.keeps (s.setAdvance c a) [.eng] :=
  .fold (fun s _ => .ite (.refl _ _) (keeps_eng s _ (by decide))) _ s

theorem setAdvance_advance (c a : Nat) (ha : a < 16) : ((s.setAdvance c a).sentinel c 0).advance.toNat = a := by
  have hmod : (BitVec.ofNat 4 a).toNat = a := (BitVec.toNat_ofNat ..).trans (Nat.mod_eq_of_lt ha)
  simp only [State.setAdvance, List.foldl_cons, List.foldl_nil]
  rw [apply_ite (State.sentinel · c 0), sentinel_setSentinel _ c 1 0 _, if_neg Nat.zero_ne_one, ite_self]
  split
  · assumption
  · rw [sentinel_setSentinel _ c 0 0 _, if_pos rfl, hmod]

theorem setDroop_keeps (c v : Nat) : s.keeps (s.setDroop c v) [.tam] := keeps_tam s _ (by decide)

theorem setDroop_droop (c v : Nat) :
    mget (s.setDroop c v).tam.droop (3 + c) 0 = BitVec.ofNat 8 (max (sentConst c 2) (min (sentConst c 3) v)) :=
  (mget_mset_ne (mset s.tam.droop (3 + c) _) _ _ (show 3 + c ≠ 11 + c by omega)).trans (mget_mset_self ..)

theorem wantRepair_runsOps (c : Nat) : s.runsOps (s.wantRepair c) :=
  .ite (.refl s) (.ite (runsOps_startOp s _) (runsOps_setPwr s _ rfl))

/-- The ADVANCE an interval's end sets (12 R310). -/
def nextAdvance (m b a : Nat) : Nat := if m = 0 ∧ a < 15 then a + 1 else if m * 2048 ≤ b then a else a - 1

/-- The state in which the next interval begins. -/
def State.nextInterval (s : State) (c a : Nat) (l : Option Nat) : State :=
  let v := s.setAdvance c a
  let w := l.elim v fun x => v.setDroop c (droopOf c x)
  w.setTam { w.tam with phase := mset w.tam.phase c (.two l), interval := mset w.tam.interval c (w.ops c, w.misses c) }

theorem intervalEnd_eq (c : Nat) (l : Option Nat) :
    s.intervalEnd c l
      = let b := s.ops c - (mget s.tam.interval c (0, 0)).1
        let m := s.misses c - (mget s.tam.interval c (0, 0)).2
        let a := (s.sentinel c 0).advance.toNat
        if a = 0 ∧ b < m * 2048 then
          let d := s.setDroop c (sentConst c 1)
          (d.setTam { d.tam with lowMargin := mset d.tam.lowMargin c true, phase := mset d.tam.phase c .off }).wantRepair c
        else s.nextInterval c (nextAdvance m b a) (if m * 2048 ≤ b then some a else l) := by
  unfold State.intervalEnd State.nextInterval nextAdvance
  dsimp only
  by_cases h : (s.misses c - (mget s.tam.interval c (0, 0)).2) * 2048 ≤ s.ops c - (mget s.tam.interval c (0, 0)).1
  · simp only [h, Nat.not_lt.2 h, decide_true, Bool.not_true, Bool.false_eq_true, and_false, if_true, if_false]
    rfl
  · simp only [h, Nat.lt_of_not_le h, decide_false, Bool.not_false, and_true, if_true, if_false, Bool.false_eq_true]
    cases l <;> rfl

theorem nextInterval_keeps (c a : Nat) (l : Option Nat) : s.keeps (s.nextInterval c a l) [.eng, .tam] := by
  have hv : s.keeps (s.setAdvance c a) [.eng, .tam] := (setAdvance_keeps s c a).widen
  cases l with
  | none => exact hv.trans (keeps_tam _ _ (by decide))
  | some x => exact hv.trans ((setDroop_keeps _ c _).widen.trans (keeps_tam _ _ (by decide)))

theorem nextInterval_tam (c a : Nat) (l : Option Nat) :
    mget (s.nextInterval c a l).tam.phase c .off = .two l
      ∧ mget (s.nextInterval c a l).tam.interval c (0, 0) = ((s.nextInterval c a l).ops c, (s.nextInterval c a l).misses c) :=
  ⟨mget_mset_self .., mget_mset_self ..⟩

theorem nextInterval_sentinel (c a : Nat) (l : Option Nat) : (s.nextInterval c a l).sentinel c 0 = (s.setAdvance c a).sentinel c 0 := by
  unfold State.sentinel
  cases l <;> rfl

theorem nextInterval_advance (c a : Nat) (l : Option Nat) (ha : a < 16) : ((s.nextInterval c a l).sentinel c 0).advance.toNat = a := by
  rw [nextInterval_sentinel]
  exact setAdvance_advance s c a ha

theorem nextInterval_droop (c a x : Nat) :
    mget (s.nextInterval c a (some x)).tam.droop (3 + c) 0
      = BitVec.ofNat 8 (max (sentConst c 2) (min (sentConst c 3) (droopOf c x))) :=
  setDroop_droop (s.setAdvance c a) c (droopOf c x)

/-- An interval ends: every clause of R310 about the state u that has its blocks. -/
theorem intervalEnd_ends (c : Nat) (l : Option Nat) (o : Nat × Nat) (ho : o = mget s.tam.interval c (0, 0)) :
    let t := s.intervalEnd c l
    let b := s.ops c - o.1
    let m := s.misses c - o.2
    let a := (s.sentinel c 0).advance.toNat
    (m * 2048 ≤ b → s.keeps t [.eng, .tam] ∧ mget t.tam.phase c .off = .two (some a)
        ∧ (t.sentinel c 0).advance.toNat = (if m = 0 ∧ a < 15 then a + 1 else a)
        ∧ mget t.tam.droop (3 + c) 0 = BitVec.ofNat 8 (max (sentConst c 2) (min (sentConst c 3) (droopOf c a)))
        ∧ mget t.tam.interval c (0, 0) = (t.ops c, t.misses c))
      ∧ (b < m * 2048 → 0 < a → s.keeps t [.eng, .tam] ∧ mget t.tam.phase c .off = .two l
        ∧ (t.sentinel c 0).advance.toNat = a - 1)
      ∧ (b < m * 2048 → a = 0 → mget t.tam.lowMargin c false = true ∧ mget t.tam.phase c .one = .off) := by
  subst ho
  intro t b m a
  have heq := intervalEnd_eq s c l
  have ha : a < 16 := (s.sentinel c 0).advance.isLt
  refine ⟨fun hlow => ?_, fun hmiss h0 => ?_, fun hmiss h0 => ?_⟩
  · have hend : s.intervalEnd c l = s.nextInterval c (nextAdvance m b a) (some a) := by
      rw [heq]
      exact (if_neg fun h => absurd h.2 (Nat.not_lt.2 hlow)).trans (by rw [if_pos hlow])
    have hadv : nextAdvance m b a = if m = 0 ∧ a < 15 then a + 1 else a := by rw [nextAdvance, if_pos hlow]
    have hlt : nextAdvance m b a < 16 := by rw [hadv]; split <;> omega
    obtain ⟨hphase, hint⟩ := nextInterval_tam s c (nextAdvance m b a) (some a)
    rw [show t = s.nextInterval c (nextAdvance m b a) (some a) from hend]
    exact ⟨nextInterval_keeps .., hphase, (nextInterval_advance s c _ _ hlt).trans hadv, nextInterval_droop .., hint⟩
  · have hend : s.intervalEnd c l = s.nextInterval c (nextAdvance m b a) l := by
      rw [heq]
      exact (if_neg fun h => Nat.ne_of_gt h0 h.1).trans (by rw [if_neg (Nat.not_le.2 hmiss)])
    have hadv : nextAdvance m b a = a - 1 := by
      rw [nextAdvance, if_neg (Nat.not_le.2 hmiss), if_neg fun h => by have := h.1; omega]
    obtain ⟨hphase, -⟩ := nextInterval_tam s c (nextAdvance m b a) l
    rw [show t = s.nextInterval c (nextAdvance m b a) l from hend]
    exact ⟨nextInterval_keeps .., hphase, (nextInterval_advance s c _ _ (by omega)).trans hadv⟩
  · let d := s.setDroop c (sentConst c 1)
    let w := d.setTam { d.tam with lowMargin := mset d.tam.lowMargin c true, phase := mset d.tam.phase c .off }
    have hend : s.intervalEnd c l = w.wantRepair c := heq.trans (if_pos ⟨h0, hmiss⟩)
    have htam : (s.intervalEnd c l).tam = w.tam := by rw [hend]; exact (wantRepair_runsOps w c).keeps.tam_eq
    constructor
    · show mget (s.intervalEnd c l).tam.lowMargin c false = true
      rw [htam]
      exact mget_mset_self ..
    · show mget (s.intervalEnd c l).tam.phase c .one = .off
      rw [htam]
      exact mget_mset_self ..

/-- The top-up of phase 1 runs the blocks that are missing. -/
theorem topUp_ops (c : Nat) (h : s.ops c + 2 ^ 16 < 2 ^ 64) (h0 : mget s.tam.topUp c 0 ≤ s.ops c) :
    mget s.tam.topUp c 0 + 2 ^ 16
      ≤ (if s.ops c - mget s.tam.topUp c 0 < 2 ^ 16 then s.runBlocks c (2 ^ 16 - (s.ops c - mget s.tam.topUp c 0)) else s).ops c := by
  split
  · rw [runBlocks_ops s c _ (by omega)]
    omega
  · omega

/-- Settles O39: `intervalEnd_ends` on the state that has the interval's blocks. -/
theorem sentinelsAdjust : Obligations.SentinelsAdjust := by
  intro c s o ends
  have hends : ∀ (i : Instr) (n : Nat) (l : Option Nat), exec i s = answer s ((s.fillBlocks c.val n).intervalEnd c.val l) → ends i n l := by
    intro i n l hi
    have htam : (s.fillBlocks c.val n).tam = s.tam := (fillBlocks_keeps s c.val n).tam_eq
    obtain ⟨h1, h2, h3⟩ := intervalEnd_ends (s.fillBlocks c.val n) c.val l o (by rw [htam])
    have hk := (fillBlocks_keeps s c.val n).widen (l' := [.eng, .tam])
    exact ⟨_, _, rfl, hi, fillBlocks_ops s c.val n, fun hl => (h1 hl).imp_left fun h => (hk.trans h).settled,
      fun hl h0 => (h2 hl h0).imp_left fun h => (hk.trans h).settled, h3⟩
  refine ⟨fun h => hends _ _ _ ?_, fun a h => hends _ _ _ ?_, fun h => ?_, fun h i hi => ?_⟩
  · refine congrArg (answer s) ?_
    rw [h]
  · refine congrArg (answer s) ?_
    rw [h]
  · let u := if s.ops c.val - mget s.tam.topUp c.val 0 < 2 ^ 16 then s.runBlocks c.val (2 ^ 16 - (s.ops c.val - mget s.tam.topUp c.val 0)) else s
    have hrun : exec (.sentinelTopUp c) s = answer s (u.setTam { u.tam with topUp := mset u.tam.topUp c.val (u.ops c.val) }) := by
      refine congrArg (answer s) ?_
      rw [h]
    have hu : s.keeps u [.eng, .tam] := .ite (runBlocks_keeps ..).widen (.refl _ _)
    exact ⟨_, hrun, (hu.trans (keeps_tam _ _ (by decide))).settled, mget_mset_self .., topUp_ops s c.val⟩
  · have hrun : exec i s = answer s s := by
      simp only [List.mem_cons, List.not_mem_nil, or_false] at hi
      rcases hi with rfl | rfl | rfl <;> exact congrArg (answer s) (by rw [h])
    exact ⟨_, hrun, s.sameBut_settled⟩

end Sys2Proof.Machine
end

section
/-! A partition's work dropped (02 R55), the virtual functions that come and go (02 R56), and the board controller's requests (18 R422). -/

namespace Sys2Proof.Machine

variable (s : State)

/-! ### Work that is dropped -/

/-- What dropping descriptors, and the cluster operations and commits that were theirs, may leave of s in t. -/
structure State.sheds (s t : State) : Prop where
  keeps : s.keeps t [.host, .disp, .kr, .eng, .gate, .mesh, .pwr, .vault]
  present : ∀ m, (t.func m).present = (s.func m).present
  fnReady : ∀ m, (t.func m).fnReady = (s.func m).fnReady
  partResets : ∀ m, (t.func m).partResets = (s.func m).partResets
  records : ∀ r ∈ t.disp.descs, r.ring < meshRing → ∃ q ∈ s.disp.descs, q.sameDesc r

section
variable {s} {t u : State}

theorem State.drains.sheds (h : s.drains t) : s.sheds t := ⟨h.keeps.widen, h.present, h.fnReady, h.partResets, h.records⟩

theorem State.sheds.refl (s : State) : s.sheds s := (State.drains.refl s).sheds

theorem State.sheds.trans (h : s.sheds t) (k : t.sheds u) : s.sheds u where
  keeps := h.keeps.trans k.keeps
  present := fun m => (k.present m).trans (h.present m)
  fnReady := fun m => (k.fnReady m).trans (h.fnReady m)
  partResets := fun m => (k.partResets m).trans (h.partResets m)
  records := fun r hr hm => by
    obtain ⟨q, hq, hqr⟩ := k.records r hr hm
    obtain ⟨p, hp, hpq⟩ := h.records q hq (hqr.ring ▸ hm)
    exact ⟨p, hp, hpq.trans hqr⟩

theorem State.sheds.ite {p : Prop} [Decidable p] (h : s.sheds t) (k : s.sheds u) : s.sheds (if p then t else u) := by
  split <;> assumption

/-- A step that changes no function's registers and leaves every record. -/
theorem State.sheds.of_funcs (h : s.keeps t [.host, .disp, .kr, .eng, .gate, .mesh, .pwr, .vault]) (hf : t.host.funcs = s.host.funcs)
    (hr : s.relabels t) : s.sheds t := by
  have hfn : ∀ m, t.func m = s.func m := fun m => by rw [State.func, State.func, hf]
  exact ⟨h, fun m => by rw [hfn], fun m => by rw [hfn], fun m => by rw [hfn], fun r hm _ => (State.narrows.mem hr hm).2⟩

/-- No record of a host ring of function n stands afterwards where none stood before. -/
theorem State.sheds.noneOf (h : s.sheds t) {n : Nat} (hs : ∀ d ∈ s.disp.descs, ¬(d.fn = n ∧ d.ring < meshRing)) :
    ∀ d ∈ t.disp.descs, ¬(d.fn = n ∧ d.ring < meshRing) := fun d hd ⟨hn, hr⟩ => by
  obtain ⟨q, hq, hqd⟩ := h.records d hd hr
  exact hs q hq ⟨hqd.fn ▸ hn, hqd.ring ▸ hr⟩

end

theorem relabels_quiesceStart (c : Nat) : s.relabels (s.quiesceStart c) := by
  refine ⟨fun r => if ((s.setServing c false).disp.descs.filter fun r =>
      r.stage == .queued && !r.begun && clusterOf r == c).map (·.id) |>.contains r.id then { r with stage := .inbox } else r, fun r => ?_, ?_⟩
  · dsimp only
    split
    · exact ⟨rfl, rfl, rfl, rfl, rfl⟩
    · exact .refl r
  · rw [List.filter_true]
    rfl

/-- What a step of the cluster operations leaves alone besides. -/
def State.turns (s t : State) : Prop := s.keeps t [.disp, .eng, .pwr] ∧ s.relabels t

theorem State.turns.trans {s t u : State} (h : s.turns t) (k : t.turns u) : s.turns u := ⟨h.1.trans k.1, h.2.trans k.2⟩

theorem turns_setPwr (p : Power) : s.turns (s.setPwr p) := ⟨keeps_pwr s p (by decide), .of_disp rfl⟩

theorem turns_quiesceStart (c : Nat) : s.turns (s.quiesceStart c) :=
  ⟨((keeps_pwr (l := [.disp, .eng, .pwr]) s _ (by decide)).trans (keeps_disp _ _ (by decide))).trans (keeps_eng _ _ (by decide)),
    relabels_quiesceStart s c⟩

theorem turns_startOp (op : ClusterOp) : s.turns (s.startOp op) := by
  have h : s.turns (s.setPwr { s.pwr with current := some op, cycled := false }) := turns_setPwr s _
  unfold State.startOp
  cases op with
  | verb d k =>
    refine h.trans ⟨keeps_disp _ _ (by decide), ?_⟩
    exact relabels_modDesc _ d _ fun _ => ⟨rfl, rfl, rfl, rfl, rfl⟩
  | repair c =>
    dsimp only
    split
    · exact h.trans (turns_quiesceStart _ c)
    · exact h
  | update c =>
    dsimp only
    split
    · exact h.trans (turns_quiesceStart _ c)
    · exact h

theorem turns_nextOp (f : Nat) : ∀ s : State, s.turns (s.nextOp f) := by
  induction f with
  | zero => exact fun s => ⟨.refl _ _, .refl s⟩
  | succ f ih =>
    intro s
    unfold State.nextOp
    split
    · exact ⟨.refl _ _, .refl s⟩
    · rename_i op rest _
      have h : s.turns (s.setPwr { s.pwr with turn := rest }) := turns_setPwr s _
      dsimp only
      split
      · split
        · exact h.trans (turns_startOp ..)
        · exact h.trans (ih _)
      · exact h.trans (turns_startOp ..)

theorem turns_opGone : s.turns s.opGone := by
  unfold State.opGone
  split
  · split
    · exact (turns_setPwr s { s.pwr with current := none, cycled := false }).trans (turns_nextOp ..)
    · exact ⟨.refl _ _, .refl s⟩
  · exact ⟨.refl _ _, .refl s⟩

theorem sheds_opGone : s.sheds s.opGone :=
  .of_funcs (turns_opGone s).1.widen (by rw [(turns_opGone s).1.host_eq]) (turns_opGone s).2

/-! ### The partition's descriptors (02 R55) -/

theorem drains_abandonPart (p : Nat) : s.drains (s.abandonPart p) := .of_keeps (keeps_releaseLocks s _ _)

theorem drains_releaseSlots (l : List Nat) : s.drains (l.foldl State.releaseSlot s) :=
  .fold (f := State.releaseSlot) (fun s _ => .of_keeps (l := [.kr]) (keeps_kr s _ (by decide))) l s

/-- The vault and the domains a drop of a partition's work leaves. -/
theorem dropPart_drains (n : Nat) (owner : Bool) : ∃ t : State, s.drains t ∧ s.dropPart n owner = t.opGone := by
  refine ⟨_, ?_, rfl⟩
  refine (drains_abandonPart s n).trans (State.drains.trans (.fold (fun s d => ?_) _ _) ((drains_releaseSlots _ _).trans (drains_settle _)))
  exact .ite (drains_completeOne ..) (drains_removeDesc ..)

theorem dropPart_sheds (n : Nat) (owner : Bool) : s.sheds (s.dropPart n owner) := by
  obtain ⟨t, ht, he⟩ := dropPart_drains s n owner
  rw [he]
  exact ht.sheds.trans (sheds_opGone t)

theorem dropPart_vault (n : Nat) (owner : Bool) : (s.dropPart n owner).vault = s.vault := by
  obtain ⟨t, ht, he⟩ := dropPart_drains s n owner
  rw [he, (turns_opGone t).1.vault_eq, ht.keeps.vault_eq]

/-- After a reset that completes nothing, no record of a host ring of function n stands. -/
theorem dropPart_none (n : Nat) : ∀ d ∈ (s.dropPart n false).disp.descs, ¬(d.fn = n ∧ d.ring < meshRing) := by
  let a := s.abandonPart n
  let b := (a.fnDescs n).foldl (fun (s : State) d => s.removeDesc d true) a
  have hb : ∀ d ∈ b.disp.descs, ¬(d.fn = n ∧ d.ring < meshRing) := fun d hd ⟨hn, hr⟩ => by
    have hl : a.loses b ((a.fnDescs n).flatMap fun d => [d]) := State.loses.fold (fun s d => loses_removeDesc s d true) (a.fnDescs n) a
    obtain ⟨hgone, r, hr', hrd⟩ := hl.mem hd
    refine hgone (List.mem_flatMap.2 ⟨d.id, List.mem_map.2 ⟨r, List.mem_filter.2 ⟨hr', ?_⟩, hrd.id.symm⟩, List.mem_singleton_self _⟩)
    rw [← hrd.fn, ← hrd.ring, hn, decide_eq_true hr, beq_self_eq_true]
    rfl
  have hsheds : b.sheds (s.dropPart n false) :=
    (((drains_releaseSlots _ _).trans (drains_settle _)).sheds).trans (sheds_opGone _)
  exact hsheds.noneOf hb

/-! ### Function-level resets (02 R55) -/

theorem abandonCommit_commit : s.abandonCommit.vault.commit = none := by
  unfold State.abandonCommit
  split
  · assumption
  · have hk : (s.setVault { s.vault with commit := none }).keeps (s.setVault { s.vault with commit := none }).roomMade [.disp] :=
      .fold (fun s (w : Nat × Nat × Nat) => .ite (keeps_unwait s w.1) (.refl _ _)) _ _
    exact congrArg Vault.commit hk.vault_eq

theorem abandonCommit_sheds : s.sheds s.abandonCommit := by
  unfold State.abandonCommit
  split
  · exact .refl s
  · let t := s.setVault { s.vault with commit := none }
    have hk : t.keeps t.roomMade [.disp] := .fold (fun s (w : Nat × Nat × Nat) => .ite (keeps_unwait s w.1) (.refl _ _)) _ _
    have hr : t.relabels t.roomMade := .fold (fun s (w : Nat × Nat × Nat) => .ite (relabels_unwait s w.1) (.refl _)) _ _
    exact .of_funcs ((keeps_vault s _ (by decide)).trans hk.widen) (by rw [hk.host_eq]; rfl) hr

theorem pagingReset_sheds : s.sheds s.pagingReset := by
  refine (abandonCommit_sheds s).trans (.of_funcs ?_ rfl (.of_disp rfl))
  exact (keeps_vault _ _ (by decide)).trans (keeps_host _ _ (by decide))

/-- The paging rings after a reset of the physical function. -/
theorem pagingReset_vault :
    s.pagingReset.vault.pgEnabled = false ∧ s.pagingReset.vault.pgFault = false ∧ s.pagingReset.vault.reqs = []
      ∧ s.pagingReset.vault.commit = none :=
  ⟨rfl, rfl, rfl, abandonCommit_commit s⟩

/-- A function-level reset, but for the registers of the function itself. -/
theorem flr_is (n : Nat) : ∃ t : State, s.sheds t ∧ s.flr n = t.setFunc n ((t.func n).afterReset false)
    ∧ (∀ d ∈ t.disp.descs, ¬(d.fn = n ∧ d.ring < meshRing)) ∧ (n ≠ 0 → t.vault = s.vault)
    ∧ (n = 0 → t.vault.pgEnabled = false ∧ t.vault.pgFault = false ∧ t.vault.reqs = [] ∧ t.vault.commit = none) := by
  have hd := dropPart_sheds s n false
  rcases Nat.eq_zero_or_pos n with h | h
  · subst h
    exact ⟨_, hd.trans (pagingReset_sheds _), rfl, (pagingReset_sheds _).noneOf (dropPart_none s 0), fun h => absurd rfl h,
      fun _ => pagingReset_vault _⟩
  · refine ⟨_, hd, ?_, dropPart_none s n, fun _ => dropPart_vault s n false, fun h0 => absurd h0 (Nat.ne_of_gt h)⟩
    exact congrArg (fun t : State => t.setFunc n ((t.func n).afterReset false)) (if_neg (Nat.ne_of_gt h))

theorem flr_func (n : Nat) :
    (s.flr n).func n = { present := (s.func n).present, fnReady := true, partResets := (s.func n).partResets + 1 } := by
  obtain ⟨t, ht, he, -⟩ := flr_is s n
  rw [he, State.func_setFunc, ← ht.present n, ← ht.partResets n]
  rfl

theorem flr_func_ne (n : Nat) {m : Nat} (h : m ≠ n) :
    ((s.flr n).func m).present = (s.func m).present ∧ ((s.flr n).func m).fnReady = (s.func m).fnReady
      ∧ ((s.flr n).func m).partResets = (s.func m).partResets := by
  obtain ⟨t, ht, he, -⟩ := flr_is s n
  rw [he, State.func_setFunc_ne _ _ h]
  exact ⟨ht.present m, ht.fnReady m, ht.partResets m⟩

theorem flr_keeps (n : Nat) : s.keeps (s.flr n) [.host, .disp, .kr, .eng, .gate, .mesh, .pwr, .vault] := by
  obtain ⟨t, ht, he, -⟩ := flr_is s n
  rw [he]
  exact ht.keeps.trans (keeps_host _ _ (by decide))

/-- The reset of a virtual function that is then removed. -/
def State.removeVf (s : State) (n : Nat) : State := (s.flr n).setFunc n { (s.flr n).func n with present := false, fnReady := false }

theorem removeVf_keeps (n : Nat) : s.keeps (s.removeVf n) [.host, .disp, .kr, .eng, .gate, .mesh, .pwr, .vault] :=
  (flr_keeps s n).trans (keeps_host _ _ (by decide))

theorem removeVf_func (n : Nat) : ((s.removeVf n).func n).present = false ∧ ((s.removeVf n).func n).fnReady = false := by
  unfold State.removeVf
  rw [State.func_setFunc]
  exact ⟨rfl, rfl⟩

theorem removeVf_func_ne (n : Nat) {m : Nat} (h : m ≠ n) :
    ((s.removeVf n).func m).present = (s.func m).present ∧ ((s.removeVf n).func m).fnReady = (s.func m).fnReady
      ∧ ((s.removeVf n).func m).partResets = (s.func m).partResets := by
  unfold State.removeVf
  rw [State.func_setFunc_ne _ _ h]
  exact flr_func_ne s n h

/-- Virtual functions that are removed one after another. -/
theorem removeVfs_func (l : List Nat) : ∀ s : State,
    (∀ m ∈ l, ((l.foldl State.removeVf s).func m).present = false)
    ∧ ∀ m ∉ l, ((l.foldl State.removeVf s).func m).present = (s.func m).present
      ∧ ((l.foldl State.removeVf s).func m).partResets = (s.func m).partResets := by
  induction l with
  | nil => exact fun s => ⟨fun m hm => (nomatch hm), fun m _ => ⟨rfl, rfl⟩⟩
  | cons n r ih =>
    intro s
    obtain ⟨h1, h2⟩ := ih (s.removeVf n)
    refine ⟨fun m hm => ?_, fun m hm => ?_⟩
    · by_cases hr : m ∈ r
      · exact h1 m hr
      · obtain rfl := (List.mem_cons.1 hm).resolve_right hr
        exact (h2 m hr).1.trans (removeVf_func s m).1
    · obtain ⟨hne, hr⟩ := not_or.1 (mt List.mem_cons.2 hm)
      obtain ⟨hp, -, hk⟩ := removeVf_func_ne s n hne
      exact ⟨(h2 m hr).1.trans hp, (h2 m hr).2.trans hk⟩

theorem dropVfs_eq : s.dropVfs = (s.present.filter (· != 0)).foldl State.removeVf s := rfl

/-- The virtual functions are gone, and the physical one stands. -/
theorem dropVfs_func :
    (∀ m : Fn, m.val ≠ 0 → (s.dropVfs.func m.val).present = false)
    ∧ (s.dropVfs.func 0).present = (s.func 0).present ∧ (s.dropVfs.func 0).partResets = (s.func 0).partResets := by
  obtain ⟨h1, h2⟩ := removeVfs_func (s.present.filter (· != 0)) s
  rw [dropVfs_eq]
  refine ⟨fun m hm => ?_, h2 0 fun h => by simp at h⟩
  by_cases hin : m.val ∈ s.present.filter (· != 0)
  · exact h1 _ hin
  · rw [(h2 _ hin).1]
    refine Bool.eq_false_iff.2 fun hp => hin (List.mem_filter.2 ⟨List.mem_filter.2 ⟨List.mem_range.2 m.isLt, hp⟩, by simpa using hm⟩)

/-- Settles O32: `flr_is` and `flr_func`, after the virtual functions have gone where the function is the physical one. -/
theorem functionResets : Obligations.FunctionResets := by
  intro fn s
  refine ⟨fun h => ?_, fun hp hr ha => ?_⟩
  · have hno : (!(s.func fn.val).present || !(s.func fn.val).fnReady) = true := by
      rcases h with h | h <;> simp [h]
    exact ⟨_, congrArg (answer s) (if_pos hno), s.sameBut_settled⟩
  · have hgo : (!(s.func fn.val).present || !(s.func fn.val).fnReady) = false := by rw [hp, hr]; rfl
    by_cases h0 : fn.val = 0
    · obtain ⟨hvf, hpres, hres⟩ := dropVfs_func s
      have hask : s.resetAsked.isSome = false := congrArg Option.isSome (ha h0)
      have hrun : exec (.functionLevelReset fn) s = answer s (s.dropVfs.flr 0) :=
        congrArg (answer s) ((if_neg (Bool.eq_false_iff.1 hgo)).trans ((if_pos h0).trans (if_neg (Bool.eq_false_iff.1 hask))))
      obtain ⟨t, -, he, hnone, -, hpag⟩ := flr_is s.dropVfs 0
      have hfn := flr_func s.dropVfs 0
      have hvf' : ∀ m : Fn, m.val ≠ 0 → ((s.dropVfs.flr 0).func m.val).present = false := fun m hm =>
        (flr_func_ne s.dropVfs 0 hm).1.trans (hvf m hm)
      have hdisp : (s.dropVfs.flr 0).disp = t.disp := by rw [he]; rfl
      have hvault : (s.dropVfs.flr 0).vault = t.vault := by rw [he]; rfl
      rw [h0] at hp ⊢
      rw [hpres, hres, hp] at hfn
      generalize s.dropVfs.flr 0 = x at hrun hfn hvf' hdisp hvault
      rw [← hdisp] at hnone
      rw [← hvault] at hpag
      exact ⟨_, hrun, hfn, hnone, fun _ => ⟨hvf', hpag rfl⟩, fun h => absurd rfl h⟩
    · have hrun : exec (.functionLevelReset fn) s = answer s (s.flr fn.val) :=
        congrArg (answer s) ((if_neg (Bool.eq_false_iff.1 hgo)).trans (if_neg h0))
      obtain ⟨t, -, he, hnone, hv, -⟩ := flr_is s fn.val
      have hfn := flr_func s fn.val
      have hdisp : (s.flr fn.val).disp = t.disp := by rw [he]; rfl
      have hvault : (s.flr fn.val).vault = t.vault := by rw [he]; rfl
      rw [hp] at hfn
      generalize s.flr fn.val = x at hrun hfn hdisp hvault
      rw [← hdisp] at hnone
      exact ⟨_, hrun, hfn, hnone, fun h => absurd h h0, fun _ => congrArg Vault.pgEnabled (hvault.trans (hv h0))⟩

/-! ### The board controller's requests (18 R422, Table 18.5) -/

theorem changed_self : s.changed s = 0#8 := by
  simp only [State.changed, State.healthSame, beq_self_eq_true, Bool.and_self]
  rfl

/-- An item's answer: the item, and its new bit cleared. -/
theorem respond_served (code : Nat) (b : Bytes) (h : s.smbServed = true) :
    let t := s.settled (s.respond code b)
    s.keeps t [.host] ∧ t.host = { s.host with smbResp := b }
      ∧ ∀ k < 8, t.life.newItems.getLsbD k = (s.life.newItems.getLsbD k && !decide (k = code)) := by
  let u : State := { s with host := { s.host with smbResp := b }
                            life := { s.life with newItems := s.life.newItems &&& ~~~(BitVec.ofNat 8 (2 ^ code)) } }
  have hu : s.respond code b = u := if_neg (by rw [h]; decide)
  have hno : s.changed u = 0#8 := changed_self s
  rw [hu]
  have hk : s.keeps u [.host] := ⟨fun h => absurd (List.mem_singleton_self _) h, fun _ => rfl, fun _ => rfl, fun _ => rfl, fun _ => rfl,
    fun _ => rfl, fun _ => rfl, fun _ => rfl, fun _ => rfl, fun _ => rfl, fun _ => rfl, fun _ => rfl⟩
  refine ⟨hk.settled, rfl, fun k hk => ?_⟩
  show (u.life.newItems ||| s.changed u).getLsbD k = _
  rw [hno, BitVec.or_zero]
  show (s.life.newItems &&& ~~~(BitVec.ofNat 8 (2 ^ code))).getLsbD k = _
  rw [BitVec.getLsbD_and, BitVec.getLsbD_not, BitVec.getLsbD_ofNat, Nat.testBit_two_pow, decide_eq_true hk, Bool.true_and, Bool.true_and,
    decide_eq_decide.2 eq_comm]

theorem respond_unserved (code : Nat) (b : Bytes) (h : s.smbServed = false) : s.respond code b = s := if_pos (by rw [h]; rfl)

/-! ### SR-IOV (02 R56) -/

theorem vfGoes_eq (n : Nat) : s.vfGoes n = if (s.func n).present then s.removeVf n else s := by
  unfold State.vfGoes
  cases (s.func n).present <;> rfl

/-- One function of those that SR-IOV enables or takes. -/
def State.vfStep (s : State) (n i : Nat) : State := if i + 1 ≤ n then s.vfAppears (i + 1) else s.vfGoes (i + 1)

theorem vfStep_keeps (n i : Nat) : s.keeps (s.vfStep n i) [.host, .disp, .kr, .eng, .gate, .mesh, .pwr, .vault] := by
  unfold State.vfStep
  rw [vfGoes_eq]
  exact .ite (.ite (.refl _ _) (keeps_host s _ (by decide))) (.ite (removeVf_keeps ..) (.refl _ _))

theorem vfStep_func_ne (n i : Nat) {m : Nat} (h : m ≠ i + 1) :
    ((s.vfStep n i).func m).present = (s.func m).present ∧ ((s.vfStep n i).func m).fnReady = (s.func m).fnReady := by
  unfold State.vfStep
  split
  · unfold State.vfAppears
    split
    · exact ⟨rfl, rfl⟩
    · rw [State.func_setFunc_ne _ _ h]
      exact ⟨rfl, rfl⟩
  · rw [vfGoes_eq]
    split
    · obtain ⟨hp, hr, -⟩ := removeVf_func_ne s (i + 1) h
      exact ⟨hp, hr⟩
    · exact ⟨rfl, rfl⟩

/-- What SR-IOV makes of function m, from s to t: enabled where `on`. -/
structure VfSet (s t : State) (m : Nat) (on : Bool) : Prop where
  present : (t.func m).present = on
  ready : on = true → (s.func m).present = false → (t.func m).fnReady = (s.life.boot == .done)
  gone : on = false → (t.func m).fnReady = false ∨ (s.func m).present = false

theorem vfStep_func (n i : Nat) : VfSet s (s.vfStep n i) (i + 1) (decide (i + 1 ≤ n)) := by
  unfold State.vfStep
  by_cases hn : i + 1 ≤ n
  · rw [if_pos hn, decide_eq_true hn]
    unfold State.vfAppears
    cases hp : (s.func (i + 1)).present with
    | true => exact ⟨hp, fun _ h => (by rw [hp] at h; cases h), fun h => nomatch h⟩
    | false =>
      rw [if_neg (by decide)]
      exact ⟨by rw [State.func_setFunc], fun _ _ => by rw [State.func_setFunc], fun h => nomatch h⟩
  · rw [if_neg hn, decide_eq_false hn, vfGoes_eq]
    cases hp : (s.func (i + 1)).present with
    | true => exact ⟨(removeVf_func ..).1, fun h => (nomatch h), fun _ => .inl (removeVf_func ..).2⟩
    | false => exact ⟨hp, fun h => (nomatch h), fun _ => .inr hp⟩

/-- The first k functions are set, and the others stand. -/
theorem vfSteps_func (n k : Nat) :
    let t := (List.range k).foldl (fun (s : State) i => s.vfStep n i) s
    t.life.boot = s.life.boot ∧ (∀ m, 0 < m → m ≤ k → VfSet s t m (decide (m ≤ n)))
      ∧ ∀ m, k < m → (t.func m).present = (s.func m).present ∧ (t.func m).fnReady = (s.func m).fnReady := by
  induction k with
  | zero => exact ⟨rfl, fun m h0 h => absurd h0 (Nat.not_lt.2 h), fun m _ => ⟨rfl, rfl⟩⟩
  | succ k ih =>
    obtain ⟨hb, hset, hstand⟩ := ih
    rw [List.range_succ, List.foldl_append]
    generalize (List.range k).foldl (fun (s : State) i => s.vfStep n i) s = t at hb hset hstand
    have hboot : (t.vfStep n k).life.boot = t.life.boot := by
      have h := congrArg Life.boot (vfStep_keeps t n k).life_eq
      exact h
    refine ⟨hboot.trans hb, fun m h0 hm => ?_, fun m hm => ?_⟩
    · rcases Nat.lt_or_ge k m with hk | hk
      · obtain rfl : m = k + 1 := Nat.le_antisymm hm hk
        obtain ⟨hp, hr, hg⟩ := vfStep_func t n k
        obtain ⟨hpres, -⟩ := hstand (k + 1) hk
        refine ⟨hp, fun hon hs => ?_, fun hon => ?_⟩
        · rw [← hb]
          exact hr hon (hpres.trans hs)
        · rw [← hpres]
          exact hg hon
      · obtain ⟨hp, hr, hg⟩ := hset m h0 hk
        obtain ⟨hpres, hready⟩ := vfStep_func_ne t n k (show m ≠ k + 1 by omega)
        exact ⟨hpres.trans hp, fun hon hs => hready.trans (hr hon hs), fun hon => (hg hon).imp_left hready.trans⟩
    · obtain ⟨hpres, hready⟩ := vfStep_func_ne t n k (show m ≠ k + 1 by omega)
      obtain ⟨hp, hr⟩ := hstand m (by omega)
      exact ⟨hpres.trans hp, hready.trans hr⟩

/-- Settles O46: `respond_served` for each item, and `vfSteps_func` for SR-IOV. -/
theorem boardReads : Obligations.BoardReads := by
  intro s
  refine ⟨fun ts i r hr => ?_, fun h => ?_, fun h => ?_, fun n => ⟨_, rfl, fun m hm => ?_⟩⟩
  · have hrun : exec r.1 s = answer s (s.respond r.2.1 r.2.2) := by
      have htally : BitVec.ofNat 8 (b2n s.tam.pending) = if s.tam.pending then 1 else 0 := by cases s.tam.pending <;> rfl
      simp only [List.mem_cons, List.not_mem_nil, or_false] at hr
      rcases hr with rfl | rfl | rfl | rfl | rfl | rfl
      · rfl
      · rfl
      · show answer s (s.respond 3 (toLE 2 s.tam.tally ++ [BitVec.ofNat 8 (b2n s.tam.pending)])) = _
        rw [htally]
      · rfl
      · rfl
      · rfl
    refine ⟨fun h => ⟨_, hrun, respond_served s _ _ h⟩, fun h => ⟨_, hrun, ?_⟩⟩
    rw [respond_unserved s _ _ h]
    exact s.sameBut_settled
  · let u : State := { s with host := { s.host with smbResp := [BitVec.ofNat 8 s.life.newItems.toNat] } }
    have hno : s.changed u = 0#8 := changed_self s
    refine ⟨_, congrArg (answer s) (if_pos h), (keeps_host s _ (by decide)).settled, ?_, ?_⟩
    · show u.life.newItems ||| s.changed u = _
      rw [hno, BitVec.or_zero]
    · show u.host = _
      rw [show u.host = { s.host with smbResp := [BitVec.ofNat 8 s.life.newItems.toNat] } from rfl, BitVec.ofNat_toNat, BitVec.setWidth_eq]
  · exact ⟨_, congrArg (answer s) (if_neg (by rw [h]; decide)), s.sameBut_settled⟩
  · obtain ⟨-, hset, -⟩ := vfSteps_func s n.val 31
    obtain ⟨hp, hr, hg⟩ := hset m.val (Nat.pos_of_ne_zero hm) (Nat.le_of_lt_succ m.isLt)
    exact ⟨hp, fun hle => hr (decide_eq_true hle), fun hlt => hg (decide_eq_false (Nat.not_le.2 hlt))⟩

end Sys2Proof.Machine
end

section
/-! Boots, warm and cold resets, and the reset and power pins (02 R56, R57; 12 R300 to R302; 16 R391 to R394; 18 R418, R419). -/

namespace Sys2Proof.Machine

variable (s : State)

/-! ### What a boot leaves -/

/-- The key register but for the Warden's key. -/
def KeyReg.lasting (k : KeyReg) : KeyReg := { k with wardenKey := none }

/-- The engines but for their sentinels. -/
def Engines.lasting (e : Engines) : Engines := { e with sentinels := [] }

/-- The tamper state but for arming, tests, droop thresholds and sentinel phases. -/
def Tamper.lasting (t : Tamper) : Tamper :=
  { t with armed := [], testEntry := 0, testPass := false, testFail := false, testDone := 0, testTime := [], droop := [], phase := [],
           interval := [], topUp := [] }

/-- The lifecycle but for the image that runs and the step of the boot. -/
def Life.lasting (l : Life) : Life :=
  { l with active := false, running := false, fwNone := false, boot := .held, imageA := {}, imageB := {}, newItems := 0 }

/-- The mesh but for the root key in use. -/
def Mesh.lasting (m : Mesh) : Mesh := { m with mrk := none }

/-- What boot steps may leave of s in t. -/
structure State.boots (s t : State) : Prop where
  keeps : s.keeps t [.kr, .eng, .tam, .pwr, .mesh, .life]
  kr : t.kr.lasting = s.kr.lasting
  eng : t.eng.lasting = s.eng.lasting
  tam : t.tam.lasting = s.tam.lasting
  mesh : t.mesh.lasting = s.mesh.lasting
  life : t.life.lasting = s.life.lasting

/-- No expander has been instantiated. -/
def State.dark (s : State) : Prop := s.ent.exps = []

section
variable {s} {t u : State}

theorem State.boots.refl (s : State) : s.boots s := ⟨.refl s _, rfl, rfl, rfl, rfl, rfl⟩

theorem State.boots.trans (h : s.boots t) (k : t.boots u) : s.boots u :=
  ⟨h.keeps.trans k.keeps, k.kr.trans h.kr, k.eng.trans h.eng, k.tam.trans h.tam, k.mesh.trans h.mesh, k.life.trans h.life⟩

theorem State.boots.ite {p : Prop} [Decidable p] (h : s.boots t) (k : s.boots u) : s.boots (if p then t else u) := by
  split <;> assumption

theorem State.boots.dark (h : s.boots t) (hs : s.dark) : t.dark := (congrArg Entropy.exps h.keeps.ent_eq).trans hs

theorem State.boots.fold {α : Type} {f : State → α → State} (h : ∀ (s : State) (a : α), s.dark → s.boots (f s a)) (as : List α) :
    ∀ s : State, s.dark → s.boots (as.foldl f s) := by
  induction as with
  | nil => exact fun s _ => .refl s
  | cons a r ih => exact fun s hs => (h s a hs).trans (ih _ ((h s a hs).dark hs))

end

theorem boots_setPwr (p : Power) : s.boots (s.setPwr p) := ⟨keeps_pwr s p (by decide), rfl, rfl, rfl, rfl, rfl⟩

theorem boots_setDomain (d : Nat) (x : Domain) : s.boots (s.setDomain d x) := boots_setPwr s _

theorem boots_setTam {t : Tamper} (h : t.lasting = s.tam.lasting) : s.boots (s.setTam t) := ⟨keeps_tam s t (by decide), rfl, rfl, h, rfl, rfl⟩

theorem boots_phaseOne (c : Nat) : s.boots (s.phaseOne c) :=
  ⟨(keeps_eng (l := [.kr, .eng, .tam, .pwr, .mesh, .life]) s _ (by decide)).trans (keeps_tam _ _ (by decide)), rfl, rfl, rfl, rfl, rfl⟩

variable {s}

theorem maskSeed_dark (h : s.dark) (c : Nat) : s.maskSeed c = (s, none) := by
  have hx : s.expander c = {} := by rw [State.expander, h]; rfl
  have hcall : s.expanderCall c = (s, none) := by
    unfold State.expanderCall State.expanderServes
    rw [hx]
    rfl
  unfold State.maskSeed
  rw [hcall]

/-- Without an expander no mask generator takes a seed. -/
theorem pauSeeds_dark (h : s.dark) : s.pauSeeds = s := by
  have hone : ∀ u, s.pauSeed u = s := fun u => by
    unfold State.pauSeed
    split
    · rfl
    · rw [maskSeed_dark h]
  have hfold : ∀ l : List Nat, l.foldl (fun (s : State) u => if (s.domain (19 + u)).up && !mhas s.eng.pauMask u then s.pauSeed u else s) s = s := by
    intro l
    induction l with
    | nil => rfl
    | cons u r ih => rw [List.foldl_cons, hone, ite_self, ih]
  exact hfold _

theorem boots_bootDomain (h : s.dark) (op : Bool) (d : Nat) : s.boots (s.bootDomain op d) := by
  let a := s.setDomain d { on := true, op := op }
  let b := a.setDomain d { a.domain d with pgood := true, iso := false, ramping := false }
  have hb : s.boots b := (boots_setDomain s d _).trans (boots_setDomain a d _)
  have hgood : b.boots (if 11 ≤ d ∧ d ≤ 18 then b.phaseOne (d - 11) else if 19 ≤ d ∧ d ≤ 22 then b.pauSeeds else b) := by
    rw [pauSeeds_dark (hb.dark h)]
    exact .ite (boots_phaseOne ..) (.ite (.refl b) (.refl b))
  exact (hb.trans hgood).trans (boots_setTam _ rfl)

theorem boots_bootCluster (h : s.dark) (c : Nat) (point : Bool) : s.boots (s.bootCluster c point) := by
  have h1 := boots_bootDomain h point (11 + c)
  exact (h1.trans (boots_bootDomain (h1.dark h) ..)).trans (boots_setPwr ..)

theorem boots_pausOn (h : s.dark) (i : Nat) : s.boots (s.pausOn i) :=
  .fold (fun s d hs => .ite (.refl s) (boots_bootDomain hs false d)) _ s h

theorem boots_pausesOn (h : s.dark) (p : Nat → Bool) : s.boots ([0, 1].foldl (fun (s : State) i => if p i then s.pausOn i else s) s) :=
  .fold (fun (s : State) i hs => .ite (p := p i = true) (boots_pausOn hs i) (.refl s)) _ s h

theorem boots_portsOn (h : s.dark) :
    s.boots ([0, 1, 2, 3].foldl (fun (s : State) p => if s.portUsed p then s.bootDomain false (26 + p) else s) s) :=
  .fold (fun s _ hs => .ite (boots_bootDomain hs false _) (.refl s)) _ s h

theorem boots_bootPower (h : s.dark) : s.boots s.bootPower := by
  have h1 : s.boots (s.bootSettings.foldl (fun (s : State) (c : Nat × Bool) => s.bootCluster c.1 c.2) s) :=
    .fold (fun s c hs => boots_bootCluster hs c.1 c.2) _ s h
  have h2 := h1.trans (boots_pausesOn (h1.dark h) fun i => s.bootSettings.any fun c => c.1 / 4 == i)
  exact h2.trans (boots_portsOn (h2.dark h))

theorem boots_tested (s : State) (ks : List Nat) : s.boots (s.tested ks) := by
  unfold State.tested
  split
  · exact .refl s
  · exact boots_setTam s rfl

theorem boots_unsealMrk (s : State) : s.boots s.unsealMrk := by
  unfold State.unsealMrk
  split
  · exact .ite ⟨keeps_mesh s _ (by decide), rfl, rfl, rfl, rfl, rfl⟩ (.refl s)
  · exact .refl s

theorem boots_bootImage (h : s.dark) (b : Bool) : s.boots (s.bootImage b) := by
  let t : State := { s with
    life := { s.life with active := b, running := b, fwNone := false, boot := .waitEntropy
                          imageA := if b then s.life.imageA else { s.image b with valid := true }
                          imageB := if b then { s.image b with valid := true } else s.life.imageB }
    kr := { s.kr with wardenKey := some Config.deviceRoot } }
  have h1 : s.boots t.unsealMrk := by
    have hk : s.keeps t [.kr, .eng, .tam, .pwr, .mesh, .life] :=
      .of_eq (fun _ => rfl) (fun _ => rfl) (fun h => absurd (by decide) h) (fun _ => rfl) (fun _ => rfl) (fun _ => rfl) (fun _ => rfl)
        (fun _ => rfl) (fun _ => rfl) (fun _ => rfl) (fun _ => rfl) fun h => absurd (by decide) h
    have ht : s.boots t := ⟨hk, rfl, rfl, rfl, rfl, rfl⟩
    exact ht.trans (boots_unsealMrk t)
  exact (h1.trans (boots_bootPower (h1.dark h))).trans (boots_tested ..)

theorem boots_boot (h : s.dark) : s.boots s.boot := by
  have h1 : s.boots ([0, 1, 2, 23, 24, 25].foldl (fun (s : State) d => s.bootDomain false d) s) :=
    .fold (fun s d hs => boots_bootDomain hs false d) _ s h
  refine .ite (.refl s) (h1.trans (.ite (boots_bootImage (h1.dark h) _) (.ite (boots_bootImage (h1.dark h) _) ?_)))
  exact ⟨keeps_life (l := [.kr, .eng, .tam, .pwr, .mesh, .life]) _ _ (by decide), rfl, rfl, rfl, rfl, rfl⟩

/-! ### Warm reset (02 R56) and PERST_N (18 R419) -/

/-- What a warm reset leaves (02 R56). -/
def State.warmed (s t : State) : Prop :=
  t.host.mem = s.host.mem ∧ t.host.posted = s.host.posted ∧ t.host.warmResets = s.host.warmResets + 1
    ∧ (∀ n, t.func n = { present := n == 0, partResets := (s.func n).partResets })
    ∧ t.disp = { nextId := s.disp.nextId } ∧ t.kr.ready = false ∧ t.kr.slots = [] ∧ t.kr.fetches = []
    ∧ t.vault.ready = false ∧ t.vault.pages = [] ∧ t.vault.rootSlots = s.vault.rootSlots ∧ t.vault.integritySeen = s.vault.integritySeen
    ∧ t.eng.pages = [] ∧ t.eng.ctxs = [] ∧ t.ent = { instants := s.ent.instants }
    ∧ t.time = { counter := s.time.counter, frac := s.time.frac, trim := s.time.trim, lock := s.time.lock, valid := s.time.valid,
                 lockEver := s.time.lockEver, lastF := s.time.lastF, counted := s.time.counted }
    ∧ t.tam.tally = s.tam.tally ∧ t.tam.log = s.tam.log ∧ t.tam.storageKey = s.tam.storageKey ∧ t.tam.canary = s.tam.canary
    ∧ t.life.st = s.life.st ∧ t.life.cmdSeq = s.life.cmdSeq ∧ t.life.ownerKey = s.life.ownerKey ∧ t.mesh.rseq = s.mesh.rseq

theorem mget_map_keyed {α β : Type} (f : Nat → α → β) (m : Map α) (k : Nat) (d : α) :
    mget (m.map fun c => (c.1, f c.1 c.2)) k (f k d) = f k (mget m k d) := by
  induction m with
  | nil => rfl
  | cons c r ih =>
    obtain ⟨j, v⟩ := c
    simp only [List.map_cons, mget]
    by_cases h : j = k
    · subst h
      rw [if_pos rfl, if_pos rfl]
    · rw [if_neg h, if_neg h]
      exact ih

theorem volatile_func (s : State) (n : Nat) : s.volatile.func n = (s.func n).kept n := by
  refine (mget_mset _ 0 n _ ({} : Func)).trans ?_
  rcases Nat.eq_zero_or_pos n with rfl | h
  · exact if_pos rfl
  · have hnone : (Func.kept n {} : Func) = {} := by rw [Func.kept, beq_false_of_ne (Nat.ne_of_gt h)]
    rw [if_neg (Nat.ne_of_gt h), ← hnone]
    exact mget_map_keyed Func.kept s.host.funcs n {}

theorem warm_warmed (s : State) : s.warmed s.warm := by
  let v : State := { s.volatile with host := { s.volatile.host with warmResets := s.volatile.host.warmResets + 1 } }
  have hb : v.boots s.warm := boots_boot (s := v) rfl
  generalize s.warm = t at hb
  obtain ⟨hk, hkr, heng, htam, hmesh, hlife⟩ := hb
  have hhost := hk.host_eq
  refine ⟨(congrArg HostIf.mem hhost :), (congrArg HostIf.posted hhost :), (congrArg HostIf.warmResets hhost :), fun n => ?_, hk.disp_eq,
    (congrArg KeyReg.ready hkr :), (congrArg KeyReg.slots hkr :), (congrArg KeyReg.fetches hkr :), (congrArg Vault.ready hk.vault_eq :),
    (congrArg Vault.pages hk.vault_eq :), (congrArg Vault.rootSlots hk.vault_eq :), (congrArg Vault.integritySeen hk.vault_eq :),
    (congrArg Engines.pages heng :), (congrArg Engines.ctxs heng :), hk.ent_eq, hk.time_eq, (congrArg Tamper.tally htam :), (congrArg Tamper.log htam :),
    (congrArg Tamper.storageKey htam :), (congrArg Tamper.canary htam :), (congrArg Life.st hlife :), (congrArg Life.cmdSeq hlife :),
    (congrArg Life.ownerKey hlife :), (congrArg Mesh.rseq hmesh :)⟩
  rw [State.func, hhost]
  exact volatile_func s n

theorem State.warmed.settled {s t : State} (h : s.warmed t) (r : State) : s.warmed (r.settled t) := h

theorem keeps_restore (s : State) (i : Nat) : s.keeps (s.restore i) [.kr] := by
  unfold State.restore
  refine State.keeps.trans (keeps_kr s _ (by decide)) (.ite ?_ (.refl _ _))
  exact (keeps_kr (l := [.kr]) _ _ (by decide)).trans (keeps_kr _ _ (by decide))

theorem keeps_loadPart (s : State) (p : Nat) : s.keeps (s.loadPart p) [.kr, .vault, .gate] := by
  unfold State.loadPart
  have hkr : ∀ k : KeyReg, s.keeps { s with kr := k } [.kr, .vault, .gate] := fun k => keeps_kr s k (by decide)
  dsimp only
  split
  · split
    · exact ((hkr _).trans (keeps_vault _ _ (by decide))).trans (keeps_gate _ _ (by decide))
    · exact (hkr _).trans (keeps_vault _ _ (by decide))
  · exact hkr _

/-- All partition records are there (03 R85). -/
def State.partsCame (s : State) : State :=
  { s with kr := { s.kr with partsLoaded := true, toRestore := if s.vault.rebuilding then s.persistents else [] } }

/-- Work that waited for the partition records goes on. -/
def State.partWaitsEnd (s : State) : State := s.parkedOn.foldl (fun (s : State) w => if w.2.1 = parkParts then s.unwait w.1 else s) s

theorem loadParts_eq (s : State) :
    s.loadParts = if s.partsDue && (List.range 32).all fun p => s.avail 0 (1 + p) then ((List.range 32).foldl State.loadPart s).partsCame.partWaitsEnd
      else s := by
  unfold State.loadParts State.partsCame State.partWaitsEnd
  rfl

theorem keeps_partWaitsEnd (s : State) : s.keeps s.partWaitsEnd [.disp] :=
  .fold (fun s (w : Nat × Nat × Nat) => .ite (keeps_unwait s w.1) (.refl _ _)) _ _

theorem keeps_loadParts (s : State) : s.keeps s.loadParts [.kr, .vault, .gate, .disp] := by
  have h1 : s.keeps ((List.range 32).foldl State.loadPart s) [.kr, .vault, .gate, .disp] :=
    .fold (f := State.loadPart) (fun s p => (keeps_loadPart s p).widen) _ s
  have h2 : ∀ s : State, s.keeps s.partsCame [.kr, .vault, .gate, .disp] := fun s => keeps_kr s _ (by decide)
  rw [loadParts_eq]
  exact .ite ((h1.trans (h2 _)).trans (keeps_partWaitsEnd _).widen) (.refl _ _)

theorem keeps_restores (s : State) (l : List Nat) : s.keeps (l.foldl State.restore s) [.kr, .vault, .gate, .disp] :=
  .fold (f := State.restore) (fun s i => (keeps_restore s i).widen) _ _

theorem keeps_rebuildStep (s : State) : s.keeps s.rebuildStep [.kr, .vault, .gate, .disp] := by
  have h1 : s.keeps s.loadParts.reloadSlots [.kr, .vault, .gate, .disp] :=
    (keeps_loadParts s).trans (.fold (fun s i => .ite (keeps_restore s i).widen (.refl _ _)) _ _)
  have h2 : ∀ (s : State) (v : Vault), s.keeps (s.setVault v) [.kr, .vault, .gate, .disp] := fun s v => keeps_vault s v (by decide)
  exact .ite (.refl _ _) (h1.trans (.ite (.refl _ _) ((keeps_restores ..).trans (h2 _ _))))

theorem keeps_rebuild (s : State) : s.keeps s.rebuild [.kr, .vault, .gate, .disp] := by
  refine State.keeps.trans (.ite ?_ (.refl _ _)) (keeps_rebuildStep _)
  exact .of_eq (fun _ => rfl) (fun _ => rfl) (fun h => absurd (by decide) h) (fun h => absurd (by decide) h) (fun _ => rfl) (fun _ => rfl)
    (fun _ => rfl) (fun _ => rfl) (fun _ => rfl) (fun _ => rfl) (fun _ => rfl) fun _ => rfl

/-- The functions of the list become ready. -/
theorem readied_funcs (l : List Nat) : ∀ s : State,
    let t := l.foldl (fun (s : State) n => s.setFunc n { s.func n with fnReady := true }) s
    s.keeps t [.host] ∧ t.host.mem = s.host.mem ∧ (∀ m, (s.func m).fnReady = true → (t.func m).fnReady = true)
      ∧ ∀ m ∈ l, (t.func m).fnReady = true := by
  induction l with
  | nil => exact fun s => ⟨.refl s _, rfl, fun m h => h, fun m hm => (nomatch hm)⟩
  | cons n r ih =>
    intro s
    obtain ⟨hk, hmem, hstay, hall⟩ := ih (s.setFunc n { s.func n with fnReady := true })
    have hn : ((s.setFunc n { s.func n with fnReady := true }).func n).fnReady = true := by rw [State.func_setFunc]
    refine ⟨(keeps_host s _ (by decide)).trans hk, hmem, fun m hm => hstay m ?_, fun m hm => ?_⟩
    · rcases eq_or_ne m n with rfl | h
      · exact hn
      · rwa [State.func_setFunc_ne _ _ h]
    · rcases List.mem_cons.1 hm with rfl | hm
      · exact hstay m hn
      · exact hall m hm

/-- Every function that is there is ready. -/
def State.readied (s : State) : State :=
  let a := s.setFunc 0 { s.func 0 with fnReady := true }
  a.present.foldl (fun (s : State) n => s.setFunc n { s.func n with fnReady := true }) a

theorem readied_done (s : State) :
    s.keeps s.readied [.host] ∧ s.readied.host.mem = s.host.mem ∧ (s.readied.func 0).fnReady = true
      ∧ ∀ m : Fn, (s.func m.val).present = true → (s.readied.func m.val).fnReady = true := by
  unfold State.readied
  have ha0 : ((s.setFunc 0 { s.func 0 with fnReady := true }).func 0).fnReady = true := by rw [State.func_setFunc]
  have hpres : ∀ m : Fn, 0 < m.val → (s.func m.val).present = true → m.val ∈ (s.setFunc 0 { s.func 0 with fnReady := true }).present :=
    fun m h0 hm => List.mem_filter.2 ⟨List.mem_range.2 m.isLt, by rwa [State.func_setFunc_ne _ _ (Nat.ne_of_gt h0)]⟩
  have hsa : s.keeps (s.setFunc 0 { s.func 0 with fnReady := true }) [.host] := keeps_host s _ (by decide)
  have hmem : (s.setFunc 0 { s.func 0 with fnReady := true }).host.mem = s.host.mem := rfl
  generalize s.setFunc 0 { s.func 0 with fnReady := true } = a at ha0 hpres hsa hmem
  obtain ⟨hk, hmem', hstay, hall⟩ := readied_funcs a.present a
  refine ⟨hsa.trans hk, hmem'.trans hmem, hstay 0 ha0, fun m hm => ?_⟩
  rcases Nat.eq_zero_or_pos m.val with h0 | h0
  · rw [h0]
    exact hstay 0 ha0
  · exact hall m.val (hpres m h0 hm)

/-- The clusters that are up serve (15 R375). -/
def State.serveUp (s : State) : State := (List.range 8).foldl (fun (s : State) c => if s.cst c = .quiesced then s.setServing c true else s) s

theorem keeps_serveUp (s : State) : s.keeps s.serveUp [.pwr] := .fold (fun s _ => .ite (keeps_pwr s _ (by decide)) (.refl _ _)) _ s

theorem bootDone_eq (s : State) :
    s.bootDone = { s.readied.serveUp with life := { s.readied.serveUp.life with boot := .done } }.rebuild := by
  dsimp only [State.bootDone, State.serveUp, State.readied]

/-- Step 10 of the boot: every function there is ready. -/
theorem bootDone_done (s : State) :
    s.bootDone.life.boot = .done ∧ s.bootDone.life.perstN = s.life.perstN ∧ (s.bootDone.func 0).fnReady = true
      ∧ (∀ m : Fn, (s.func m.val).present = true → (s.bootDone.func m.val).fnReady = true) ∧ s.bootDone.host.mem = s.host.mem
      ∧ s.keeps s.bootDone [.host, .disp, .kr, .vault, .gate, .pwr, .life] := by
  obtain ⟨hr, hmem, h0, hall⟩ := readied_done s
  have hc := keeps_serveUp s.readied
  have hd := keeps_rebuild { s.readied.serveUp with life := { s.readied.serveUp.life with boot := .done } }
  rw [bootDone_eq]
  generalize s.readied = b at hr hmem h0 hall hc hd
  generalize b.serveUp = c at hc hd
  generalize State.rebuild { c with life := { c.life with boot := .done } } = t at hd
  have hhost : t.host = b.host := hd.host_eq.trans hc.host_eq
  have hfn : ∀ m, t.func m = b.func m := fun m => by rw [State.func, hhost]; rfl
  have hsc : s.keeps c [.host, .pwr] := hr.widen.trans hc.widen
  refine ⟨(congrArg Life.boot hd.life_eq :), (congrArg Life.perstN hd.life_eq :).trans (congrArg Life.perstN hsc.life_eq :), ?_,
    fun m hm => ?_, ?_, ?_⟩
  · rw [hfn]
    exact h0
  · rw [hfn]
    exact hall m hm
  · rw [hhost]
    exact hmem
  · exact (hsc.widen.trans (keeps_life c _ (by decide))).trans hd.widen

/-- Settles O33: `warm_warmed` for each of the warm resets, `bootDone_done` for the end of the boot. -/
theorem warmResetClears : Obligations.WarmResetClears := by
  refine ⟨fun s => ⟨fun h => ?_, fun h => ?_, fun hr hp => ?_⟩, fun s => ⟨fun h => ?_, fun h => ?_, fun h => ?_⟩⟩
  · exact ⟨_, congrArg (answer s) (if_pos h), (warm_warmed s).settled s⟩
  · exact ⟨_, congrArg (answer s) (if_neg (by rw [h]; decide)), s.sameBut_settled⟩
  · have hgo : ((s.func 0).fnReady && s.life.perstN) = true := by rw [hr, hp]; rfl
    exact ⟨_, congrArg (answer s) (if_pos hgo), State.warmed.settled (warm_warmed { s with life := { s.life with perstN := false } }) s⟩
  · have hno : ((s.func 0).fnReady && s.life.perstN) = false := by
      rcases h with h | h
      · rw [h, Bool.false_and]
      · rw [h, Bool.and_false]
    exact ⟨_, congrArg (answer s) (if_neg (Bool.eq_false_iff.1 hno)), (keeps_life s _ (by decide)).settled, rfl⟩
  · exact ⟨_, congrArg (answer s) (if_neg h), (keeps_life s _ (by decide)).settled, rfl⟩
  · obtain ⟨hb, hp, h0, hall, hmem, hk⟩ := bootDone_done { s with life := { s.life with perstN := true } }
    generalize hx : State.bootDone { s with life := { s.life with perstN := true } } = x at hb hp h0 hall hmem hk
    exact ⟨_, (congrArg (answer s) (if_pos h)).trans (congrArg (answer s) hx), hp, hb, h0, hall, hmem, hk.tam_eq, hk.time_eq, hk.mesh_eq⟩

/-! ### Cold reset (02 R57), SYS_RST_N (18 R418), main power and the cell (12 R300 to R302) -/

/-- Steps of the boot that complete events: the lifecycle takes consequences, and the storage key and the canary stand. -/
structure State.logs (s t : State) : Prop where
  keeps : s.keeps t [.tam, .life]
  life : { t.life with st := s.life.st } = s.life
  key : t.tam.storageKey = s.tam.storageKey
  canary : t.tam.canary = s.tam.canary

section
variable {t u : State}

theorem State.logs.refl (s : State) : s.logs s := ⟨.refl _ _, rfl, rfl, rfl⟩

theorem State.logs.trans (h : s.logs t) (k : t.logs u) : s.logs u :=
  ⟨h.keeps.trans k.keeps, (congrArg (fun l : Life => { l with st := s.life.st }) k.life :).trans h.life, k.key.trans h.key,
    k.canary.trans h.canary⟩

end

theorem logs_logEvent (s : State) (e : Event) : s.logs (s.logEvent e) :=
  ⟨(keeps_tam (l := [.tam, .life]) s _ (by decide)).trans (keeps_life (l := [.tam, .life]) _ _ (by decide)), rfl, rfl, rfl⟩

theorem logs_logEvents (l : List Event) : ∀ s : State, s.logs (l.foldl State.logEvent s) := by
  induction l with
  | nil => exact fun s => .refl s
  | cons e r ih => exact fun s => (logs_logEvent s e).trans (ih _)

theorem logs_setTam (s : State) {t : Tamper} (h1 : t.storageKey = s.tam.storageKey) (h2 : t.canary = s.tam.canary) : s.logs (s.setTam t) :=
  ⟨keeps_tam s t (by decide), rfl, h1, h2⟩

theorem logs_completeEvents (s : State) : s.logs s.completeEvents := by
  have h := logs_logEvents (s.tam.events.filter fun e => !e.window) s
  rw [completeEvents_eq]
  dsimp only
  split
  · exact h.trans (logs_setTam _ rfl rfl)
  · exact h.trans (logs_setTam _ rfl rfl)

/-- Every event of the latch has its window closed. -/
def State.closeWindows (s : State) : State := s.setTam { s.tam with events := s.tam.events.map fun e => { e with window := false } }

theorem bootEvents_eq (s : State) :
    s.bootEvents
      = let t := if s.closeWindows.tam.events.isEmpty then s.closeWindows else s.closeWindows.completeEvents
        t.setTam { t.tam with mirror := t.tam.tally } := rfl

/-- After the boot's reading of the latch no event is left, and the mirror shows the Tally. -/
theorem bootEvents_logs (s : State) : s.logs s.bootEvents ∧ s.bootEvents.tam.events = [] ∧ s.bootEvents.tam.mirror = s.bootEvents.tam.tally := by
  have hw : s.logs s.closeWindows := logs_setTam s rfl rfl
  have hnone : s.closeWindows.tam.events.filter (·.window) = [] := List.filter_eq_nil_iff.2 fun e he => by
    obtain ⟨x, -, rfl⟩ := List.mem_map.1 he
    exact Bool.false_ne_true
  rw [bootEvents_eq]
  generalize s.closeWindows = w at hw hnone
  obtain ⟨-, -, hev, -⟩ := completeEvents_tam w
  dsimp only
  split
  · rename_i h
    exact ⟨hw.trans (logs_setTam _ rfl rfl), List.isEmpty_iff.1 h, rfl⟩
  · exact ⟨(hw.trans (logs_completeEvents w)).trans (logs_setTam _ rfl rfl), hev.trans hnone, rfl⟩

/-- The canary's reading (12 R300). -/
theorem readCanary_keeps (s : State) :
    s.keeps s.readCanary [.tam, .life] ∧ { s.readCanary.life with st := s.life.st } = s.life
      ∧ (s.tam.canary = .lost → s.life.st ≠ .blank → s.readCanary.tam.canary = .emptied ∧ s.readCanary.tam.storageKey = none) := by
  let a := s.setTam { s.tam with canary := .emptied, storageKey := none, events := [], pending := false }
  let e : Event := { newEvent (classOf 8) 8 2 0 with cellLost := true, window := false }
  have hr : s.readCanary = if s.tam.canary = .lost ∧ s.life.st ≠ .blank then a.bootEvents.setTam (a.bootEvents.tam.opens e) else s := rfl
  obtain ⟨hl, -⟩ := bootEvents_logs a
  have hl' := hl.trans (logs_setTam a.bootEvents (t := a.bootEvents.tam.opens e) rfl rfl)
  rw [hr]
  generalize a.bootEvents.setTam (a.bootEvents.tam.opens e) = t at hl'
  split
  · exact ⟨(keeps_tam s _ (by decide)).trans hl'.keeps, hl'.life, fun _ _ => ⟨hl'.canary, hl'.key⟩⟩
  · rename_i h
    exact ⟨.refl _ _, rfl, fun h1 h2 => absurd ⟨h1, h2⟩ h⟩

/-- What a cold reset leaves (02 R57). -/
def State.cooled (s t : State) : Prop :=
  t.host.mem = s.host.mem ∧ t.host.warmResets = 0 ∧ t.host.funcs = [(0, { present := true })]
    ∧ t.disp = { nextId := s.disp.nextId } ∧ t.kr.ready = false ∧ t.kr.slots = [] ∧ t.vault.ready = false
    ∧ t.vault.rootSlots = s.vault.rootSlots ∧ t.vault.integritySeen = false ∧ t.gate = {} ∧ t.time = {} ∧ t.ent.ready = false
    ∧ t.life.cmdSeq = s.life.cmdSeq ∧ t.life.ownerKey = s.life.ownerKey

section
variable {t u : State}

theorem State.cooled.settled (h : s.cooled t) (r : State) : s.cooled (r.settled t) := h

theorem State.cooled.keeps (h : s.cooled t) (hk : t.keeps u [.kr, .eng, .tam, .pwr, .mesh, .life]) (hr : u.kr.ready = t.kr.ready)
    (hs : u.kr.slots = t.kr.slots) (hc : u.life.cmdSeq = t.life.cmdSeq) (ho : u.life.ownerKey = t.life.ownerKey) : s.cooled u := by
  obtain ⟨h1, h2, h3, h4, h5, h6, h7, h8, h9, h10, h11, h12, h13, h14⟩ := h
  unfold State.cooled
  rw [hk.host_eq, hk.disp_eq, hk.vault_eq, hk.gate_eq, hk.time_eq, hk.ent_eq]
  exact ⟨h1, h2, h3, h4, hr.trans h5, hs.trans h6, h7, h8, h9, h10, h11, h12, hc.trans h13, ho.trans h14⟩

theorem State.cooled.of_life (h : s.cooled t) (hk : t.keeps u [.tam, .life]) (hl : { u.life with st := t.life.st } = t.life) : s.cooled u :=
  h.keeps hk.widen (by rw [hk.kr_eq]) (by rw [hk.kr_eq]) (congrArg Life.cmdSeq hl :) (congrArg Life.ownerKey hl :)

theorem State.cooled.boots (h : s.cooled t) (hb : t.boots u) : s.cooled u :=
  h.keeps hb.keeps (congrArg KeyReg.ready hb.kr :) (congrArg KeyReg.slots hb.kr :) (congrArg Life.cmdSeq hb.life :)
    (congrArg Life.ownerKey hb.life :)

end

theorem cooled_cold (s : State) : s.cooled s.cold := ⟨rfl, rfl, rfl, rfl, rfl, rfl, rfl, rfl, rfl, rfl, rfl, rfl, rfl, rfl⟩

/-- The latch and the canary are read. -/
theorem readEvents_cooled {t : State} (h : s.cooled t) :
    s.cooled t.readCanary.bootEvents ∧ { t.readCanary.bootEvents.life with st := t.life.st } = t.life
      ∧ t.readCanary.bootEvents.tam.events = [] ∧ t.readCanary.bootEvents.tam.mirror = t.readCanary.bootEvents.tam.tally
      ∧ t.keeps t.readCanary.bootEvents [.tam, .life]
      ∧ (t.tam.canary = .lost → t.life.st ≠ .blank → t.readCanary.bootEvents.tam.canary = .emptied
          ∧ t.readCanary.bootEvents.tam.storageKey = none) := by
  obtain ⟨hk, hl, hc⟩ := readCanary_keeps t
  obtain ⟨hlog, hev, hm⟩ := bootEvents_logs t.readCanary
  have hlife : { t.readCanary.bootEvents.life with st := t.life.st } = t.life :=
    (congrArg (fun l : Life => { l with st := t.life.st }) hlog.life :).trans hl
  refine ⟨(h.of_life hk hl).of_life hlog.keeps hlog.life, hlife, hev, hm, hk.trans hlog.keeps, fun h1 h2 => ?_⟩
  obtain ⟨h3, h4⟩ := hc h1 h2
  exact ⟨hlog.canary.trans h3, hlog.key.trans h4⟩

/-- The boot after a cold reset. -/
theorem coldBoot_cooled {t : State} (h : s.cooled t) (hd : t.dark) :
    s.cooled t.coldBoot ∧ { t.coldBoot.life.lasting with st := t.life.st } = t.life.lasting ∧ t.coldBoot.tam.events = []
      ∧ t.coldBoot.tam.mirror = t.coldBoot.tam.tally := by
  obtain ⟨hc, hl, hev, hm, hk, -⟩ := readEvents_cooled h
  have hb : t.readCanary.bootEvents.boots t.coldBoot := boots_boot ((congrArg Entropy.exps hk.ent_eq).trans hd)
  generalize t.readCanary.bootEvents = e at hc hl hev hm hb
  refine ⟨hc.boots hb, ?_, (congrArg Tamper.events hb.tam :).trans hev, ?_⟩
  · exact (congrArg (fun l : Life => { l with st := t.life.st }) hb.life :).trans (congrArg Life.lasting hl :)
  · exact (congrArg Tamper.mirror hb.tam :).trans (hm.trans (congrArg Tamper.tally hb.tam :).symm)

/-- Settles O34: `cooled_cold` and the boot's `coldBoot_cooled`, for each of the pins and rails that reset the device. -/
theorem coldResetClears : Obligations.ColdResetClears := by
  intro s clears
  refine ⟨fun h => ?_, fun h => ?_, fun ns hns hs => ?_, fun ns hns => ?_, fun b h1 h2 => ?_, fun b h => ?_, fun h => ?_, fun h => ?_,
    fun h => ?_, fun h => ?_⟩
  · obtain ⟨hc, -, hev, hm⟩ := coldBoot_cooled (cooled_cold s) rfl
    have hrun : exec .coldReset s = answer s s.cold.coldBoot := congrArg (answer s) (if_pos h)
    generalize s.cold.coldBoot = t at hrun hc hev hm
    exact ⟨_, hrun, hc.settled s, hev, hm⟩
  · exact ⟨_, congrArg (answer s) (if_neg (by rw [h]; decide)), s.sameBut_settled⟩
  · have hgo : (s.pulseTaken ns && s.life.sysRstN) = true := by
      rw [State.pulseTaken, decide_eq_true hns, hs]
      rfl
    have hcount : s.countPulse ns = s := if_neg fun h => absurd h.2 (Nat.not_lt.2 hns)
    have hrun : exec (.sysRstNAssert ns) s = answer s { s.cold with life := { s.cold.life with sysRstN := false } } := by
      refine (congrArg (answer s) (if_pos hgo)).trans ?_
      dsimp only
      rw [hcount]
    exact ⟨_, hrun, cooled_cold s, rfl, rfl⟩
  · have hno : (s.pulseTaken ns && s.life.sysRstN) = false := by
      rw [State.pulseTaken, decide_eq_false (by omega), decide_eq_false (by omega)]
      rfl
    have hcount : s.countPulse ns = s := if_neg fun h => absurd h.1 (by omega)
    refine ⟨_, (congrArg (answer s) (if_neg (Bool.eq_false_iff.1 hno))).trans (congrArg (answer s) hcount), s.sameBut_settled⟩
  · let u : State := { s with life := { s.life with sysRstN := true, straps := b } }
    have hno : (s.life.sysRstN || !s.life.mainPower) = false := by rw [h1, h2]; rfl
    obtain ⟨hc, hl, hev, -⟩ := coldBoot_cooled (s := s) (t := u.cold) (cooled_cold u) rfl
    have hrun : exec (.sysRstNRelease b) s = answer s u.cold.coldBoot := congrArg (answer s) (if_neg (Bool.eq_false_iff.1 hno))
    generalize u.cold.coldBoot = t at hrun hc hl hev
    exact ⟨_, hrun, hc.settled s, (congrArg Life.sysRstN hl :), (congrArg Life.straps hl :), hev⟩
  · have hgo : (s.life.sysRstN || !s.life.mainPower) = true := by
      rcases h with h | h
      · rw [h, Bool.true_or]
      · rw [h, Bool.not_false, Bool.or_true]
    exact ⟨_, congrArg (answer s) (if_pos hgo), s.sameBut_settled⟩
  · exact ⟨_, congrArg (answer s) (if_neg (by rw [h]; decide)), cooled_cold s, rfl, rfl, rfl, rfl, rfl, rfl⟩
  · let u : State := { s with life := { s.life with mainPower := true, sysRstN := false } }
    obtain ⟨hc, hl, hev, -, -, hcan⟩ := readEvents_cooled (s := s) (t := u.cold) (cooled_cold u)
    have hrun : exec .mainPowerUp s = answer s u.cold.readCanary.bootEvents := congrArg (answer s) (if_neg (by rw [h]; decide))
    generalize u.cold.readCanary.bootEvents = t at hrun hc hl hev hcan
    exact ⟨_, hrun, hc.settled s, (congrArg Life.mainPower hl :), (congrArg Life.sysRstN hl :), hev, hcan⟩
  · exact ⟨_, congrArg (answer s) (if_neg (by rw [h]; decide)), (keeps_tam s _ (by decide)).settled, rfl, rfl, rfl, rfl, rfl⟩
  · exact ⟨_, congrArg (answer s) (if_pos h), s.sameBut_settled⟩

end Sys2Proof.Machine
end

section
/-! The entropy subsystem (11): start-up, windows, health failures, expander calls and waits for random; and how a descriptor that fails
completes (02 R45). -/

namespace Sys2Proof.Machine

variable (s : State)

/-! ### Descriptors that end with a failing status (02 R45) -/

section
variable {s} {t x : State}

/-- A completion is told alike from two states that differ in their descriptors alone. -/
theorem State.completes.of_disp {q : DRec} {st : Word16} {out : Bytes} {len : Nat} {inl : Bytes} (h : t.completes x q st out len inl)
    (hk : s.keeps t [.disp]) : s.completes x q st out len inl := by
  have hhost : t.host = s.host := hk.host_eq
  have hring : ∀ m p, t.ring m p = s.ring m p := fun m p => by rw [State.ring, State.func, hhost]; rfl
  have hrec : t.recordOf q st len inl = s.recordOf q st len inl := by
    unfold State.recordOf State.recordFlags
    rw [hring, hk.time_eq]
  have hslot : t.recordSlot q = s.recordSlot q := by rw [State.recordSlot, State.recordSlot, hring]
  unfold State.completes at h ⊢
  rw [hrec, hslot, hring, hhost] at h
  obtain ⟨h1, h2, h3, h4, h5, h6, h7⟩ := h
  exact ⟨h1, h2, h3, h4, h5, fun m p hm => (h6 m p hm).trans (hring m p), hk.widen.trans h7⟩

theorem State.canComplete.of_disp {q : DRec} {n : Nat} (h : s.canComplete q n) (hk : s.keeps t [.disp]) : t.canComplete q n := by
  have hring : ∀ m p, t.ring m p = s.ring m p := fun m p => by rw [State.ring, State.func, hk.host_eq]; rfl
  unfold State.canComplete State.recordSlot State.hostPasses State.windows State.gateOf at h ⊢
  rw [hring, hk.gate_eq]
  exact h

end

/-- A descriptor that has put nothing out completes with a failing status, and nothing else. -/
theorem completeOne_fails {d : Nat} {q : DRec} {st : Word16} {out inl : Bytes} {len : Option Nat} (hq : s.desc d = some q)
    (hst : succeeded st = false) (hw : q.written = []) (hc : s.canComplete q 0) :
    s.completes (s.completeOne d st out inl len) q st [] 0 [] := by
  have hno : ¬ succeeded st = true := by rw [hst]; decide
  have h := s.completeOne_completes d q st st out inl len hq (flaggedStatus_fails hst q.flags) (.inr hw) (by rwa [if_neg hno])
  rwa [if_neg hno, if_neg hno, if_neg hno] at h

theorem mergeFlags_keeps (d : Nat) : s.keeps (s.mergeFlags d) [.disp] := by
  unfold State.mergeFlags
  split
  · exact .refl _ _
  · exact keeps_disp s _ (by decide)

theorem drains_mergeFlags (d : Nat) : s.drains (s.mergeFlags d) := by
  unfold State.mergeFlags
  split
  · exact .refl s
  · exact drains_modDesc s d _ fun _ => ⟨rfl, rfl, rfl, rfl, rfl⟩

theorem drains_endWith (d : Nat) (st : Word16) : s.drains (s.endWith d st) := by
  refine (drains_mergeFlags s d).trans ?_
  unfold State.endWith
  dsimp only
  split
  · exact .refl _
  · refine .ite ?_ (drains_finish ..)
    exact drains_modDesc _ d _ fun _ => ⟨rfl, rfl, rfl, rfl, rfl⟩

/-- A descriptor with nothing durable of its own ends at once. -/
theorem endWith_completes {d : Nat} {q : DRec} {st : Word16} (hq : (s.mergeFlags d).desc d = some q) (hd : q.durable = false)
    (hst : succeeded st = false) (hw : q.written = []) (hc : s.canComplete q 0) :
    s.endWith d st = ((s.mergeFlags d).completeOne d st [] []).settle ∧ s.completes ((s.mergeFlags d).completeOne d st [] []) q st [] 0 [] := by
  have hk := mergeFlags_keeps s d
  refine ⟨?_, (completeOne_fails _ hq hst hw (hc.of_disp hk)).of_disp hk⟩
  unfold State.endWith
  dsimp only
  rw [hq]
  dsimp only
  rw [hd, Bool.false_and, if_neg Bool.false_ne_true]
  rfl

/-! ### Start-up and health (11 R267, R268, R274) -/

theorem drains_failRandom (st : Word16) : s.drains (s.failRandom st) := .fold (fun s (r : DRec) => drains_endWith s r.id st) _ s

/-- The entropy subsystem after a health failure. -/
def Entropy.afterFail (e : Entropy) (test : BitVec 2) (src : Nat) : Entropy :=
  { e with
    st := .failed, fail := true, ready := false, starting := false, queue := []
    exps := e.exps.map fun (c : Nat × Expander) => (c.1, { c.2 with waits := [] })
    failTest := if e.failTest = 0 then test else e.failTest
    failSrc := if e.failTest = 0 then BitVec.ofNat 4 src else e.failSrc }

theorem healthFail_ent (test : BitVec 2) (src : Nat) : (s.healthFail test src).ent = s.ent.afterFail test src := by
  let u := s.setEnt (s.ent.afterFail test src)
  have h1 : (u.raiseAll evEntFail).ent = u.ent := (keeps_raiseAll u evEntFail).ent_eq
  have h2 := (drains_failRandom (u.raiseAll evEntFail) stEntFailed).keeps.ent_eq
  have h3 := (runsOps_clustersUp ((u.raiseAll evEntFail).failRandom stEntFailed)).keeps.ent_eq
  exact h3.trans (h2.trans h1)

theorem leaveEnds_ent : s.leaveEnds.ent = { s.ent with leaving := none } := by
  unfold State.leaveEnds
  split
  · rename_i h
    rw [← h]
  · exact (drains_complete ..).keeps.ent_eq

/-- What a failed start-up leaves. -/
theorem afterFail_failed (e : Entropy) (test : BitVec 2) (src : Nat) :
    let x := { e.afterFail test src with leaving := none }
    x.st = .failed ∧ x.fail = true ∧ x.ready = false ∧ x.words = 0 ∧ x.leaving = none
      ∧ (e.failTest ≠ 0 → x.failTest = e.failTest ∧ x.failSrc = e.failSrc) :=
  ⟨rfl, rfl, rfl, rfl, rfl, fun h => ⟨if_neg h, if_neg h⟩⟩

theorem firstFailed_spec {m : BitVec 16} (hm : m ≠ 0) (n : Nat) : m.getLsbD (firstFailed m n) = true ∧ firstFailed m n < 16 := by
  unfold firstFailed
  have hne : (List.range 16).filter m.getLsbD ≠ [] := fun h => hm <| BitVec.eq_of_getLsbD_eq fun i hi => by
    show m.getLsbD i = (0#16).getLsbD i
    rw [BitVec.getLsbD_zero]
    exact Bool.eq_false_iff.2 fun hb => List.filter_eq_nil_iff.1 h i (List.mem_range.2 hi) hb
  have hlt : Config.freeNat 3 n % ((List.range 16).filter m.getLsbD).length < ((List.range 16).filter m.getLsbD).length :=
    Nat.mod_lt _ (List.length_pos_of_ne_nil hne)
  dsimp only
  rw [List.getD_eq_getElem _ _ hlt]
  obtain ⟨h1, h2⟩ := List.mem_filter.1 (List.getElem_mem hlt)
  exact ⟨h2, List.mem_range.1 h1⟩

theorem testOfTwo_ne_zero (n : Nat) : BitVec.ofNat 2 (1 + n % 2) ≠ 0 := by
  rcases Nat.mod_two_eq_zero_or_one n with h | h <;> rw [h] <;> decide

/-- Start-up (R267, R268): the first half of O40. -/
theorem startup_settles :
    let failed := fun (t : State) => t.ent.st = .failed ∧ t.ent.fail = true ∧ t.ent.ready = false ∧ t.ent.words = 0 ∧ t.ent.leaving = none
      ∧ (s.ent.failTest ≠ 0 → t.ent.failTest = s.ent.failTest ∧ t.ent.failSrc = s.ent.failSrc)
    (s.entStarting = false ∨ s.ent.katPassed = true → ∀ b, ∃ t, exec (.entropyStartup b) s = .next t ∧ s.sameBut t)
    ∧ (s.entStarting = true → s.ent.katPassed = false →
        (∃ t, exec (.entropyStartup true) s = .next t ∧ s.keeps t [.ent] ∧ t.ent = { s.ent with katPassed := true })
        ∧ ∃ t, exec (.entropyStartup false) s = .next t ∧ failed t ∧ (s.ent.failTest = 0 → t.ent.failTest = 3))
    ∧ (s.entStarting = false ∨ s.ent.katPassed = false → ∀ m, ∃ t, exec (.entropyStartupEnd m) s = .next t ∧ s.sameBut t)
    ∧ (s.entStarting = true → s.ent.katPassed = true →
        (∃ t, exec (.entropyStartupEnd 0) s = .next t ∧ t.ent.st = (if s.ent.fail then .failed else .running) ∧ t.ent.starting = false
          ∧ t.ent.srcPass = 0xFFFF ∧ t.ent.srcFail = s.ent.srcFail ∧ t.ent.leaving = none ∧ t.ent.fail = s.ent.fail)
        ∧ ∀ m, m ≠ 0 → ∃ t, exec (.entropyStartupEnd m) s = .next t ∧ failed t ∧ t.ent.srcPass = ~~~m
            ∧ t.ent.srcFail = (s.ent.srcFail ||| m) ∧ (s.ent.failTest = 0 → m.getLsbD t.ent.failSrc.toNat = true ∧ t.ent.failTest ≠ 0)) := by
  intro failed
  refine ⟨fun h b => ?_, fun h1 h2 => ⟨?_, ?_⟩, fun h m => ?_, fun h1 h2 => ⟨?_, fun m hm => ?_⟩⟩
  · have hno : (!s.entStarting || s.ent.katPassed) = true := by
      rcases h with h | h
      · rw [h]; rfl
      · rw [h, Bool.or_true]
    exact ⟨_, congrArg (answer s) (if_pos hno), s.sameBut_settled⟩
  · have hgo : (!s.entStarting || s.ent.katPassed) = false := by rw [h1, h2]; rfl
    exact ⟨_, congrArg (answer s) ((if_neg (Bool.eq_false_iff.1 hgo)).trans (if_pos rfl)), (keeps_ent s _ (by decide)).settled, rfl⟩
  · have hgo : (!s.entStarting || s.ent.katPassed) = false := by rw [h1, h2]; rfl
    have hrun : exec (.entropyStartup false) s = answer s (s.healthFail 3 0).leaveEnds :=
      congrArg (answer s) ((if_neg (Bool.eq_false_iff.1 hgo)).trans (if_neg Bool.false_ne_true))
    have hent : (s.healthFail 3 0).leaveEnds.ent = { s.ent.afterFail 3 0 with leaving := none } := by rw [leaveEnds_ent, healthFail_ent]
    generalize (s.healthFail 3 0).leaveEnds = t at hrun hent
    refine ⟨_, hrun, ?_, fun h0 => ?_⟩
    · show failed t
      simp only [failed]
      rw [hent]
      exact afterFail_failed s.ent 3 0
    · show t.ent.failTest = 3
      rw [hent]
      exact if_pos h0
  · have hno : (!s.entStarting || !s.ent.katPassed) = true := by
      rcases h with h | h
      · rw [h]; rfl
      · rw [h]; exact Bool.or_true _
    exact ⟨_, congrArg (answer s) (if_pos hno), s.sameBut_settled⟩
  · have hgo : (!s.entStarting || !s.ent.katPassed) = false := by rw [h1, h2]; rfl
    refine ⟨_, congrArg (answer s) ((if_neg (Bool.eq_false_iff.1 hgo)).trans (if_pos rfl)), ?_⟩
    generalize hu : s.setEnt _ = u
    have hent : u.leaveEnds.ent = _ := leaveEnds_ent u
    show u.leaveEnds.ent.st = _ ∧ u.leaveEnds.ent.starting = _ ∧ u.leaveEnds.ent.srcPass = _ ∧ u.leaveEnds.ent.srcFail = _
      ∧ u.leaveEnds.ent.leaving = _ ∧ u.leaveEnds.ent.fail = _
    rw [hent, ← hu]
    exact ⟨rfl, rfl, rfl, BitVec.or_zero, rfl, rfl⟩
  · have hgo : (!s.entStarting || !s.ent.katPassed) = false := by rw [h1, h2]; rfl
    refine ⟨_, congrArg (answer s) ((if_neg (Bool.eq_false_iff.1 hgo)).trans (if_neg hm)), ?_⟩
    obtain ⟨hbit, hlt⟩ := firstFailed_spec hm s.ent.instants
    have htest := testOfTwo_ne_zero (Config.freeNat 4 s.ent.instants)
    generalize firstFailed m s.ent.instants = src at hbit hlt
    generalize BitVec.ofNat 2 (1 + Config.freeNat 4 s.ent.instants % 2) = test at htest
    generalize hu : s.setEnt _ = u
    have hent : (u.healthFail test src).leaveEnds.ent = { u.ent.afterFail test src with leaving := none } := by
      rw [leaveEnds_ent, healthFail_ent]
    generalize (u.healthFail test src).leaveEnds = t at hent
    have hfailed : failed t := by
      simp only [failed]
      rw [hent, ← hu]
      exact afterFail_failed _ test src
    refine ⟨hfailed, ?_, ?_, fun h0 => ?_⟩
    · show t.ent.srcPass = _
      rw [hent, ← hu]
      rfl
    · show t.ent.srcFail = _
      rw [hent, ← hu]
      rfl
    · show m.getLsbD t.ent.failSrc.toNat = true ∧ t.ent.failTest ≠ 0
      rw [hent, ← hu]
      have hsrc : (BitVec.ofNat 4 src).toNat = src := (BitVec.toNat_ofNat ..).trans (Nat.mod_eq_of_lt hlt)
      constructor
      · show m.getLsbD (if s.ent.failTest = 0 then BitVec.ofNat 4 src else _).toNat = true
        rw [if_pos h0, hsrc]
        exact hbit
      · show (if s.ent.failTest = 0 then test else _) ≠ 0
        rw [if_pos h0]
        exact htest

/-! ### Windows (11 R263 to R265) -/

/-- A block adds its two words where they fit. -/
theorem block_spec (e : Entropy) :
    e.block.instants = e.instants + 256 ∧ e.block.words = (if e.words + 2 ≤ 64 then e.words + 2 else e.words)
      ∧ e.block.queue = e.queue ++ (if e.words + 2 ≤ 64 then [(conditioned e.instants).take 16, (conditioned e.instants).drop 16] else []) := by
  by_cases h : e.words + 2 ≤ 64
  · have he : e.block = { e with instants := e.instants + 256
                                 queue := e.queue ++ [(conditioned e.instants).take 16, (conditioned e.instants).drop 16]
                                 blocks := satInc e.blocks } := if_pos h
    rw [he, if_pos h, if_pos h]
    exact ⟨rfl, List.length_append, rfl⟩
  · have he : e.block = { e with instants := e.instants + 256, discarded := satInc e.discarded } := if_neg h
    rw [he, if_neg h, if_neg h, List.append_nil]
    exact ⟨rfl, rfl, rfl⟩

theorem block_prefix (e : Entropy) : e.queue <+: e.block.queue := by
  rw [(block_spec e).2.2]
  exact List.prefix_append ..

/-- The four blocks of a window (R264, R265). -/
theorem window_spec (e : Entropy) :
    let x := e.block.block.block.block
    x.words = e.words + 2 * min 4 ((64 - e.words) / 2) ∧ e.queue <+: x.queue
      ∧ (e.words + 2 ≤ 64 → (x.queue.drop e.words).take 2 = [(conditioned e.instants).take 16, (conditioned e.instants).drop 16])
      ∧ x.instants = e.instants + 1024 := by
  intro x
  obtain ⟨i1, w1, q1⟩ := block_spec e
  obtain ⟨i2, w2, -⟩ := block_spec e.block
  obtain ⟨i3, w3, -⟩ := block_spec e.block.block
  obtain ⟨i4, w4, -⟩ := block_spec e.block.block.block
  have hpre : e.block.queue <+: x.queue := (block_prefix e.block).trans ((block_prefix _).trans (block_prefix _))
  refine ⟨?_, (block_prefix e).trans hpre, fun h => ?_, ?_⟩
  · show e.block.block.block.block.words = _
    rw [w4, w3, w2, w1]
    split_ifs <;> omega
  · obtain ⟨l, hl⟩ := hpre
    rw [if_pos h] at q1
    rw [← hl, q1, List.append_assoc]
    show (List.drop e.queue.length _).take 2 = _
    rw [List.drop_left]
    rfl
  · show e.block.block.block.block.instants = _
    rw [i4, i3, i2, i1]

/-! ### Expander calls (11 R269, R270) -/

/-- The seed queue's service: expanders that hold a seed keep one, and neither a failure nor raw mode comes or goes. -/
structure State.seeds (s t : State) : Prop where
  inst : ∀ c, (s.expander c).inst = true → (t.expander c).inst = true
  fail : t.ent.fail = s.ent.fail
  raw : t.ent.rawActive = s.ent.rawActive

section
variable {s} {t u : State}

theorem State.seeds.trans (h : s.seeds t) (k : t.seeds u) : s.seeds u :=
  ⟨fun c hc => k.inst c (h.inst c hc), k.fail.trans h.fail, k.raw.trans h.raw⟩

theorem State.seeds.of_ent (hx : t.ent.exps = s.ent.exps) (hf : t.ent.fail = s.ent.fail) (hr : t.ent.rawActive = s.ent.rawActive) : s.seeds t :=
  ⟨fun c hc => by rwa [State.expander, hx], hf, hr⟩

theorem State.seeds.refl (s : State) : s.seeds s := .of_ent rfl rfl rfl

theorem State.seeds.of_keeps {l : List Area} (h : s.keeps t l) (hl : .ent ∉ l := by decide) : s.seeds t :=
  .of_ent (by rw [h.ent_eq hl]) (by rw [h.ent_eq hl]) (by rw [h.ent_eq hl])

theorem State.seeds.ite {p : Prop} [Decidable p] (h : s.seeds t) (k : s.seeds u) : s.seeds (if p then t else u) := by
  split <;> assumption

end

theorem expander_setExpander (c k : Nat) (x : Expander) : (s.setExpander c x).expander k = if k = c then x else s.expander k :=
  mget_mset s.ent.exps c k x {}

theorem seeds_setExpander (c : Nat) (x : Expander) (hx : (s.expander c).inst = true → x.inst = true) : s.seeds (s.setExpander c x) := by
  refine ⟨fun k hk => ?_, rfl, rfl⟩
  rw [expander_setExpander]
  split
  · rename_i h
    exact hx (h ▸ hk)
  · exact hk

theorem seeds_reseed (c : Nat) (b : Bytes) : s.seeds (s.reseed c b) := seeds_setExpander s c _ id

theorem call_inst (x : Expander) : x.call.1.inst = x.inst := rfl

theorem pairs_inst (n : Nat) : ∀ x : Expander, (x.pairs n).1.inst = x.inst := by
  induction n with
  | zero => exact fun _ => rfl
  | succ n ih => exact fun x => (ih _).trans rfl

theorem seeds_instantiate (c : Nat) (ws : List Bytes) : s.seeds (s.instantiate c ws) := by
  unfold State.instantiate
  exact (seeds_setExpander s c _ fun _ => pairs_inst 6 _).trans (.of_keeps (keeps_eng (l := [.eng]) _ _ (by decide)))

theorem seeds_serveOne (u : SeedUser) : s.seeds (s.seedServeOne u) := by
  cases u with
  | instantiate c =>
    refine State.seeds.trans ?_ (seeds_instantiate _ c _)
    exact .of_ent rfl rfl rfl
  | keyRegister => exact .of_ent rfl rfl rfl
  | leave c =>
    refine State.seeds.trans ?_ (seeds_reseed _ c _)
    exact .of_ent rfl rfl rfl
  | late c =>
    refine State.seeds.trans ?_ (seeds_reseed _ c _)
    exact .of_ent rfl rfl rfl
  | early c =>
    refine State.seeds.trans ?_ (seeds_reseed _ c _)
    exact .of_ent rfl rfl rfl

theorem seeds_serve (f : Nat) : ∀ s : State, s.seeds (s.seedServe f) := by
  induction f with
  | zero => exact fun s => .refl s
  | succ f ih =>
    intro s
    unfold State.seedServe
    split
    · exact .refl s
    · exact .ite ((seeds_serveOne s _).trans (ih _)) (.refl s)

theorem seeds_wardenCalls (k : Nat) : ∀ (s t : State) (b : Bytes), s.wardenCalls k = some (t, b) → s.seeds t := by
  induction k with
  | zero =>
    intro s t b h
    cases h
    exact .refl s
  | succ k ih =>
    intro s t b h
    unfold State.wardenCalls at h
    dsimp only at h
    split at h
    · obtain ⟨⟨u, b'⟩, hu, he⟩ := Option.map_eq_some_iff.1 h
      cases he
      refine State.seeds.trans ?_ (ih _ _ _ hu)
      exact seeds_setExpander s _ _ id
    · cases h

theorem seeds_freshNonce : s.seeds s.freshNonce := by
  refine .ite ?_ (.refl s)
  unfold State.newNonce
  split
  · rename_i t b h
    exact (seeds_wardenCalls 2 s t b h).trans (.of_ent rfl rfl rfl)
  · exact .of_ent rfl rfl rfl

theorem seeds_seedQueue : s.seeds s.seedQueue := by
  have hready : ∀ s : State, s.seeds s.entReadyCheck := fun s => by
    refine .ite (.refl s) (.ite ?_ (.refl s))
    have h1 : s.seeds { s with ent := { s.ent with ready := true } } := .of_ent rfl rfl rfl
    exact (h1.trans (seeds_freshNonce _)).trans (.of_keeps (keeps_raiseAll _ _))
  refine .ite ?_ (.refl s)
  have h := (seeds_serve 32 s).trans (hready _)
  exact .ite (h.trans (seeds_freshNonce _)) h

theorem queueCall_expander (c : Nat) (i b : Bool) :
    (s.queueCall c i 0 b).expander c
      = { s.expander c with waits := (s.expander c).waits ++ [(i, 0)], dryWaits := if b then satInc (s.expander c).dryWaits else (s.expander c).dryWaits } := by
  unfold State.queueCall
  dsimp only
  rw [bne_self_eq_false, Bool.false_and, if_neg Bool.false_ne_true, expander_setExpander, if_pos rfl]

theorem queueCall_keeps (c d : Nat) (i b : Bool) : s.keeps (s.queueCall c i d b) [.ent] := .ite (.refl _ _) (keeps_setExpander ..)

/-- Settles O40: start-up, windows, health failures, expander calls, and waits for random whose time is spent. -/
theorem entropyRuns : Obligations.EntropyRuns := by
  refine ⟨startup_settles, fun s => ⟨fun h1 h2 => ?_, fun h => ?_, fun src apt => ⟨fun h1 h2 => ?_, fun h1 h2 => ?_, fun h => ?_⟩,
    fun c i => ⟨fun h => ?_, fun hc hf hs => ?_, fun hc hf hs hi => ?_, fun hc hf hs hi h1 h2 => ?_⟩,
    fun d r q hr hst hq hd hw hcan => ?_⟩⟩
  · have hgo : (s.ent.st != .running || s.tam.felledState) = false := by rw [h1, h2]; rfl
    refine ⟨_, congrArg (answer s) (if_neg (Bool.eq_false_iff.1 hgo)), keeps_ent s _ (by decide), window_spec s.ent⟩
  · have hno : (s.ent.st != .running || s.tam.felledState) = true := by
      rcases h with h | h
      · rw [bne_iff_ne.2 h]; rfl
      · rw [h, Bool.or_true]
    exact ⟨_, congrArg (answer s) (if_pos hno), s.sameBut_settled⟩
  · let u := s.setEnt { s.ent with srcFail := setFlag s.ent.srcFail src.val }
    have hrun : exec (.healthTestFail src apt) s = answer s (u.healthFail (if apt then 2 else 1) src.val) := by
      refine congrArg (answer s) ((if_neg (by rw [h1]; decide)).trans ?_)
      rw [h2]
    have hent := healthFail_ent u (if apt then 2 else 1) src.val
    generalize u.healthFail (if apt then 2 else 1) src.val = t at hrun hent
    refine ⟨_, hrun, ?_⟩
    show t.ent.st = _ ∧ t.ent.fail = _ ∧ t.ent.ready = _ ∧ t.ent.words = _ ∧ t.ent.srcFail.getLsbD _ = _ ∧ (_ → t.ent.failTest = _ ∧ t.ent.failSrc.toNat = _)
    rw [hent]
    refine ⟨rfl, rfl, rfl, rfl, ?_, fun h0 => ⟨if_pos h0, ?_⟩⟩
    · show (setFlag s.ent.srcFail src.val).getLsbD src.val = true
      rw [setFlag_getLsbD _ _ _ src.isLt, decide_eq_true rfl, Bool.or_true]
    · show (if s.ent.failTest = 0 then BitVec.ofNat 4 src.val else _).toNat = _
      rw [if_pos h0]
      exact (BitVec.toNat_ofNat ..).trans (Nat.mod_eq_of_lt src.isLt)
  · have hrun : exec (.healthTestFail src apt) s
        = answer s (s.setEnt { s.ent with srcFail := setFlag s.ent.srcFail src.val, rawFails := satInc s.ent.rawFails }) := by
      refine congrArg (answer s) ((if_neg (by rw [h1]; decide)).trans ?_)
      rw [h2]
      rfl
    exact ⟨_, hrun, (keeps_ent s _ (by decide)).settled, rfl⟩
  · have hrun : exec (.healthTestFail src apt) s = answer s s := by
      refine congrArg (answer s) ?_
      rcases h with h | h | h
      · exact if_pos h
      · rw [h]
        exact ite_self ..
      · rw [h]
        exact ite_self ..
    exact ⟨_, hrun, s.sameBut_settled⟩
  · have hno : (s.poweredCle.contains c.val && !s.tam.felledState) = false := by
      rcases h with h | h
      · rw [Bool.eq_false_iff.2 fun hb => h (List.contains_iff_mem.1 hb), Bool.false_and]
      · rw [h]; exact Bool.and_false _
    exact ⟨_, congrArg (answer s) (if_neg (Bool.eq_false_iff.1 hno)), s.sameBut_settled⟩
  · have hgo : (s.poweredCle.contains c.val && !s.tam.felledState) = true := by rw [List.contains_iff_mem.2 hc, hf]; rfl
    have hcall : s.expanderCall c.val = ((s.setExpander c.val (s.expander c.val).served.1).seedQueue, some (s.expander c.val).served.2) := if_pos hs
    refine ⟨s.setExpander c.val (s.expander c.val).served.1, ?_, keeps_setExpander .., ?_, ?_, fun k hk => ?_⟩
    · refine congrArg (answer s) ((if_pos hgo).trans ?_)
      rw [hcall]
    · rw [expander_setExpander, if_pos rfl]
      rfl
    · rw [expander_setExpander, if_pos rfl]
      rfl
    · rw [expander_setExpander, if_neg hk]
  · have hgo : (s.poweredCle.contains c.val && !s.tam.felledState) = true := by rw [List.contains_iff_mem.2 hc, hf]; rfl
    have hcall : s.expanderCall c.val = (s, none) := by
      refine (if_neg (Bool.eq_false_iff.1 hs)).trans (if_neg ?_)
      rw [hi, Bool.false_and]
      decide
    have hrun : exec (.expanderCall c i) s = answer s s := by
      refine congrArg (answer s) ((if_pos hgo).trans ?_)
      rw [hcall]
      dsimp only
      rw [hi]
      rfl
    exact ⟨_, hrun, s.sameBut_settled⟩
  · have hgo : (s.poweredCle.contains c.val && !s.tam.felledState) = true := by rw [List.contains_iff_mem.2 hc, hf]; rfl
    intro y
    refine ⟨fun hw => ?_, fun hw => ?_⟩
    · let x := s.setExpander c.val { y with seedWait := true, dryWaits := satInc y.dryWaits }
      have hcall : s.expanderCall c.val = (x.seedQueue, none) := by
        refine (if_neg (Bool.eq_false_iff.1 hs)).trans (if_pos ?_)
        rw [hi, hw]
        rfl
      have hx : x.expander c.val = { y with seedWait := true, dryWaits := satInc y.dryWaits } := by rw [expander_setExpander, if_pos rfl]
      have hseed := seeds_seedQueue x
      have hinst : (x.seedQueue.expander c.val).inst = true := hseed.inst c.val (by rw [hx]; exact hi)
      refine ⟨x, ?_, keeps_setExpander .., hx⟩
      refine congrArg (answer s) ((if_pos hgo).trans ?_)
      rw [hcall]
      dsimp only
      rw [hinst, hseed.fail, hseed.raw, show x.ent.fail = s.ent.fail from rfl, show x.ent.rawActive = s.ent.rawActive from rfl, h1, h2,
        show (s.expander c.val).seedWait = false from hw]
      rfl
    · have hcall : s.expanderCall c.val = (s, none) := by
        refine (if_neg (Bool.eq_false_iff.1 hs)).trans (if_neg ?_)
        rw [show (s.expander c.val).seedWait = true from hw, Bool.not_true, Bool.and_false]
        decide
      have hrun : exec (.expanderCall c i) s = answer s (s.queueCall c.val i 0 true) := by
        refine congrArg (answer s) ((if_pos hgo).trans ?_)
        rw [hcall]
        dsimp only
        rw [hi, h1, h2, show (s.expander c.val).seedWait = true from hw]
        rfl
      exact ⟨_, hrun, (queueCall_keeps ..).settled, queueCall_expander s c.val i true⟩
  · obtain ⟨hrun, hdone⟩ := endWith_completes s (st := stEntNotReady) hq hd rfl hw hcan
    refine ⟨_, ?_, hdone⟩
    rw [← hrun]
    refine congrArg (answer s) ?_
    rw [hr]
    exact if_pos hst

end Sys2Proof.Machine
end

section
/-! What Alatas sees to after a command, and the numbers of descriptors in a core fault (10 R257; 14 R343). -/

namespace Sys2Proof.Machine

variable (s : State)

/-! ### What Alatas sees to (`State.after`) -/

theorem turns_checkEngines : s.turns s.checkEngines := by
  have hwant : ∀ (s : State) (c : Nat), s.turns (s.wantRepair c) := fun s c => by
    unfold State.wantRepair State.askOp
    split
    · exact ⟨.refl _ _, .refl s⟩
    · split
      · exact turns_startOp s _
      · exact turns_setPwr s _
  have hfold : ∀ (l : List Nat) (s : State), s.turns (l.foldl (fun (s : State) c => if s.engineLost c then s.wantRepair c else s) s) := by
    intro l
    induction l with
    | nil => exact fun s => ⟨.refl _ _, .refl s⟩
    | cons c r ih =>
      intro s
      refine State.turns.trans ?_ (ih _)
      dsimp only
      split
      · exact hwant s c
      · exact ⟨.refl _ _, .refl s⟩
  exact hfold _ s

theorem relabels_freeWaits : s.relabels s.freeWaits := by
  refine .fold (fun s r => ?_) _ s
  split
  · exact .ite (.refl s) (relabels_unwait s r.id)
  · exact .refl s

/-- Where no commit runs afterwards, what Alatas sees to adds no record: a reset takes them all. -/
theorem after_records (h : s.after.vault.commit = none) : s.relabels s.after ∨ s.after.disp.descs = [] := by
  have hpre : s.relabels s.checkEngines.freeWaits := (turns_checkEngines s).2.trans (relabels_freeWaits _)
  unfold State.after at h ⊢
  generalize s.checkEngines.freeWaits = t at h hpre
  have hwarm : t.warm.disp.descs = [] := by
    obtain ⟨-, -, -, -, hdisp, -⟩ := warm_warmed t
    rw [hdisp]
  unfold State.resetIfAsked at h ⊢
  split at h
  · exact .inl hpre
  · dsimp only at h ⊢
    split_ifs at h ⊢ with h1 h2 h3 h4
    · exact .inl hpre
    · exact .inr hwarm
    · split at h
      · exact .inr hwarm
      · rename_i c hc
        exact nomatch hc.symm.trans h
    · exact .inl hpre
    · exact .inr hwarm

/-! ### Core faults (10 R257, R258) -/

/-- Core 0 runs descriptor 0 of a peer; an operation of a transaction waits for no recipe any longer, and the next transaction's work
would have number 0 again. -/
def faultingState : State :=
  { disp := { descs := [{ id := 0, fn := 0, ring := 8, idx := 0, bytes := [], stage := .started, begun := true },
                        { id := 1, fn := 0, ring := txnRing, idx := 0, bytes := [], stage := .mgmtWait (.recipes []) {} }]
              coreQ := [(0, [0])] }
    time := { lock := true }
    pwr := { domains := [(3, { on := true, iso := false })] }
    mesh := { journal := [⟨2, 0, 0, 0, txnBody 2 1 [], [], false⟩] } }

theorem faultingState_up : (faultingState.domain (3 + (0 : CoreNo).val / 8)).up = true := by decide +kernel

theorem faultingState_begun : ∃ r, faultingState.desc 0 = some r ∧ r.onCore = true := ⟨_, rfl, rfl⟩

theorem faultingState_queue : 0 ∈ faultingState.coreQueue (0 : CoreNo).val := by decide +kernel

/-- The state after the fault: no commit runs, and a descriptor 0 is there. -/
theorem faultingState_after :
    (faultingState.coreFault (0 : CoreNo).val).after.vault.commit = none
      ∧ ((faultingState.coreFault (0 : CoreNo).val).after.desc 0).isSome = true := by
  decide +kernel

/-- Two states that one answer stands for agree in their units. -/
theorem units_of_answer {s t u : State} (h : Host.Outcome.next (s.settled t) = answer s u) : t.disp = u.disp ∧ t.vault = u.vault := by
  have hs : s.settled t = s.settled u := Host.Outcome.next.inj h
  exact ⟨(congrArg State.disp hs :), (congrArg State.vault hs :)⟩

theorem exec_coreFault {k : CoreNo} (h : (s.domain (3 + k.val / 8)).up = true) :
    exec (.coreFault k .doubleException) s = answer s (s.coreFault k.val).after :=
  congrArg (answer s) (if_neg (by rw [h]; decide))

/-- Refutes O45: the completion of a faulted core's work may be followed by that of a transaction, and the work that begins the next one takes
the number the dispatcher has next, which nothing in the statement keeps from being that of the work the core had begun. -/
theorem not_clusterEvents : ¬Obligations.ClusterEvents := by
  intro h
  obtain ⟨hcommit, hdesc⟩ := faultingState_after
  obtain ⟨r, hr, hon⟩ := faultingState_begun
  have hrun := exec_coreFault faultingState faultingState_up
  have hup := faultingState_up
  have hq := faultingState_queue
  generalize faultingState = s at h hcommit hdesc hr hrun hup hq
  obtain ⟨x, hx, hgone, -⟩ := (h s).1 0 .doubleException hup fun h => nomatch h
  have hx0 : x.desc 0 = none := hgone 0 hq r hr hon
  obtain ⟨hdisp, hvault⟩ := units_of_answer (hx.symm.trans hrun)
  have hnone : x.after.desc 0 = none := by
    rcases after_records x (by rw [hvault]; exact hcommit) with hrec | hrec
    · exact State.narrows.none hrec hx0
    · rw [State.desc, hrec]
      rfl
  rw [State.desc, ← hdisp] at hdesc
  rw [State.desc] at hnone
  rw [hnone] at hdesc
  cases hdesc

end Sys2Proof.Machine
end

section
/-! How the work of a verb or of a management command ends: it waits, it parks, or it fails (02 R45; 04 R94; 06 R172; 16 R399). -/

namespace Sys2Proof.Machine

variable {s t : State}

/-! ### The ends of a run -/

theorem modDesc_id (d : Nat) {f : DRec → DRec} (h : ∀ r, f r = r) : s.modDesc d f = s := by
  have hmap : s.disp.descs.map (fun r => if r.id = d then f r else r) = s.disp.descs := by
    simp only [h, ite_self, List.map_id']
  unfold State.modDesc
  rw [hmap]

/-- Work that had nothing out yet has streamed nothing. -/
theorem stream_nil (r : DRec) : s.stream r [] = s := by
  unfold State.stream
  split
  · exact modDesc_id r.id fun q => by rw [List.append_nil]
  · exact modDesc_id r.id fun q => by
      show { q with written := q.written ++ [] } = q
      rw [List.append_nil]

theorem desc_of_mergeFlags {d : Nat} {q : DRec} (h : (t.mergeFlags d).desc d = some q) : ∃ r, t.desc d = some r := by
  cases hr : t.desc d with
  | some r => exact ⟨r, rfl⟩
  | none =>
    have hm : t.mergeFlags d = t := by
      unfold State.mergeFlags
      rw [hr]
      rfl
    rw [hm, hr] at h
    cases h

theorem succeeded_of_ne {st : Word16} (h0 : st ≠ 0x0000) (h1 : st ≠ 0x0001) : succeeded st = false := by
  rw [succeeded, beq_false_of_ne (b := stDone) h0, beq_false_of_ne (b := stFlagged) h1]
  rfl

/-- Failed work with nothing out completes with its status. -/
theorem runFailed_completes {d : Nat} {q : DRec} {st : Word16} (hq : (t.mergeFlags d).desc d = some q) (hd : q.durable = false)
    (hw : q.written = []) (hst : succeeded st = false) (hc : t.canComplete q 0) :
    ∃ x : State, t.runFailed d st [] = x.settle.askReloads ∧ t.completes x q st [] 0 [] := by
  obtain ⟨r, hr⟩ := desc_of_mergeFlags hq
  obtain ⟨hrun, hdone⟩ := endWith_completes t hq hd hst hw hc
  refine ⟨_, ?_, hdone⟩
  unfold State.runFailed
  rw [hr]
  dsimp only
  rw [stream_nil, hrun]

/-- Work with something to make durable waits for its commit (04 R94). -/
theorem runDone_waits {d : Nat} {q : DRec} {a : Answer} (hq : t.desc d = some q) (h : a.durable = true ∨ q.durable = true)
    (hf : t.vault.pgFault = false) :
    t.runDone d a = t.modDesc d fun q => { q with stage := .waitDurable { status := stDone, out := a.out, inl := a.inl } } := by
  have hd : (a.durable || q.durable) = true := by rwa [Bool.or_eq_true]
  unfold State.runDone
  rw [hq]
  dsimp only
  rw [if_pos hd, if_neg (by rw [hf]; decide)]

/-- Where the paging rings are stopped, it completes PAGE_TIMEOUT. -/
theorem runDone_stopped {d : Nat} {q : DRec} {a : Answer} (hq : t.desc d = some q) (h : a.durable = true ∨ q.durable = true)
    (hf : t.vault.pgFault = true) (hw : q.written = []) (hc : t.canComplete q 0) :
    ∃ x : State, t.runDone d a = x.settle ∧ t.completes x q stPageTimeout [] 0 [] := by
  have hd : (a.durable || q.durable) = true := by rwa [Bool.or_eq_true]
  refine ⟨_, ?_, completeOne_fails t hq (st := stPageTimeout) (out := []) (inl := []) (len := none) rfl hw hc⟩
  unfold State.runDone
  rw [hq]
  dsimp only
  rw [if_pos hd, if_pos hf]
  rfl

/-- Work that is done, with nothing to make durable, completes DONE. -/
theorem runDone_completes {d : Nat} {q : DRec} {a : Answer} (hq : t.desc d = some q) (ha : a.durable = false) (hd : q.durable = false)
    (hc : t.canComplete q a.out.length) :
    ∃ x : State, t.runDone d a = x.settle
      ∧ t.completes x q (if t.recordFlags q &&& 0x17 = 0 then 0x0000 else 0x0001) a.out a.out.length a.inl := by
  have hst : flaggedStatus stDone q.flags = if t.recordFlags q &&& 0x17 = 0 then 0x0000 else 0x0001 := by
    rw [flaggedStatus_eq _ _ _ (t.recordFlags_noted q), flaggedStatus_done]
  have hok : succeeded (if t.recordFlags q &&& 0x17 = 0 then (0x0000 : Word16) else 0x0001) = true := by split <;> rfl
  have hdone := t.completeOne_completes d q stDone _ a.out a.inl none hq hst (.inl hok) (by rw [if_pos hok]; exact hc)
  rw [if_pos hok, if_pos hok, if_pos hok, Option.getD_none] at hdone
  refine ⟨_, ?_, hdone⟩
  unfold State.runDone
  rw [hq]
  dsimp only
  rw [ha, hd, Bool.or_self, if_neg Bool.false_ne_true]
  rfl

/-- Settles O24: `runFailed_completes`. -/
theorem verbFails : Obligations.VerbFails := by
  intro c d fam op chk f s t r q st hc hf hr hrun hq hd hw h0 h1 hcan
  obtain ⟨x, hx, hdone⟩ := runFailed_completes hq hd hw (succeeded_of_ne h0 h1) hcan
  refine ⟨x, ?_, hdone⟩
  rw [exec_verb s hc hf]
  unfold State.runVerb
  rw [hr]
  dsimp only
  rw [hrun, ← hx]
  rfl

/-! ### Parking (06 R172) -/

/-- A descriptor whose stage is not `queued` is not what a core takes up next. -/
theorem takeUp_desc {k d : Nat} {r : DRec} (hr : s.desc d = some r) (hs : r.stage ≠ .queued) : (s.takeUp k).desc d = some r := by
  unfold State.takeUp
  split
  · exact hr
  · split
    · exact hr
    · rename_i q hq
      obtain ⟨e, -, he⟩ := List.exists_of_findSome?_eq_some hq
      obtain ⟨hdesc, hstage⟩ := Option.filter_eq_some_iff.1 he
      have hid := s.desc_id hdesc
      have hne : d ≠ q.id := fun h => by
        rw [hid] at h
        subst h
        rw [hr] at hdesc
        cases hdesc
        exact hs (by simpa using hstage)
      exact (s.desc_modDesc_ne q.id (fun q => { q with stage := .started, begun := true }) (fun _ => rfl) hne).trans hr

theorem pause_desc {d : Nat} {r : DRec} {g : Stage} (hr : s.desc d = some r) (hg : g ≠ .queued) :
    (s.pause d g).desc d = some { r with stage := g } := by
  unfold State.pause
  rw [hr]
  exact takeUp_desc (desc_modDesc_some s hr) hg

theorem pause_keeps (d : Nat) (g : Stage) : s.keeps (s.pause d g) [.disp] := by
  unfold State.pause
  split
  · exact .refl _ _
  · exact (keeps_disp (l := [.disp]) s _ (by decide)).trans (keeps_takeUp ..)

theorem pause_relabels (d : Nat) (g : Stage) : s.relabels (s.pause d g) := by
  unfold State.pause
  split
  · exact .refl s
  · refine State.relabels.trans ?_ (relabels_takeUp ..)
    exact relabels_modDesc s d _ fun _ => ⟨rfl, rfl, rfl, rfl, rfl⟩

theorem pause_disp (d : Nat) (g : Stage) : (s.pause d g).disp = { s.disp with descs := (s.pause d g).disp.descs } := by
  unfold State.pause
  split
  · rfl
  · exact State.takeUp_disp _ _

/-- The state behind a wait: what the descriptor d holds in t, and nothing else of the work. -/
theorem keepWork_desc {d : Nat} {r q : DRec} (hr : s.desc d = some r) (hq : t.desc d = some q) :
    (s.keepWork t d).desc d
      = some { r with flags := r.flags ||| q.flags, trans := q.trans, chain := q.chain, did := q.did, met := q.met, drawn := q.drawn } := by
  unfold State.keepWork
  rw [hq]
  exact desc_modDesc_some s (f := fun p => { p with
    flags := p.flags ||| q.flags, trans := q.trans, chain := q.chain, did := q.did, met := q.met, drawn := q.drawn }) hr

theorem keepWork_units {d : Nat} {q : DRec} (hq : t.desc d = some q) :
    s.keeps (s.keepWork t d) [.disp, .kr, .ent] ∧ (s.keepWork t d).kr = { s.kr with poolWait := t.kr.poolWait } ∧ (s.keepWork t d).ent = t.ent
      ∧ s.relabels (s.keepWork t d) ∧ (s.keepWork t d).disp = { s.disp with descs := (s.keepWork t d).disp.descs } := by
  unfold State.keepWork
  rw [hq]
  have hrel : s.relabels (s.modDesc d fun p => { p with
      flags := p.flags ||| q.flags, trans := q.trans, chain := q.chain, did := q.did, met := q.met, drawn := q.drawn }) := by
    exact relabels_modDesc s d _ fun _ => ⟨rfl, rfl, rfl, rfl, rfl⟩
  exact ⟨.of_eq (fun _ => rfl) (fun h => absurd (by decide) h) (fun h => absurd (by decide) h) (fun _ => rfl) (fun _ => rfl)
    (fun h => absurd (by decide) h) (fun _ => rfl) (fun _ => rfl) (fun _ => rfl) (fun _ => rfl) (fun _ => rfl) (fun _ => rfl), rfl, rfl, hrel, rfl⟩

theorem rewind_desc {d : Nat} {r : DRec} (hr : s.desc d = some r) : (s.rewind d).desc d = some { r with met := 0 } := desc_modDesc_some s hr

theorem startedAs_desc {d fam op : Nat} {r : DRec} (h : s.startedAs d fam op = some r) : s.desc d = some r := (Option.filter_eq_some_iff.1 h).1

/-- Settles O23: `runDone_waits` and `runDone_stopped`, and for a wait for an object `keepWork_desc` behind `pause_desc`. -/
theorem verbWaits : Obligations.VerbWaits := by
  refine ⟨fun c d fam op chk f s t r q a hc hf hm hr hrun hq hdur => ?_, fun c d fam op l n chk f s t r q hc hf hr hrun hq => ?_⟩
  · have hal : (s.rewind d).alone d = true := (s.rewind d).alone_of_unmeshed hm
    have hend : s.runVerb f fam op d chk = t.runDone d a := by
      simp only [State.runVerb, hr, hrun, State.runEnds, hal, Bool.true_or, if_true]
    have hexec := exec_verb s hc hf (chk := chk)
    rw [hend] at hexec
    refine ⟨fun hpg => ⟨_, ?_, keeps_disp t _ (by decide), desc_modDesc_some t (f := fun q : DRec => { q with
      stage := .waitDurable { status := stDone, out := a.out, inl := a.inl } }) hq, fun e he => t.desc_modDesc_ne d _ (fun _ => rfl) he⟩,
      fun hpg hw hcan => ?_⟩
    · rw [runDone_waits hq hdur hpg] at hexec
      exact hexec
    · obtain ⟨x, hx, hdone⟩ := runDone_stopped hq hdur hpg hw hcan
      rw [hx] at hexec
      exact ⟨x, hexec, hdone⟩
  · have hexec := exec_verb s hc hf (chk := chk)
    have hend : s.runVerb f fam op d chk = (((s.rewind d).keepWork t d).pause d (.parked l n)).want l n := by
      simp only [State.runVerb, hr, hrun, State.runEnds, State.parkFor]
    rw [hend] at hexec
    have hre : s.keeps (s.rewind d) [.disp] := keeps_disp s _ (by decide)
    have hrel : s.relabels (s.rewind d) := by
      exact relabels_modDesc s d _ fun _ => ⟨rfl, rfl, rfl, rfl, rfl⟩
    obtain ⟨hk, hkr, hent, hkrel, hkdisp⟩ := keepWork_units (s := s.rewind d) hq
    have hdesc := keepWork_desc (rewind_desc (startedAs_desc hr)) hq
    have hp := pause_keeps (s := (s.rewind d).keepWork t d) d (.parked l n)
    refine ⟨_, hexec, (hre.widen.trans hk).trans hp.widen, hp.kr_eq.trans hkr, hp.ent_eq.trans hent, pause_desc hdesc (fun h => nomatch h),
      fun e => ((hrel.trans hkrel).trans (pause_relabels ..)).map_bytes e, ?_⟩
    refine (pause_disp d (.parked l n)).trans ?_
    generalize (((s.rewind d).keepWork t d).pause d (.parked l n)).disp.descs = descs
    exact congrArg (fun x : Disp => { x with descs := descs }) hkdisp

/-! ### Management commands (16 R398, R399) -/

/-- The descriptor that a management command carries on, at the front of what the Warden does. -/
theorem mgmtAs_spec {d op : Nat} {r : DRec} (h : s.mgmtAs d op = some r) : s.life.updatePause = false ∧ s.desc d = some r ∧ r.stage = .mgmt := by
  unfold State.mgmtAs at h
  split at h
  · cases h
  · rename_i hno
    obtain ⟨hp, -⟩ := Bool.or_eq_false_iff.1 (Bool.eq_false_iff.2 hno)
    obtain ⟨hdesc, hr⟩ := Option.filter_eq_some_iff.1 h
    rw [Bool.and_eq_true, Bool.and_eq_true] at hr
    exact ⟨hp, hdesc, beq_iff_eq.1 hr.1.1⟩

/-- A management command runs its operation; then what it left of cluster operations, and what Alatas sees to. -/
theorem exec_mgmt {c : Instr} {d : Nat} {m : MgmtOp} {chk : Bool} {r : DRec} (hc : c.mgmt = some (d, m, chk)) (hr : s.mgmtAs d m.op = some r) :
    exec c s = .next (s.settled (c.mgmtTail (s.runMgmt m d chk)).after) := by
  obtain ⟨hpause, hdesc, hstage⟩ := mgmtAs_spec hr
  unfold Instr.mgmt at hc
  split at hc
  case h_28 => cases hc
  case h_19 =>
    cases hc
    refine congrArg (answer s) ?_
    split
    · exact if_neg (by rw [hpause, Bool.false_and]; decide)
    · rfl
  case h_27 =>
    cases hc
    refine congrArg (answer s) (if_neg ?_)
    rw [State.stageOf, hdesc]
    intro h
    rw [Option.map_some, hstage] at h
    cases h
  all_goals
    cases hc
    rfl

/-- What f reads of the state stands behind a computation, however it ends. -/
def KeepsPart {α β : Type} (f : State → β) (m : V α) : Prop := ∀ s : State, f (runV m s).2 = f s

section
variable {α β γ : Type} {f : State → γ}

theorem KeepsPart.pure (a : α) : KeepsPart f (Pure.pure a : V α) := fun _ => rfl

theorem KeepsPart.getV : KeepsPart f getV := fun _ => rfl

theorem KeepsPart.failV (st : Word16) : KeepsPart f (Machine.failV st : V α) := fun _ => rfl

theorem KeepsPart.stopV (x : Stop) : KeepsPart f (Machine.stopV x : V α) := fun _ => rfl

theorem KeepsPart.need (c : Bool) (st : Word16) : KeepsPart f (need c st) := fun s => by cases c <;> rfl

theorem KeepsPart.modV {g : State → State} (h : ∀ s, f (g s) = f s) : KeepsPart f (modV g) := h

theorem KeepsPart.bind {m : V α} {k : α → V β} (h : KeepsPart f m) (hk : ∀ a, KeepsPart f (k a)) : KeepsPart f (m >>= k) := fun s => by
  have hs := h s
  rw [runV_bind]
  generalize runV m s = x at hs
  obtain ⟨e | a, t⟩ := x
  · exact hs
  · exact (hk a t).trans hs

theorem KeepsPart.ite {p : Prop} [Decidable p] {m n : V α} (h : KeepsPart f m) (k : KeepsPart f n) : KeepsPart f (if p then m else n) := by
  split <;> assumption

end

theorem keepsLife_extents (r : DRec) (sgl : Bool) (a n : Nat) : KeepsPart State.life (extents r sgl a n) := by
  refine .bind .getV fun s => .ite ?_ (.pure _)
  split
  · exact .pure _
  · exact .failV _
  · exact .bind (.modV fun _ => rfl) fun _ => .failV _

theorem keepsLife_hostOperands (r : DRec) (n : Nat) : KeepsPart State.life (hostOperands r n) := by
  refine .bind (keepsLife_extents _ _ _ _) fun ins => .bind (keepsLife_extents _ _ _ _) fun outs => .bind (.need _ _) fun _ => .bind .getV fun s =>
    .bind (.need _ _) fun _ => .bind (.need _ _) fun _ => .bind (.modV fun s => ?_) fun _ => .bind (.need _ _) fun _ => .pure _
  split <;> rfl

theorem countFault_life (k : Nat) : (s.countFault k).life = s.life := by
  unfold State.countFault
  dsimp only
  split <;> rfl

/-- A signature's check on a PAU. -/
theorem keepsLife_engineOf (o : Opnd) : KeepsPart State.life (engineOf o [4] []) := by
  refine .bind .getV fun s => .bind (.need _ _) fun _ => .bind (.modV fun s => ?_) fun _ => .ite (.pure _) ?_
  · unfold State.ranBlocks
    rfl
  · exact .bind (.modV fun s => countFault_life _) fun _ => .stopV _

theorem keepsLife_mgmtIntake (r : DRec) (m : MgmtOp) (o : Opnd) : KeepsPart State.life (mgmtIntake r m o) := by
  refine .bind (.need _ _) fun _ => .bind (keepsLife_hostOperands _ _) fun ins => .bind .getV fun s => .bind (.need _ _) fun _ =>
    .bind (.need _ _) fun _ => .bind (.need _ _) fun _ => .bind (.need _ _) fun _ => .bind (.need _ _) fun _ => ?_
  exact .ite (.bind (keepsLife_engineOf o) fun _ => .bind (.need _ _) fun _ => .pure _) (.bind (.need _ _) fun _ => .pure _)

theorem takeMgmt_desc (d e : Nat) : (s.takeMgmt d).desc e = s.desc e := rfl

/-- A command that has been accepted acts. -/
theorem runMgmt_accepted {d : Nat} {m : MgmtOp} {chk : Bool} {r : DRec} (hr : s.mgmtAs d m.op = some r) (h : r.phase ≠ 0)
    (hm : m.sel r.image = true) : s.runMgmt m d chk = (s.takeMgmt d).mgmtBody m d chk := by
  unfold State.runMgmt
  rw [hr]
  dsimp only
  rw [if_neg h, hm]
  rfl

/-- In a device of no mesh its operation is run, and its run ends as a verb's does. -/
theorem mgmtBody_alone {d : Nat} {m : MgmtOp} {chk : Bool} {r : DRec} {e : Except Stop Answer} (hr : s.desc d = some r) (hm : s.meshed = false)
    (hrun : runV (m.run (s.mgmtOpnd r chk)) (s.rewind d) = (e, t)) (hf : ∀ p, e ≠ .error (.forward p)) :
    s.mgmtBody m d chk = (s.rewind d).runEnds d 15 m.op e t := by
  have hal : (s.rewind d).alone d = true := (s.rewind d).alone_of_unmeshed hm
  have hrun' : runV (m.run ((s.rewind d).mgmtOpnd r chk)) (s.rewind d) = (e, t) := hrun
  unfold State.mgmtBody
  rw [hr]
  dsimp only
  rw [hal, if_pos rfl, hrun']
  dsimp only
  split
  · rename_i p
    exact absurd rfl (hf p)
  · rfl

/-- Settles O26: `runDone_completes`, `runDone_waits`, `pause_desc` and `runFailed_completes`, one for each end of the body. -/
theorem managementActs : Obligations.ManagementActs := by
  intro c d m chk s t r q hc hm hr hp hsel hq run
  obtain ⟨-, hdesc, -⟩ := mgmtAs_spec hr
  have hexec := exec_mgmt hc hr
  rw [runMgmt_accepted hr hp hsel] at hexec
  have hbody : ∀ e, run = (e, t) → (∀ p, e ≠ .error (.forward p)) →
      (s.takeMgmt d).mgmtBody m d chk = ((s.takeMgmt d).rewind d).runEnds d 15 m.op e t := fun e he hf => mgmtBody_alone hdesc hm he hf
  have hal : ((s.takeMgmt d).rewind d).alone d = true := State.alone_of_unmeshed _ hm
  have hok : ∀ a, ((s.takeMgmt d).rewind d).runEnds d 15 m.op (.ok a) t = t.runDone d a := fun a => by
    simp only [State.runEnds, hal, Bool.true_or, if_true]
  refine ⟨fun a he ha hd hcan => ?_, fun a he hdur hpg => ?_, fun w z he => ?_, fun st p he hpd hdur hw h0 h1 hcan => ?_⟩
  · obtain ⟨x, hx, hdone⟩ := runDone_completes hq ha hd hcan
    rw [hbody _ he fun p h => (nomatch h), hok, hx] at hexec
    exact ⟨x, hexec, hdone⟩
  · rw [hbody _ he fun p h => (nomatch h), hok, runDone_waits hq hdur hpg] at hexec
    exact ⟨_, hexec, keeps_disp t _ (by decide), desc_modDesc_some t (f := fun q : DRec => { q with
      stage := .waitDurable { status := stDone, out := a.out, inl := a.inl } }) hq⟩
  · have hhold : ((s.takeMgmt d).rewind d).runEnds d 15 m.op (.error (.hold (.mgmtWait w z))) t = t.pause d (.mgmtWait w z) := by
      simp only [State.runEnds, hal, Bool.true_or, if_true]
    rw [hbody _ he fun p h => (nomatch h), hhold] at hexec
    refine ⟨_, hexec, pause_keeps .., ?_⟩
    rw [pause_desc hq (g := .mgmtWait w z) fun h => nomatch h]
    rfl
  · obtain ⟨x, hx, hdone⟩ := runFailed_completes hpd hdur hw (succeeded_of_ne h0 h1) hcan
    have hfail : ((s.takeMgmt d).rewind d).runEnds d 15 m.op (.error (.fail st [])) t = t.runFailed d st [] := rfl
    rw [hbody _ he fun p h => (nomatch h), hfail, hx] at hexec
    exact ⟨x, hexec, hdone⟩

/-- Settles O27: an accepted command's SEQ is written by `State.accept`; a refused one completes (`endWith_completes`), and no check writes
CMD_SEQ (`keepsLife_mgmtIntake`). -/
theorem commandAccepted : Obligations.CommandAccepted := by
  intro c d m chk s t r q hc hr hp hbare hsel hq run
  obtain ⟨-, hdesc, -⟩ := mgmtAs_spec hr
  have hid : r.id = d := s.desc_id hdesc
  have hbody : ∀ b, m.bodyOf b = cmdBody b := fun b => by rw [MgmtOp.bodyOf, hbare]; rfl
  have hexec := exec_mgmt (chk := chk) hc hr
  have hrunMgmt : ∀ b, run = (.ok b, t) → s.runMgmt m d chk = (t.accept r m b).mgmtBody m d chk := fun b he => by
    have he' : runV (mgmtIntake r m ((s.takeMgmt d).mgmtOpnd r chk)) (s.takeMgmt d) = (.ok b, t) := he
    unfold State.runMgmt
    rw [hr]
    dsimp only
    rw [if_pos hp, hbody, hsel, he']
    rfl
  have hrunFails : ∀ st, run = (.error (.fail st []), t) → s.runMgmt m d chk = t.endWith d st := fun st he => by
    have he' : runV (mgmtIntake r m ((s.takeMgmt d).mgmtOpnd r chk)) (s.takeMgmt d) = (.error (.fail st []), t) := he
    unfold State.runMgmt
    rw [hr]
    dsimp only
    rw [if_pos hp, hbody, hsel, he']
    rfl
  refine ⟨fun b he hst => ?_, fun st p he hpd hdur hw h0 h1 hcan => ?_⟩
  · rw [hrunMgmt _ he] at hexec
    let u := t.modDesc r.id fun q => { q with phase := 1, image := m.bodyOf b }
    let x : State := { u with life := { u.life with cmdSeq := leAt b 0x10 8 } }
    have hx : t.accept r m b = x := (if_neg (by rw [hbare]; decide)).trans (if_neg hst)
    rw [hx] at hexec
    refine ⟨x, hexec, (keeps_disp (l := [.disp, .life]) t _ (by decide)).trans (keeps_life u _ (by decide)), ?_, rfl⟩
    rw [← hbody b, ← hid]
    exact desc_modDesc_some t (f := fun q : DRec => { q with phase := 1, image := m.bodyOf b }) (hid.symm ▸ hq)
  · have hlife : t.life = s.life := by
      have h := keepsLife_mgmtIntake r m (s.mgmtOpnd r chk) (s.takeMgmt d)
      rw [show runV (mgmtIntake r m (s.mgmtOpnd r chk)) (s.takeMgmt d) = _ from he] at h
      exact h
    obtain ⟨hx, hdone⟩ := endWith_completes t hpd hdur (succeeded_of_ne h0 h1) hw hcan
    rw [hrunFails _ he, hx] at hexec
    obtain ⟨-, -, -, -, -, -, hk⟩ := id hdone
    exact ⟨_, hexec, hdone, (congrArg Life.cmdSeq hk.life_eq :).trans (congrArg Life.cmdSeq hlife)⟩

end Sys2Proof.Machine
end

section
/-! A recipe's run at an END step or past its step limit (05 R135, R137). -/

namespace Sys2Proof.Machine

variable {s : State}

/-! ### What an input read depends on -/

/-- Two states with one host memory and one set of windows. -/
def State.sameHost (s t : State) : Prop := s.host = t.host ∧ s.gate = t.gate

/-- Two computations that answer alike from states with one host, and end with one host where they answer well. -/
def AnswersAlike {α : Type} (m n : V α) : Prop :=
  ∀ s t, s.sameHost t → (runV m s).1 = (runV n t).1 ∧ ∀ a, (runV m s).1 = .ok a → (runV m s).2.sameHost (runV n t).2

theorem alike_pure {α : Type} (a : α) : AnswersAlike (pure a) (pure a) := fun _ _ h => ⟨rfl, fun _ _ => h⟩

theorem alike_failV {α : Type} (st : Word16) : AnswersAlike (failV st : V α) (failV st) := fun _ _ _ => ⟨rfl, fun _ h => nomatch h⟩

theorem alike_need (c : Bool) (st : Word16) : AnswersAlike (need c st) (need c st) := by
  cases c
  · exact alike_failV st
  · exact alike_pure ()

theorem alike_modV {f g : State → State} (h : ∀ s t, s.sameHost t → (f s).sameHost (g t)) : AnswersAlike (modV f) (modV g) :=
  fun s t hs => ⟨rfl, fun _ _ => h s t hs⟩

theorem alike_bind {α β : Type} {m n : V α} {f g : α → V β} (hm : AnswersAlike m n) (hf : ∀ a, AnswersAlike (f a) (g a)) :
    AnswersAlike (m >>= f) (n >>= g) := by
  intro s t hs
  obtain ⟨he, hk⟩ := hm s t hs
  rw [runV_bind, runV_bind]
  rcases hx : runV m s with ⟨a | a, x⟩ <;> rcases hy : runV n t with ⟨b | b, y⟩ <;> rw [hx, hy] at he hk
  · exact ⟨congrArg Except.error (Except.error.inj (he : Except.error a = Except.error b)), fun _ h => nomatch h⟩
  · exact nomatch he
  · exact nomatch he
  · cases Except.ok.inj (he : Except.ok a = Except.ok b)
    exact hf a x y (hk a rfl)

theorem alike_getV {β : Type} {f g : State → V β} (h : ∀ s t, s.sameHost t → AnswersAlike (f s) (g t)) :
    AnswersAlike (getV >>= f) (getV >>= g) := fun s t hs => h s t hs s t hs

/-- A status after a step that only leaves a note. -/
theorem alike_modV_failV {α : Type} (f g : State → State) (st : Word16) :
    AnswersAlike (modV f >>= fun _ => (failV st : V α)) (modV g >>= fun _ => failV st) :=
  fun _ _ _ => ⟨rfl, fun _ h => nomatch h⟩

namespace State.sameHost

variable {t : State} (h : s.sameHost t)
include h

theorem hostGet (a n : Nat) : s.hostGet a n = t.hostGet a n := by
  unfold State.hostGet
  rw [h.1]

theorem windows (p : Nat) (old : Bool) : s.windows p old = t.windows p old := by
  unfold State.windows State.gateOf
  rw [h.2]

theorem gather (l : List (Nat × Nat)) : s.gather l = t.gather l := by
  unfold State.gather
  simp only [h.hostGet]

theorem sglWalk (ws : List Region) (f : Nat) :
    ∀ a data segs, Machine.sglWalk s ws f a data segs = Machine.sglWalk t ws f a data segs := by
  induction f with
  | zero => exact fun _ _ _ => rfl
  | succ f ih =>
    intro a data segs
    unfold Machine.sglWalk
    simp only [h.hostGet, ih]

theorem sglRead (ws : List Region) (a : Nat) : Machine.sglRead s ws a = Machine.sglRead t ws a := by
  unfold Machine.sglRead
  rw [h.sglWalk]

end State.sameHost

theorem sameHost_flag {t : State} (h : s.sameHost t) (d f : Nat) : (s.flag d f).sameHost (t.flag d f) := h

section
variable {q r : DRec} (hf : q.fn = r.fn) (ho : q.oldWin = r.oldWin)
include hf ho

theorem alike_extents (sgl : Bool) (a len : Nat) : AnswersAlike (extents q sgl a len) (extents r sgl a len) := by
  unfold extents
  refine alike_getV fun s t h => ?_
  cases sgl with
  | false => exact alike_pure _
  | true =>
    rw [if_pos rfl, if_pos rfl, hf, ho, ← h.windows, ← h.sglRead]
    rcases sglRead s (s.windows r.fn r.oldWin) a with (_ | ⟨a, g⟩) | l
    · exact alike_failV _
    · exact alike_modV_failV _ _ _
    · exact alike_pure l

theorem State.sameHost.inWindows {t : State} (h : s.sameHost t) (l : List (Nat × Nat)) (w : Bool) : s.inWindows q l w = t.inWindows r l w := by
  unfold State.inWindows State.hostPasses
  rw [h.windows, hf, ho]

theorem alike_hostOperands (hb : q.bytes = r.bytes) (n : Nat) : AnswersAlike (hostOperands q n) (hostOperands r n) := by
  unfold hostOperands DRec.inSgl DRec.outSgl DRec.dflags DRec.inAddr DRec.outAddr DRec.inLen DRec.outCap
  rw [hb]
  refine alike_bind (alike_extents hf ho _ _ _) fun ins => alike_bind (alike_extents hf ho _ _ _) fun outs => alike_bind (alike_need _ _) fun _ => ?_
  refine alike_getV fun s t h => ?_
  rw [h.inWindows hf ho, h.inWindows hf ho]
  refine alike_bind (alike_need _ _) fun _ => alike_bind (alike_need _ _) fun _ =>
    alike_bind (alike_modV fun s t h => ?_) fun _ => alike_bind (alike_need _ _) fun _ => alike_pure _
  split
  · exact sameHost_flag h ..
  · exact h

end

theorem inputOf_sameHost {t : State} {q r : DRec} (h : s.sameHost t) (hd : q.sameDesc r) (ho : q.oldWin = r.oldWin) :
    s.inputOf q = t.inputOf r := by
  unfold State.inputOf
  rw [(alike_hostOperands hd.fn.symm ho hd.bytes.symm 0 s t h).1]
  rcases (runV (hostOperands r 0) t).1 with _ | ⟨ins, _⟩
  · rfl
  · exact h.gather ins

/-! ### The record a run ends with -/

/-- A record whose flags of the steps before are merged in. -/
def DRec.merged (r : DRec) : DRec :=
  (r.run.bind (·.before)).elim r fun f => { r with flags := r.flags ||| f, run := r.run.map fun x => { x with before := none } }

theorem mergeFlags_desc {d : Nat} {r : DRec} (h : s.desc d = some r) : (s.mergeFlags d).desc d = some r.merged := by
  unfold State.mergeFlags DRec.merged
  rw [h, Option.bind_some]
  cases r.run.bind (·.before) with
  | none => exact h
  | some f => exact desc_modDesc_some s (f := fun q => { q with flags := q.flags ||| f, run := q.run.map fun x => { x with before := none } }) h

/-- The parts of a record that its completion reads stand in one that has been merged. -/
theorem merged_same (r : DRec) : r.merged.durable = r.durable ∧ r.merged.written = r.written ∧ r.sameDesc r.merged ∧ r.merged.oldWin = r.oldWin := by
  unfold DRec.merged
  cases r.run.bind (·.before) <;> exact ⟨rfl, rfl, ⟨rfl, rfl, rfl, rfl, rfl⟩, rfl⟩

theorem canComplete_of_same {q r : DRec} {n : Nat} (h : s.canComplete q n) (hd : q.sameDesc r) (ho : r.oldWin = q.oldWin) : s.canComplete r n := by
  have hout : r.outSgl = q.outSgl ∧ r.outAddr = q.outAddr := by
    unfold DRec.outSgl DRec.outAddr DRec.dflags
    rw [hd.bytes]
    exact ⟨rfl, rfl⟩
  unfold State.canComplete State.recordSlot at h ⊢
  rw [hd.ring, hd.fn, ho, hout.1, hout.2]
  exact h

/-- A record that is run again waits for nothing it has met yet. -/
def DRec.unmet (r : DRec) : DRec := { r with met := 0 }

theorem unmet_same (r : DRec) : r.unmet.sameDesc r := ⟨rfl, rfl, rfl, rfl, rfl⟩

theorem refEnv_rewind (d : Nat) (r : DRec) (x : Run) : (s.rewind d).refEnv r.unmet x = s.refEnv r x := by
  unfold State.refEnv
  rw [inputOf_sameHost (s := s.rewind d) (t := s) ⟨rfl, rfl⟩ (unmet_same r) rfl]
  rfl

theorem unmet_merged (r : DRec) : r.unmet.merged = r.merged.unmet := by
  unfold DRec.unmet DRec.merged
  dsimp only
  cases r.run.bind (·.before) <;> rfl

theorem keeps_rewind (d : Nat) : s.keeps (s.rewind d) [.disp] := keeps_disp s _ (by decide)

/-- What a record has met is no part of its completion. -/
theorem completes_unmet {x : State} {q : DRec} {st : Word16} {out : Bytes} {len : Nat} {inl : Bytes}
    (h : s.completes x q.unmet st out len inl) : s.completes x q st out len inl := h

theorem canComplete_unmet {q : DRec} {n : Nat} (h : s.canComplete q n) : s.canComplete q.unmet n := h

/-! ### The first step of a run -/

theorem runRecipe_running {d : Nat} {chk : Bool} {r : DRec} {x : Run} (hr : s.desc d = some r) (hst : r.stage = .started)
    (hrec : r.isRecipe = true) (hx : r.run = some x) : s.runRecipe d chk = State.runSteps d chk 1025 (s.rewind d) x := by
  unfold State.runRecipe
  rw [hr, Option.filter_some, if_pos (by rw [hst, hrec]; rfl)]
  dsimp only
  rw [hx]

/-- A step that stops the run ends it there. -/
theorem runSteps_stop {d f : Nat} {chk : Bool} {r : DRec} {x : Run} {t : State} (hr : s.desc d = some r)
    (h : stepOnce s r x chk = .stop t) : State.runSteps d chk (f + 1) s x = t := by
  unfold State.runSteps
  rw [hr]
  dsimp only
  rw [h]

theorem stepOnce_limit {r : DRec} {x : Run} {chk : Bool} (h : imgExecLimit r.image ≤ x.executed) :
    stepOnce s r x chk = .stop (s.endRun r.id stRecipe) := if_pos h

theorem stepOnce_end {r : DRec} {x : Run} {chk : Bool} (h : x.executed < imgExecLimit r.image)
    (hk : stKind (imgStep r.image x.pc) = 4) : stepOnce s r x chk = stepEnd s r x (imgStep r.image x.pc) := by
  unfold stepOnce
  dsimp only
  rw [if_neg (Nat.not_le.2 h), hk]
  rfl

theorem stepEnd_done {r : DRec} {x : Run} {t inl : Bytes} (h : leAt t 0x30 2 = 0) (hi : (s.refEnv r x).read (stInl t) = some inl) :
    stepEnd s r x t = .stop (s.endDone r.id x (fit 8 inl)) := by
  unfold stepEnd
  rw [if_pos h, hi]

theorem stepEnd_refused {r : DRec} {x : Run} {t : Bytes} (h : leAt t 0x30 2 ≠ 0) : stepEnd s r x t = .stop (s.endRun r.id stAuth) := if_neg h

/-- A run with nothing to make durable completes DONE. -/
theorem endDone_completes {d : Nat} {q : DRec} {x : Run} {inl : Bytes} (hq : s.desc d = some q) (hd : q.durable = false)
    (hc : s.canComplete q 0) :
    ∃ y : State, s.endDone d x inl = y.settle
      ∧ s.completes y q (if s.recordFlags q &&& 0x17 = 0 then 0x0000 else 0x0001) [] x.hi inl := by
  have hst : flaggedStatus stDone q.flags = if s.recordFlags q &&& 0x17 = 0 then 0x0000 else 0x0001 := by
    rw [flaggedStatus_eq _ _ _ (s.recordFlags_noted q), flaggedStatus_done]
  have hok : succeeded (if s.recordFlags q &&& 0x17 = 0 then (0x0000 : Word16) else 0x0001) = true := by split <;> rfl
  have hdone := s.completeOne_completes d q stDone _ [] inl (some x.hi) hq hst (.inl hok) (by rw [if_pos hok]; exact hc)
  rw [if_pos hok, if_pos hok, if_pos hok, Option.getD_some] at hdone
  refine ⟨_, ?_, hdone⟩
  unfold State.endDone
  rw [hq]
  dsimp only
  rw [hd, if_neg Bool.false_ne_true]
  rfl

/-- A run that ends with a refusal completes its merged record with it. -/
theorem endRun_completes {d : Nat} {r : DRec} {st : Word16} (hr : s.desc d = some r) (hd : r.durable = false) (hst : succeeded st = false)
    (hw : r.written = []) (hc : s.canComplete r 0) :
    ∃ y : State, (s.rewind d).endRun d st = y.settle ∧ s.completes y r.merged st [] 0 [] := by
  obtain ⟨hmd, hmw, hsame, hold⟩ := merged_same r
  have hk : s.keeps (s.rewind d) [.disp] := keeps_rewind d
  have hq : ((s.rewind d).mergeFlags d).desc d = some r.merged.unmet := by
    rw [mergeFlags_desc (rewind_desc hr), ← unmet_merged]
    rfl
  obtain ⟨hrun, hdone⟩ := endWith_completes (s := s.rewind d) (st := st) hq (hmd.trans hd) hst (hmw.trans hw)
    ((canComplete_unmet (canComplete_of_same hc hsame hold)).of_disp hk)
  exact ⟨_, hrun, completes_unmet (hdone.of_disp hk)⟩

theorem exec_recipeRun (d : Nat) (chk : Bool) : exec (.recipeRun d chk) s = answer s (s.runRecipe d chk).after := rfl

/-- Settles O25: the first step of the run is its last one. -/
theorem recipeEnds : Obligations.RecipeEnds := by
  intro d chk s r x hr hst hrec hx hd hc q hq
  have hid := s.desc_id hr
  subst hid
  have hrw : (s.rewind r.id).desc r.id = some r.unmet := rewind_desc hr
  cases (mergeFlags_desc hr).symm.trans hq
  have hrun := runRecipe_running (chk := chk) hr hst hrec hx
  -- the run is the state in which its first step stops it
  have hstop : ∀ t, stepOnce (s.rewind r.id) r.unmet x chk = .stop t → exec (.recipeRun r.id chk) s = answer s t.after := fun t h => by
    rw [exec_recipeRun, hrun, runSteps_stop hrw h]
  have hstep : x.executed < imgExecLimit r.image → stKind (imgStep r.image x.pc) = 4 →
      stepOnce (s.rewind r.id) r.unmet x chk = stepEnd (s.rewind r.id) r.unmet x (imgStep r.image x.pc) := stepOnce_end (r := r.unmet)
  refine ⟨fun hlim hk h0 inl hi => ?_, fun hlim hk h0 hw => ?_, fun hlim hw => ?_⟩
  · obtain ⟨y, hy, hdone⟩ := endDone_completes (x := x) (inl := fit 8 inl) hrw hd (canComplete_unmet (hc.of_disp (keeps_rewind _)))
    have hend := stepEnd_done (s := s.rewind r.id) (r := r.unmet) (x := x) h0 ((congrArg (RefEnv.read · _) (refEnv_rewind _ r x)).trans hi)
    refine ⟨y, ?_, completes_unmet (hdone.of_disp (keeps_rewind _))⟩
    rw [hstop _ ((hstep hlim hk).trans hend)]
    exact congrArg (fun z : State => answer s z.after) hy
  · obtain ⟨y, hy, hdone⟩ := endRun_completes (st := stAuth) hr hd rfl hw hc
    refine ⟨y, ?_, hdone⟩
    rw [hstop _ ((hstep hlim hk).trans (stepEnd_refused h0))]
    exact congrArg (fun z : State => answer s z.after) hy
  · obtain ⟨y, hy, hdone⟩ := endRun_completes (st := stRecipe) hr hd rfl hw hc
    refine ⟨y, ?_, hdone⟩
    rw [hstop _ (stepOnce_limit (r := r.unmet) hlim)]
    exact congrArg (fun z : State => answer s z.after) hy

end Sys2Proof.Machine
end

section
/-! The paging rings' commands: a page supply taken (06 R170), and the waits that run out of time (R171, R172, R176, R177). -/

namespace Sys2Proof.Machine

variable (s : State)

/-! ### What a paging step leaves of the vault -/

theorem drains_failFetches (st : Word16) (bad : Nat × Nat → Bool) : s.drains (s.failFetches st bad) := by
  unfold State.failFetches
  dsimp only
  have hk : ∀ fs : List Fetch, s.drains { s with kr := { s.kr with fetches := fs } } := fun fs => .of_keeps (keeps_kr (l := [.kr]) s _ (by decide))
  exact (hk _).trans (.fold (fun s (d : Nat) => .ite (drains_endWith s d st) (.refl s)) _ _)

theorem failFetches_vault (st : Word16) (bad : Nat × Nat → Bool) : (s.failFetches st bad).vault = s.vault :=
  (drains_failFetches s st bad).keeps.vault_eq

/-- Waiting descriptors of an object that fails end, and it is wanted no longer. -/
theorem failObject_vault (o : Nat × Nat) (st : Word16) :
    ∃ ws, (s.failObject o st).vault = { s.vault with wanted := ws } := by
  unfold State.failObject
  dsimp only
  have hends : ∀ (ds : List Nat) (x : State), (ds.foldl (fun (s : State) d => s.endWith d st) x).vault = x.vault := fun ds x =>
    (State.drains.fold (f := fun (s : State) (d : Nat) => s.endWith d st) (fun s d => drains_endWith s d st) ds x).keeps.vault_eq
  refine ⟨?ws, (failFetches_vault _ _ _).trans ((hends _ _).trans ?_)⟩
  case ws => exact s.vault.wanted.filter fun w => !(decide (w.1 < parkDirty) && w == o || s.missing 6 w.1 w.2 == some o)
  rfl

theorem roomMade_keeps : s.keeps s.roomMade [.disp] :=
  .fold (fun s (w : Nat × Nat × Nat) => .ite (keeps_unwait s w.1) (.refl _ _)) _ _

/-- An abandoned commit is no more; the rest of the vault stands. -/
theorem abandonCommit_vault : s.abandonCommit.vault = { s.vault with commit := none } := by
  unfold State.abandonCommit
  split
  · rename_i h
    rw [← h]
  · exact (roomMade_keeps _).vault_eq

theorem abandonCommit_keeps : s.keeps s.abandonCommit [.vault, .disp] := by
  unfold State.abandonCommit
  split
  · exact .refl s _
  · exact (keeps_vault (l := [.vault, .disp]) s _ (by decide)).trans ((roomMade_keeps _).mono (by decide))

/-- The paging rings stop: the commit is abandoned. -/
theorem pagingFault_vault : s.pagingFault.vault = { s.vault with pgFault := true, commit := none } := by
  unfold State.pagingFault
  dsimp only
  have h1 := (State.drains.fold (f := fun (s : State) (w : Nat × Nat × Nat) => s.endWith w.1 stPageTimeout)
    (fun s w => drains_endWith s w.1 stPageTimeout) (s.setVault { s.vault with pgFault := true }).abandonCommit.parkedOn
    (s.setVault { s.vault with pgFault := true }).abandonCommit).keeps.vault_eq
  refine (State.drains.fold (f := fun (s : State) (w : Nat × Result) => s.finish w.1 stPageTimeout) (fun s w => drains_finish s w.1 _) _ _).keeps.vault_eq.trans ?_
  refine (State.drains.fold (f := fun (s : State) (d : Nat) => s.endWith d stPageTimeout) (fun s d => drains_endWith s d _) _ _).keeps.vault_eq.trans ?_
  exact (failFetches_vault _ _ _).trans (h1.trans (abandonCommit_vault _))

/-- A refused paging access stops the rings; one that passes changes nothing. -/
theorem pagingCheck_vault (a len : Nat) (w : Bool) :
    (s.pagingCheck a len w).1.vault = s.vault ∨ (s.pagingCheck a len w).1.vault = { s.vault with pgFault := true, commit := none } := by
  unfold State.pagingCheck
  have hk : (s.checkHost pagingId 0 false a len w).1.vault = s.vault := (keeps_checkHost s pagingId 0 false a len w).vault_eq
  generalize s.checkHost pagingId 0 false a len w = c at hk
  obtain ⟨t, ok⟩ := c
  dsimp only at hk ⊢
  cases ok with
  | true => exact .inl hk
  | false =>
    refine .inr ((pagingFault_vault t).trans ?_)
    rw [hk]

theorem pagingCheck_pass {a len : Nat} {w : Bool} (h : s.hostPasses 0 false a len w = true) : s.pagingCheck a len w = (s, true) := by
  unfold State.pagingCheck
  rw [s.checkHost_pass pagingId 0 false a len w h]
  rfl

/-! ### The supply at the head of its ring -/

/-- The supply ring has an entry to read, and its read passes. -/
structure State.supplyDue : Prop where
  enabled : s.vault.pgEnabled = true
  running : s.vault.pgFault = false
  some : s.vault.psqHead ≠ s.vault.psqPiSeen
  reads : s.hostPasses 0 false (s.vault.psqBase.toNat + 16 * (s.vault.psqHead.toNat % 2 ^ s.vault.pgLog2.toNat)) 16 false = true

/-- The entry at the head of the supply ring. -/
def State.supplyEntry : Bytes := s.hostGet (s.vault.psqBase.toNat + 16 * (s.vault.psqHead.toNat % 2 ^ s.vault.pgLog2.toNat)) 16

/-- The state behind the entry, with the requests rs left. -/
def State.supplyRead (rs : List PReq) : State := s.setVault { s.vault with psqHead := s.vault.psqHead + 1, reqs := rs }

/-- The state behind an entry that answers nothing live. -/
def State.supplyLost (rs : List PReq) : State :=
  s.setVault { s.vault with psqHead := s.vault.psqHead + 1, reqs := rs, discards := s.vault.discards + 1 }

/-- The request that the entry answers. -/
def State.answered : Option PReq := s.vault.reqs.find? fun q => q.serial.toNat == leNat (s.supplyEntry.take 4)

/-- The state behind an answer to request q. -/
def State.supplied (q : PReq) : State :=
  if q.timedOut then s.supplyLost (s.vault.reqs.erase q)
  else if q.write then (s.supplyRead (s.vault.reqs.erase q)).suppliedWrite q (leAt s.supplyEntry 4 1)
  else (s.supplyRead (s.vault.reqs.erase q)).suppliedRead q (leAt s.supplyEntry 4 1)

theorem supply_eq {s : State} (h : s.supplyDue) : s.supply = s.answered.elim (s.supplyLost s.vault.reqs) s.supplied := by
  unfold State.supply
  dsimp only
  rw [h.enabled, h.running, beq_false_of_ne h.some, if_neg (by decide)]
  unfold Vault.ringLen
  rw [pagingCheck_pass s h.reads]
  dsimp only
  rw [if_neg (by decide)]
  have ha : s.answered = (s.setVault { s.vault with psqHead := s.vault.psqHead + 1 }).vault.reqs.find? fun q =>
      q.serial.toNat == leAt (s.hostGet (s.vault.psqBase.toNat + 16 * (s.vault.psqHead.toNat % 2 ^ s.vault.pgLog2.toNat)) 16) 0 4 := rfl
  rw [← ha]
  cases s.answered <;> rfl

theorem leAt_one (b : Bytes) (i : Nat) : leAt b i 1 = (byteAt b i).toNat := by
  unfold leAt slice byteAt
  rw [List.getD_eq_getElem?_getD, ← List.head?_drop]
  cases b.drop i with
  | nil => rfl
  | cons c l => exact Nat.add_zero _

/-! ### What an answer leaves -/

/-- The places of the rings stand: the head of the supply ring and the requests. -/
def State.ringsStand (s t : State) : Prop := t.vault.psqHead = s.vault.psqHead ∧ t.vault.reqs = s.vault.reqs

theorem ringsStand_of_vault {s t : State} {v : Vault} (h : t.vault = v) (hp : v.psqHead = s.vault.psqHead) (hr : v.reqs = s.vault.reqs) :
    s.ringsStand t := by
  subst h
  exact ⟨hp, hr⟩

theorem State.ringsStand.trans {s t u : State} (h : s.ringsStand t) (k : t.ringsStand u) : s.ringsStand u :=
  ⟨k.1.trans h.1, k.2.trans h.2⟩

theorem ringsStand_makeRoom (l n : Nat) : s.ringsStand (s.makeRoom l n) := by
  unfold State.makeRoom
  dsimp only
  split
  · exact ⟨rfl, rfl⟩
  · split <;> exact ⟨rfl, rfl⟩

theorem ringsStand_touch (l n : Nat) : s.ringsStand (s.touch l n) := by
  unfold State.touch
  split <;> exact ⟨rfl, rfl⟩

theorem ringsStand_installPage (n : Nat) (x : VPage) : s.ringsStand (s.installPage n x) := by
  have h : s.ringsStand (((s.makeRoom 0 n).setVault { (s.makeRoom 0 n).vault with pages := mset (s.makeRoom 0 n).vault.pages n x }).touch 0 n) :=
    (ringsStand_makeRoom s 0 n).trans (ringsStand_touch _ 0 n)
  unfold State.installPage
  dsimp only
  split <;> exact h

theorem ringsStand_installNode (l n : Nat) (x : Map Word64) : s.ringsStand (s.installNode l n x) :=
  (ringsStand_makeRoom s l n).trans (ringsStand_touch _ l n)

theorem ringsStand_failObject (o : Nat × Nat) (st : Word16) : s.ringsStand (s.failObject o st) := by
  obtain ⟨ws, h⟩ := failObject_vault s o st
  exact ringsStand_of_vault h rfl rfl

theorem ringsStand_integrityFail (o : Nat × Nat) : s.ringsStand (s.integrityFail o) := ringsStand_failObject _ o stIntegrity

theorem ringsStand_pagingCheck (a len : Nat) (w : Bool) : s.ringsStand (s.pagingCheck a len w).1 := by
  rcases pagingCheck_vault s a len w with h | h
  · exact ringsStand_of_vault h rfl rfl
  · exact ringsStand_of_vault h rfl rfl

theorem ringsStand_suppliedWrite (q : PReq) (res : Nat) : s.ringsStand (s.suppliedWrite q res) := by
  unfold State.suppliedWrite
  split
  · exact ⟨rfl, rfl⟩
  · split
    · exact ⟨rfl, rfl⟩
    · split
      · exact ⟨rfl, rfl⟩
      · exact ringsStand_of_vault (abandonCommit_vault s) rfl rfl

theorem ringsStand_suppliedRead (q : PReq) (res : Nat) : s.ringsStand (s.suppliedRead q res) := by
  have hc := ringsStand_pagingCheck s (s.vault.pbufBase.toNat + 4096 * q.buf) (objLen q.obj) false
  unfold State.suppliedRead
  dsimp only
  generalize s.pagingCheck (s.vault.pbufBase.toNat + 4096 * q.buf) (objLen q.obj) false = c at hc
  obtain ⟨t, ok⟩ := c
  dsimp only at hc ⊢
  split
  · exact ringsStand_integrityFail ..
  · split
    · exact ringsStand_failObject ..
    · split
      · exact hc
      · split
        · split
          · exact hc.trans (ringsStand_installPage ..)
          · exact hc.trans (ringsStand_integrityFail ..)
        · split
          · exact hc.trans (ringsStand_installNode ..)
          · exact hc.trans (ringsStand_integrityFail ..)

theorem ringsStand_supplied (q : PReq) :
    (s.supplied q).vault.psqHead = s.vault.psqHead + 1 ∧ (s.supplied q).vault.reqs = s.vault.reqs.erase q := by
  unfold State.supplied
  split
  · exact ⟨rfl, rfl⟩
  · split
    · exact ringsStand_suppliedWrite (s.supplyRead (s.vault.reqs.erase q)) ..
    · exact ringsStand_suppliedRead (s.supplyRead (s.vault.reqs.erase q)) ..

theorem keeps_makeRoom (l n : Nat) : s.keeps (s.makeRoom l n) [.vault] := by
  unfold State.makeRoom
  dsimp only
  split
  · exact .refl s _
  · split
    · exact .refl s _
    · exact keeps_vault s _ (by decide)

theorem keeps_touch (l n : Nat) : s.keeps (s.touch l n) [.vault] := by
  unfold State.touch
  exact .ite (keeps_vault s _ (by decide)) (.refl s _)

theorem keeps_installPage (n : Nat) (x : VPage) : s.keeps (s.installPage n x) [.vault] := by
  have h : s.keeps (((s.makeRoom 0 n).setVault { (s.makeRoom 0 n).vault with pages := mset (s.makeRoom 0 n).vault.pages n x }).touch 0 n) [.vault] :=
    ((keeps_makeRoom s 0 n).trans (keeps_vault _ _ (by decide))).trans (keeps_touch _ 0 n)
  unfold State.installPage
  exact .ite (h.trans (keeps_vault _ _ (by decide))) h

theorem page_touch (l n m : Nat) : (s.touch l n).page m = s.page m := by
  unfold State.touch
  split <;> rfl

theorem page_installPage (n : Nat) (x : VPage) : (s.installPage n x).page n = x := by
  have h : (((s.makeRoom 0 n).setVault { (s.makeRoom 0 n).vault with pages := mset (s.makeRoom 0 n).vault.pages n x }).touch 0 n).page n = x :=
    (page_touch ..).trans (mget_mset_self ..)
  unfold State.installPage
  dsimp only
  split <;> exact h

/-- A page that opens is installed. -/
theorem suppliedRead_page {q : PReq} {p : VPage} (ho : q.obj = 0)
    (hp : s.hostPasses 0 false (s.vault.pbufBase.toNat + 4096 * q.buf) 4096 false = true)
    (h : s.openPage q.num ((s.entryOf 6 0 q.num).getD 0).toNat (s.hostGet (s.vault.pbufBase.toNat + 4096 * q.buf) 4096) = some p) :
    s.suppliedRead q 0 = s.installPage q.num p := by
  have hl : objLen q.obj = 4096 := by rw [ho]; rfl
  unfold State.suppliedRead
  dsimp only
  rw [if_neg (by decide), if_neg (by decide), hl, pagingCheck_pass s hp]
  dsimp only
  rw [if_neg (by decide), if_pos ho, ho, h]

/-- An object that the host does not hold is noted. -/
theorem suppliedRead_absent (q : PReq) : (s.suppliedRead q 1).vault.integritySeen = true := by
  unfold State.suppliedRead State.integrityFail
  rw [if_pos rfl]
  obtain ⟨ws, h⟩ := failObject_vault (s.setVault { s.vault with integritySeen := true }) (q.obj, q.num) stIntegrity
  rw [h]
  rfl

theorem entryOf_of_vault {s t : State} (hp : t.vault.pages = s.vault.pages) (hn : t.vault.nodes = s.vault.nodes)
    (hr : t.vault.rootEntry = s.vault.rootEntry) (f : Nat) : ∀ l n, t.entryOf f l n = s.entryOf f l n := by
  induction f with
  | zero => exact fun _ _ => congrArg some hr
  | succ f ih =>
    intro l n
    unfold State.entryOf State.resident
    rw [hp, hn, hr, ih]

theorem exec_pageSupply_stored {w : List (Nat × Byte)} (hw : storesWf w = true) :
    exec (.pageSupply w) s = .next (s.settled (s.stored w).supply.vaultGoes.after) :=
  (exec_pageSupply s w).trans (withStores_of_wf s hw _)

/-- Settles O28: `supply_eq` on the state with the stores made. -/
theorem supplyTaken : Obligations.SupplyTaken := by
  intro w s hw v u a e hen hf hpi hp
  have he : e = (s.stored w).supplyEntry := rfl
  clear_value e
  subst he
  have hdue : (s.stored w).supplyDue := ⟨hen, hf, hpi, hp⟩
  have hsu : s.keeps (s.stored w) [.host] := keeps_host s _ (by decide)
  refine ⟨(s.stored w).supply, exec_pageSupply_stored s hw, ?_, fun hno => ?_, fun q hq => ?_⟩
  · rw [supply_eq hdue]
    cases (s.stored w).answered with
    | none => rfl
    | some q => exact (ringsStand_supplied (s.stored w) q).1
  · have hnone : (s.stored w).answered = none := List.find?_eq_none.2 fun q hq hser => hno q hq (by simpa using hser)
    rw [supply_eq hdue, hnone]
    exact ⟨hsu.widen.trans (keeps_vault (l := [.host, .vault]) _ _ (by decide)), rfl, rfl⟩
  · have hx : (s.stored w).supply = (s.stored w).supplied q := by
      rw [supply_eq hdue, show (s.stored w).answered = some q from hq]
      rfl
    rw [hx]
    have hkeep : ∀ t : State, (s.stored w).keeps t [.vault] → s.keeps t [.host, .vault] := fun t ht =>
      (hsu.mono (by decide)).trans (ht.mono (by decide))
    refine ⟨(ringsStand_supplied (s.stored w) q).2, fun hlate => ?_, fun hlive hwr c hc hmem => ⟨fun hb => ?_, fun hb => ?_⟩,
      fun hlive hrd hb => ?_, fun hlive hrd hb hobj hpass p hopen => ?_⟩
    · rw [State.supplied, if_pos hlate]
      exact ⟨hkeep _ (keeps_vault _ _ (by decide)), rfl⟩
    all_goals rw [State.supplied, hlive, if_neg Bool.false_ne_true, leAt_one]
    · rw [if_pos hwr, hb, State.suppliedWrite, show ((s.stored w).supplyRead _).vault.commit = some c from hc]
      dsimp only
      rw [if_neg (by simpa using hmem), if_pos (c := BitVec.toNat (0 : Byte) = 0) rfl]
      exact ⟨hkeep _ (keeps_vault _ _ (by decide)), rfl⟩
    · rw [if_pos hwr, State.suppliedWrite, show ((s.stored w).supplyRead _).vault.commit = some c from hc]
      dsimp only
      rw [if_neg (by simpa using hmem), if_neg (c := (byteAt _ 4).toNat = 0) fun h0 => hb (BitVec.eq_of_toNat_eq h0), abandonCommit_vault]
    · rw [if_neg (by simp [hrd]), hb]
      exact suppliedRead_absent _ q
    · rw [if_neg (by simp [hrd]), hb]
      have hent : ((s.stored w).supplyRead ((s.stored w).vault.reqs.erase q)).entryOf 6 0 q.num = s.entryOf 6 0 q.num :=
        entryOf_of_vault rfl rfl rfl 6 0 q.num
      have hi := suppliedRead_page ((s.stored w).supplyRead ((s.stored w).vault.reqs.erase q)) hobj hpass (by rw [hent]; exact hopen)
      refine (congrArg (fun x : State => s.keeps x [.host, .vault] ∧ x.page q.num = p) hi).mpr ⟨?_, page_installPage ..⟩
      exact hkeep _ ((keeps_vault _ _ (by decide)).trans (keeps_installPage ..))

/-! ### Waits that run out of time -/

/-- A request that is late: every request of its serial keeps its buffer and place. -/
def Vault.late (v : Vault) (n : Word32) : List PReq := v.reqs.map fun x => if x.serial = n then { x with timedOut := true } else x

theorem requestTimeout_eq {n : Word32} {q : PReq} (hq : s.vault.reqs.find? (fun q => q.serial == n && !q.timedOut) = some q) :
    s.requestTimeout n = (if (q.write && s.vault.commit.any fun c => c.serials.contains n) = true
      then (s.setVault { s.vault with reqs := s.vault.late n }).abandonCommit else s.setVault { s.vault with reqs := s.vault.late n }).page! := by
  unfold State.requestTimeout
  rw [hq]
  dsimp only [State.setVault, Vault.late]
  split <;> rfl

theorem exec_pageRequestTimeout (n : Word32) : exec (.pageRequestTimeout n) s = answer s (s.requestTimeout n).after := rfl

theorem exec_pageWaitTimeout_waits {d : Nat} {r : DRec} (hr : s.desc d = some r)
    (h : (∃ l n, r.stage = .parked l n) ∨ (∃ i, r.stage = .waitNonce i) ∨ ∃ f ∈ s.kr.fetches, f.desc = some d ∧ f.waits.isSome = true) :
    exec (.pageWaitTimeout d) s = answer s (s.endWith d stPageTimeout).after := by
  have hstage : s.stageOf d = some r.stage := by
    unfold State.stageOf
    rw [hr]
    rfl
  unfold exec
  dsimp only
  unfold execPageWaitTimeout
  rw [hstage]
  rcases h with ⟨l, n, hst⟩ | ⟨i, hst⟩ | ⟨f, hf, hfd, hfw⟩
  · rw [hst]
  · rw [hst]
  · have hany : (s.kr.fetches.any fun f => f.desc == some d && f.waits.isSome) = true :=
      List.any_eq_true.2 ⟨f, hf, by rw [hfd, hfw, beq_self_eq_true]; rfl⟩
    rw [hany, if_pos rfl]
    split <;> rfl

theorem exec_durabilityTimeout {d : Nat} {r : DRec} {z : Result} (hr : s.desc d = some r) (hst : r.stage = .waitDurable z) :
    exec (.durabilityTimeout d) s = answer s (s.finish d stPageTimeout) := by
  have hstage : s.stageOf d = some (.waitDurable z) := by
    unfold State.stageOf
    rw [hr, Option.map_some, hst]
  unfold exec
  dsimp only
  unfold execDurabilityTimeout
  rw [hstage]

/-- Settles O29: a WRITE's late answer abandons its commit; the descriptors end by `endWith_completes` and `completeOne_fails`. -/
theorem pagingTimesOut : Obligations.PagingTimesOut := by
  refine ⟨?_, fun d s r hr hw hc => ⟨fun hwait hd q hq => ?_, fun ⟨z, hst⟩ => ?_⟩⟩
  · intro n q s hq late mine
    have hlate : s.keeps (s.setVault { s.vault with reqs := late }) [.vault] := keeps_vault s _ (by decide)
    have hmine : mine ↔ (q.write && s.vault.commit.any fun c => c.serials.contains n) = true := by
      simp only [mine, Bool.and_eq_true, Option.any_eq_true, List.contains_iff_mem]
    by_cases hm : mine
    · refine ⟨(s.setVault { s.vault with reqs := late }).abandonCommit, ?_, hlate.widen.trans (abandonCommit_keeps _), ?_, fun h => absurd hm h,
        fun _ => ⟨abandonCommit_vault _, fun n => ?_⟩⟩
      · rw [exec_pageRequestTimeout, requestTimeout_eq s hq, if_pos (hmine.1 hm)]
        rfl
      · rw [abandonCommit_vault]
        rfl
      · unfold State.page
        rw [abandonCommit_vault]
        rfl
    · refine ⟨s.setVault { s.vault with reqs := late }, ?_, hlate.widen, rfl, fun _ => ⟨hlate, rfl⟩, fun h => absurd h hm⟩
      rw [exec_pageRequestTimeout, requestTimeout_eq s hq, if_neg fun h => hm (hmine.2 h)]
      rfl
  · obtain ⟨hmd, hmw, hsame, hold⟩ := merged_same r
    cases (mergeFlags_desc hr).symm.trans hq
    obtain ⟨hrun, hdone⟩ := endWith_completes s (st := stPageTimeout) hq (hmd.trans hd) rfl (hmw.trans hw) (canComplete_of_same hc hsame hold)
    refine ⟨_, ?_, hdone⟩
    rw [exec_pageWaitTimeout_waits s hr hwait, hrun]
    rfl
  · refine ⟨_, ?_, completeOne_fails s hr (st := stPageTimeout) (out := []) (inl := []) (len := none) rfl hw hc⟩
    rw [exec_durabilityTimeout s hr hst]
    rfl

end Sys2Proof.Machine
end

section
/-! The vault's and the key register's start, the rebuild, the sweeps, and the commits (06 R173 to R177; 03 R61, R81, R85). -/

namespace Sys2Proof.Machine

variable {s : State}

/-! ### The vault's start (06 R173) -/

/-- An entry above all others is the last root. -/
theorem lastRoot_top {c : Nat × RootSlot} : ∀ {l : List (Nat × RootSlot)}, c ∈ l → (∀ d ∈ l, d = c ∨ d.2.seq < c.2.seq) → lastRoot l = some c
  | b :: r, hc, hall => by
    unfold lastRoot
    by_cases hr : c ∈ r
    · rw [lastRoot_top hr fun d hd => hall d (List.mem_cons_of_mem _ hd)]
      rcases hall b List.mem_cons_self with h | h
      · rw [h]
        exact if_neg (Nat.lt_irrefl _)
      · exact if_neg (Nat.not_lt.2 (Nat.le_of_lt h))
    · have hcb : c = b := (List.mem_cons.1 hc).resolve_right hr
      subst hcb
      cases hl : lastRoot r with
      | none => rfl
      | some d =>
        have hd : d ∈ r := lastRoot_mem hl
        rcases hall d (List.mem_cons_of_mem _ hd) with h | h
        · exact absurd (h ▸ hd) hr
        · exact if_pos h
where
  lastRoot_mem : ∀ {l : List (Nat × RootSlot)} {d : Nat × RootSlot}, lastRoot l = some d → d ∈ l
    | b :: r, d, h => by
      unfold lastRoot at h
      cases hl : lastRoot r with
      | none =>
        rw [hl] at h
        cases h
        exact List.mem_cons_self
      | some e =>
        rw [hl] at h
        dsimp only at h
        split at h <;> cases h
        · exact List.mem_cons_self
        · exact List.mem_cons_of_mem _ (lastRoot_mem hl)

theorem keeps_startVault : s.keeps s.startVault [.vault] := by
  have hk : ∀ v, s.keeps (s.setVault v) [.vault] := fun v => keeps_vault s v (by decide)
  unfold State.startVault
  dsimp only
  split
  · exact (hk _).trans (keeps_vault _ _ (by decide))
  · exact .ite (hk _) ((hk _).trans (keeps_vault _ _ (by decide)))

theorem startVault_root {k : Nat} {z : RootSlot} (h : lastRoot s.validRoots = some (k, z)) :
    s.startVault.vault = { s.vault with keyed := true, started := true, active := some k, rootEntry := z.rootEntry, reserve := z.reserve, lastSeq := z.reserve } := by
  unfold State.startVault
  dsimp only
  rw [show (s.setVault { s.vault with keyed := true }).validRoots = s.validRoots from rfl, h]
  rfl

theorem startVault_none (h : s.validRoots = []) :
    s.startVault.vault = if (s.vault.rootSlots.any fun c => c.2.whole) = true then { s.vault with keyed := true }
      else { s.vault with keyed := true, started := true, active := none, rootEntry := 0, reserve := 0, lastSeq := 0 } := by
  unfold State.startVault
  dsimp only
  rw [show (s.setVault { s.vault with keyed := true }).validRoots = s.validRoots from rfl, h]
  exact apply_ite State.vault ..

theorem validRoots_nil (h : ∀ c ∈ s.vault.rootSlots, RootSlot.whole c.2 = false) : s.validRoots = [] := by
  unfold State.validRoots
  rw [List.filter_eq_nil_iff]
  intro c hc
  rw [h c hc]
  exact Bool.false_ne_true

theorem exec_vaultStart (s : State) : exec .vaultStart s = answer s (if s.mayStart then s.startVault.vaultGoes.after else s) := rfl

theorem vaultStart_starts (s : State) :
    (s.mayStart = false → ∃ t, exec .vaultStart s = .next t ∧ s.sameBut t)
    ∧ (s.mayStart = true → ∃ x : State, exec .vaultStart s = .next (s.settled x.vaultGoes.after) ∧ s.keeps x [.vault]
        ∧ (∀ k z, (k, z) ∈ s.validRoots → (∀ c ∈ s.validRoots, c = (k, z) ∨ c.2.seq < z.seq) →
            x.vault = { s.vault with keyed := true, started := true, active := some k, rootEntry := z.rootEntry,
                                     reserve := z.reserve, lastSeq := z.reserve })
        ∧ ((∃ c ∈ s.vault.rootSlots, RootSlot.whole c.2 = true) → s.validRoots = [] → x.vault = { s.vault with keyed := true })
        ∧ ((∀ c ∈ s.vault.rootSlots, RootSlot.whole c.2 = false) →
            x.vault = { s.vault with keyed := true, started := true, active := none, rootEntry := 0, reserve := 0, lastSeq := 0 })) := by
  refine ⟨fun h => ⟨s.settled s, (exec_vaultStart s).trans (congrArg (answer s) (if_neg (by rw [h]; decide))), State.sameBut_settled s⟩, fun h => ?_⟩
  · refine ⟨s.startVault, (exec_vaultStart s).trans (congrArg (answer s) (if_pos h)), keeps_startVault,
      fun k z hm ht => startVault_root (lastRoot_top hm ht), fun hsome hv => ?_, fun hno => ?_⟩
    · rw [startVault_none hv, if_pos (List.any_eq_true.2 hsome)]
    · rw [startVault_none (validRoots_nil hno), if_neg fun hany => ?_]
      obtain ⟨c, hc, hw⟩ := List.any_eq_true.1 hany
      rw [hno c hc] at hw
      cases hw

/-! ### The key register's start and rebuild (03 R61, R85) -/

/-- Without a vault that is ready a rebuild does nothing. -/
theorem rebuild_unready (h : s.vault.ready = false) : s.rebuild = s := by
  have hstep : s.rebuildStep = s := if_pos (by rw [h]; rfl)
  unfold State.rebuild
  rw [h, Bool.and_false, Bool.false_and, Bool.false_and, Bool.false_and]
  exact hstep

/-- At the end of the boot a device without its vault starts no rebuild. -/
theorem keeps_bootLink (h : s.vault.ready = false) : s.keeps s.bootLink [.host, .pwr, .life] := by
  have hr := (readied_done s).1
  have hsc : s.keeps s.readied.serveUp [.host, .pwr] := hr.widen.trans (keeps_serveUp s.readied).widen
  have hdone : s.keeps s.bootDone [.host, .pwr, .life] := by
    rw [bootDone_eq]
    generalize s.readied.serveUp = c at hsc
    have hready : c.vault.ready = false := (congrArg Vault.ready hsc.vault_eq).trans h
    rw [rebuild_unready (s := { c with life := { c.life with boot := .done } }) hready]
    exact hsc.widen.trans (keeps_life _ _ (by decide))
  exact .ite hdone (keeps_life s _ (by decide))

/-- Every slot holds an empty image, and the key register is ready (03 R61). -/
def State.slotsEmptied (s : State) : State := { s with kr := { s.kr with ready := true, slots := [] } }

theorem exec_keyregReady (s : State) : exec .keyregReady s = answer s
    (if s.kr.keyed && !s.kr.ready && s.life.boot == .waitEntropy && !s.tam.felledState then
      s.slotsEmptied.bootLink.page!.after else s) := rfl

theorem keyregReady_readies (hk : s.kr.keyed = true) (hr : s.kr.ready = false) (hb : s.life.boot = .waitEntropy) (hf : s.tam.felledState = false)
    (hv : s.vault.ready = false) :
    ∃ x : State, exec .keyregReady s = .next (s.settled x.page!.after) ∧ x.kr = { s.kr with ready := true, slots := [] }
      ∧ x.vault = s.vault ∧ x.disp = s.disp
      ∧ (s.life.perstN = true → x.life.boot = .done ∧ (x.func 0).fnReady = true)
      ∧ (s.life.perstN = false → x.life.boot = .waitLink ∧ x.host = s.host) := by
  have hdue : (s.kr.keyed && !s.kr.ready && s.life.boot == .waitEntropy && !s.tam.felledState) = true := by
    rw [hk, hr, hb, hf]
    rfl
  have hlink := keeps_bootLink (s := s.slotsEmptied) hv
  refine ⟨s.slotsEmptied.bootLink, (exec_keyregReady s).trans (congrArg (answer s) (if_pos hdue)), hlink.kr_eq, hlink.vault_eq, hlink.disp_eq, fun hp => ?_, fun hp => ?_⟩
  · have hdone : s.slotsEmptied.bootLink = s.slotsEmptied.bootDone := if_pos hp
    rw [hdone]
    obtain ⟨hboot, -, h0, -⟩ := bootDone_done s.slotsEmptied
    exact ⟨hboot, h0⟩
  · have hwait : s.slotsEmptied.bootLink = { s.slotsEmptied with life := { s.slotsEmptied.life with boot := .waitLink } } :=
      if_neg (Bool.eq_false_iff.1 hp)
    rw [hwait]
    exact ⟨rfl, rfl⟩

theorem keyregReady_ignored (h : s.kr.keyed = false ∨ s.kr.ready = true ∨ s.life.boot ≠ .waitEntropy ∨ s.tam.felledState = true) :
    ∃ t, exec .keyregReady s = .next t ∧ s.sameBut t := by
  have hno : (s.kr.keyed && !s.kr.ready && s.life.boot == .waitEntropy && !s.tam.felledState) = false := by
    rcases h with h | h | h | h
    · rw [h]; rfl
    · rw [h, Bool.not_true, Bool.and_false]; rfl
    · rw [beq_false_of_ne h, Bool.and_false]; rfl
    · rw [h, Bool.not_true, Bool.and_false]
  exact ⟨s.settled s, (exec_keyregReady s).trans (congrArg (answer s) (if_neg (by rw [hno]; decide))), s.sameBut_settled⟩

/-- Without the pages of all partitions none is loaded. -/
theorem loadParts_waits (h : s.kr.partsLoaded = true ∨ ∃ p < 32, s.avail 0 (1 + p) = false) : s.loadParts = s := by
  unfold State.loadParts
  refine if_neg fun hd => ?_
  obtain ⟨hdue, hall⟩ := Bool.and_eq_true_iff.1 hd
  rcases h with h | ⟨p, hp, ha⟩
  · unfold State.partsDue at hdue
    rw [h, Bool.not_true, Bool.and_false] at hdue
    cases hdue
  · rw [List.all_eq_true.1 hall p (List.mem_range.2 hp)] at ha
    cases ha

theorem reloadSlots_none (h : s.kr.reloads = []) : s.reloadSlots = s := by
  unfold State.reloadSlots
  rw [h]
  rfl

theorem exec_keyregRebuild (s : State) : exec .keyregRebuild s = answer s s.rebuild.page!.after := rfl

theorem rebuild_begins (h1 : s.kr.rebuilt = false) (h2 : s.kr.ready = true) (h3 : s.vault.ready = true) (h4 : s.vault.pgEnabled = true)
    (h5 : s.vault.pgFault = false) (h6 : s.mayRebuild = true) (h7 : s.kr.partsLoaded = false) (h8 : s.kr.reloads = [])
    (h9 : ∃ p < 32, s.avail 0 (1 + p) = false) :
    s.rebuild = { s with kr := { s.kr with rebuilt := true }, vault := { s.vault with rebuilding := true } } := by
  have hdue : (!s.kr.rebuilt && s.kr.ready && s.vault.ready && s.vault.pgEnabled && !s.vault.pgFault && s.mayRebuild) = true := by
    rw [h1, h2, h3, h4, h5, h6]
    rfl
  unfold State.rebuild
  rw [if_pos hdue, h7, if_neg Bool.false_ne_true]
  have hload : ∀ t : State, t.vault.ready = true → t.kr.partsLoaded = false → t.kr.reloads = [] → (∃ p < 32, t.avail 0 (1 + p) = false) →
      t.rebuildStep = t := fun t hr hp hrl ha => by
    unfold State.rebuildStep
    dsimp only
    rw [loadParts_waits (.inr ha), reloadSlots_none hrl, hr, hp, Bool.not_false, Bool.or_true, Bool.true_or, if_neg (by decide), if_pos rfl]
  exact hload _ h3 h7 h8 h9

theorem foldl_erase_self {α : Type} [BEq α] [LawfulBEq α] : ∀ l : List α, l.foldl List.erase l = []
  | [] => rfl
  | a :: r => by
    rw [List.foldl_cons, List.erase_cons_head]
    exact foldl_erase_self r

/-- Whatever the order, slots that are all restored leave none to restore. -/
theorem foldl_erase_perm {α : Type} [BEq α] [LawfulBEq α] {l k : List α} (h : k.Perm l) : k.foldl List.erase l = [] := by
  have hd := h.diff_left l
  rw [List.diff_eq_foldl, List.diff_eq_foldl, foldl_erase_self] at hd
  exact hd

theorem restore_keeps (s : State) (i : Nat) :
    s.keeps (s.restore i) [.kr] ∧ (s.restore i).kr.toRestore = s.kr.toRestore.erase i ∧ ∀ j, j ≠ i → (s.restore i).slot j = s.slot j := by
  refine ⟨keeps_restore s i, ?_, fun j hj => ?_⟩
  all_goals unfold State.restore
  · dsimp only
    split <;> rfl
  · dsimp only
    split
    · exact mget_mset_ne _ _ _ hj
    · rfl

theorem restores_keep (l : List Nat) : ∀ s : State,
    s.keeps (l.foldl State.restore s) [.kr] ∧ (l.foldl State.restore s).kr.toRestore = l.foldl List.erase s.kr.toRestore
      ∧ ∀ j, j ∉ l → (l.foldl State.restore s).slot j = s.slot j := by
  induction l with
  | nil => exact fun s => ⟨.refl s _, rfl, fun _ _ => rfl⟩
  | cons i r ih =>
    intro s
    obtain ⟨hk, hr, hs⟩ := restore_keeps s i
    obtain ⟨hk', hr', hs'⟩ := ih (s.restore i)
    refine ⟨hk.trans hk', hr'.trans (by rw [hr]; rfl), fun j hj => ?_⟩
    exact (hs' j fun h => hj (List.mem_cons_of_mem _ h)).trans (hs j fun h => hj (h ▸ List.mem_cons_self))

theorem rebuild_ends (h1 : s.kr.rebuilt = true) (h3 : s.vault.ready = true) (h4 : s.vault.rebuilding = true) (h7 : s.kr.partsLoaded = true)
    (ha : ∀ i ∈ s.kr.toRestore, s.avail 0 (slotPage i) = true) (h8 : s.kr.reloads = []) :
    s.keeps s.rebuild [.kr, .vault] ∧ s.rebuild.kr.toRestore = [] ∧ s.rebuild.vault = { s.vault with rebuilding := false }
      ∧ ∀ i, i ∉ s.kr.toRestore → s.rebuild.slot i = s.slot i := by
  have hperm : (s.byDepth s.kr.toRestore).Perm s.kr.toRestore := List.perm_insertionSort ..
  obtain ⟨hk, hr, hs⟩ := restores_keep (s.byDepth s.kr.toRestore) s
  have heq : s.rebuild = ((s.byDepth s.kr.toRestore).foldl State.restore s).setVault
      { s.vault with rebuilding := false } := by
    have hon : s.rebuild = s.rebuildStep := by
      unfold State.rebuild
      rw [h1, Bool.not_true, Bool.false_and, Bool.false_and, Bool.false_and, Bool.false_and, Bool.false_and, if_neg Bool.false_ne_true]
    rw [hon]
    unfold State.rebuildStep
    rw [loadParts_waits (.inl h7), reloadSlots_none h8]
    have hall : (!s.vault.rebuilding || !s.kr.partsLoaded || !s.kr.toRestore.all fun i => s.avail 0 (slotPage i)) = false := by
      rw [h4, h7, List.all_eq_true.2 ha]
      rfl
    exact (if_neg (by rw [h3]; decide)).trans (if_neg (Bool.eq_false_iff.1 hall))
  rw [heq]
  refine ⟨hk.widen.trans (keeps_vault _ _ (by decide)), hr.trans (foldl_erase_perm hperm), rfl, fun i hi => hs i fun h => hi (hperm.subset h)⟩

/-! ### Sweeps (03 R81) -/

/-- The slots of the key register. -/
def State.slotMap (s : State) : Map Slot := s.kr.slots

theorem keepsSlots_of_kr {f : State → State} (h : ∀ s, (f s).kr = s.kr) : KeepsPart State.slotMap (modV f) :=
  .modV fun s => congrArg KeyReg.slots (h s)

theorem keepsSlots_needObj (l n : Nat) : KeepsPart State.slotMap (needObj l n) :=
  .bind .getV fun _ => .ite (keepsSlots_of_kr fun s => s.touch_kr ..) (.ite (.failV _) (.stopV _))

theorem keepsSlots_dirtyRoom (pg : Nat) : KeepsPart State.slotMap (dirtyRoom pg) := by
  refine .bind (keepsSlots_needObj _ _) fun _ => .bind (keepsSlots_needObj _ _) fun _ => .bind .getV fun _ => ?_
  exact .ite (.pure _) (.ite (.stopV _) (.ite (.stopV _) (.ite (.stopV _) (.ite (.pure _) (keepsSlots_of_kr fun s => s.makeRoom_kr ..)))))

theorem keepsSlots_putRecV (pg i : Nat) (b : Bytes) : KeepsPart State.slotMap (putRecV pg i b) :=
  .bind (keepsSlots_dirtyRoom pg) fun _ => keepsSlots_of_kr fun s => s.putRec_kr ..

theorem keepsSlots_modPart (p : Nat) (f : Part → Part) : KeepsPart State.slotMap (modPart p f) :=
  .bind (keepsSlots_needObj _ _) fun _ => .bind (keepsSlots_dirtyRoom _) fun _ => keepsSlots_of_kr fun s => (s.setPart p (f (s.part p))).putRec_kr ..

theorem keepsSlots_freeRec (p kind pg i : Nat) : KeepsPart State.slotMap (freeRec p kind pg i) := by
  refine .bind (keepsSlots_needObj _ _) fun _ => .bind (keepsSlots_needObj _ _) fun _ => .bind .getV fun s => .bind (keepsSlots_putRecV _ _ _) fun _ =>
    .bind (keepsSlots_of_kr fun t => ?_) fun _ => keepsSlots_modPart _ _
  split <;> rfl

theorem KeepsPart.forM {α γ : Type} {f : State → γ} {m : α → V Unit} (h : ∀ a, KeepsPart f (m a)) : ∀ l : List α, KeepsPart f (l.forM m)
  | [] => .pure ()
  | a :: r => .bind (h a) fun _ => .forM h r

theorem keepsSlots_dropSealed (p : Nat) (x : Slot) : KeepsPart State.slotMap (dropSealed p x) :=
  .ite (.bind (keepsSlots_needObj _ _) fun _ => .bind .getV fun _ => .ite (.forM (fun _ => keepsSlots_freeRec _ _ _ _) _) (.pure _)) (.pure _)

/-- A run that ends well leaves what its computation keeps. -/
theorem KeepsPart.ok {α γ : Type} {f : State → γ} {m : V α} {a : α} {t : State} (h : KeepsPart f m) (hr : runV m s = (.ok a, t)) : f t = f s :=
  (congrArg (fun x => f x.2) hr).symm.trans (h s)

theorem slot_of_slotMap {t : State} {m : Map Slot} (h : t.slotMap = m) (j : Nat) : t.slot j = mget m j {} :=
  congrArg (fun k : Map Slot => mget k j {}) h

/-- The slot that is emptied holds no key, and the others stand. -/
theorem sweepOne_empties {p i : Nat} {t : State} (h : runV (sweepOne p i) s = (.ok (), t)) :
    (t.slot i).alg = 0 ∧ ∀ j, j ≠ i → t.slot j = s.slot j := by
  unfold sweepOne at h
  obtain ⟨_, a, ha, h⟩ := runV_bind_eq_ok.1 h
  obtain ⟨_, b, hb, h⟩ := runV_bind_eq_ok.1 h
  rw [runV_bind_ok (runV_getV b)] at h
  obtain ⟨_, c, hc, h⟩ := runV_bind_eq_ok.1 h
  rw [runV_bind_ok (runV_modV _ c)] at h
  have hslots : c.slotMap = s.slotMap :=
    ((keepsSlots_dropSealed _ _).ok hc).trans (((keepsSlots_dirtyRoom _).ok hb).trans ((keepsSlots_needObj _ _).ok ha))
  have ht : t.slotMap = (c.invalidate i).slotMap := by
    rw [← runV_modV_eq_ok.1 h]
    exact congrArg KeyReg.slots (State.putRec_kr ..)
  have hinv : (c.invalidate i).slotMap = mset s.slotMap i { gen := if (c.slot i).gen = 0xFFFF then (c.slot i).gen else (c.slot i).gen + 1 } :=
    congrArg (mset · i _) hslots
  refine ⟨?_, fun j hj => ?_⟩
  · rw [slot_of_slotMap (ht.trans hinv), mget_mset_self]
  · rw [slot_of_slotMap (ht.trans hinv), mget_mset_ne _ _ _ hj]
    rfl

theorem sweeps_empty {p : Nat} : ∀ {l : List Nat} {s t : State}, runV (l.forM (sweepOne p)) s = (.ok (), t) →
    ∀ j, j ∈ l ∨ (s.slot j).alg = 0 → (t.slot j).alg = 0
  | [], s, t, h, j, hj => by
    rw [← (runV_pure_eq_ok.1 h).2]
    exact hj.resolve_left (fun h => nomatch h)
  | i :: r, s, t, h, j, hj => by
    obtain ⟨_, u, hu, h⟩ := runV_bind_eq_ok.1 h
    obtain ⟨hi, hne⟩ := sweepOne_empties hu
    refine sweeps_empty h j ?_
    by_cases hji : j = i
    · exact .inr (hji ▸ hi)
    · rw [hne j hji]
      exact hj.imp_left fun hm => (List.mem_cons.1 hm).resolve_left hji

theorem exec_sweepDone {p : Fn} {w : Sweep} (h : s.kr.sweeps.find? (fun w => w.part == p.val) = some w) :
    exec (.sweepDone p) s = answer s (s.sweep w).after := by
  unfold exec
  dsimp only
  unfold execSweepDone
  rw [h]

theorem sweep_ends {w : Sweep} {t : State} (h : runV (sweepWork w) s = (.ok (), t)) : s.sweep w = t.sweepEnds w := by
  unfold State.sweep
  rw [h]

theorem keeps_sweepHeld (d : Nat) (h : s.vault.pgFault = false) : s.keeps (s.sweepHeld d) [.disp] := by
  unfold State.sweepHeld
  split
  · rw [h, if_neg Bool.false_ne_true]
    exact keeps_disp s _ (by decide)
  · exact .refl s _

theorem keeps_sweepEnds (w : Sweep) (h : s.vault.pgFault = false) :
    (s.dropSweep w).keeps (s.sweepEnds w) [.disp] := by
  have hheld : (s.dropSweep w).keeps (w.desc.elim (s.dropSweep w) (s.dropSweep w).sweepHeld) [.disp] := by
    cases w.desc with
    | none => exact .refl _ _
    | some d => exact keeps_sweepHeld d h
  exact hheld.trans (.fold (f := State.unwait) (fun s d => keeps_unwait s d) _ _)

theorem sweepDone_empties {p : Fn} {w : Sweep} {t : State} (hw : s.kr.sweeps.find? (fun w => w.part == p.val) = some w)
    (hrun : runV (sweepWork w) s = (.ok (), t)) (hf : t.vault.pgFault = false) :
    ∃ x : State, exec (.sweepDone p) s = .next (s.settled x.after) ∧ t.keeps x [.kr, .disp]
      ∧ x.kr = { t.kr with sweeps := t.kr.sweeps.erase w }
      ∧ ∀ u, runV ((s.kr.toRestore.filter fun i =>
            decide ((s.part w.part).base ≤ i ∧ i < (s.part w.part).base + (s.part w.part).persist)).forM meet) s = (.ok (), u) →
          ∀ i ∈ u.sweepSlots w, (x.slot i).alg = 0 := by
  have hk := keeps_sweepEnds (s := t) w hf
  refine ⟨t.sweepEnds w, ?_, State.keeps.trans (t := t.dropSweep w) (keeps_kr t _ (by decide)) hk.widen, hk.kr_eq, fun u hu i hi => ?_⟩
  · rw [exec_sweepDone hw, sweep_ends hrun]
    rfl
  · unfold sweepWork at hrun
    rw [runV_bind_ok (runV_getV s)] at hrun
    dsimp only at hrun
    rw [runV_bind_ok hu, runV_bind_ok (runV_getV u)] at hrun
    have hx : (t.sweepEnds w).slot i = (t.dropSweep w).slot i := congrArg (fun k : KeyReg => mget k.slots i {}) hk.kr_eq
    rw [hx]
    exact sweeps_empty hrun i (.inl hi)

/-- Settles O30: `vaultStart_starts`, `keyregReady_readies`, `rebuild_begins`, `rebuild_ends` and `sweepDone_empties`. -/
theorem storageStarts : Obligations.StorageStarts := by
  refine ⟨vaultStart_starts, fun s => ⟨keyregReady_readies, keyregReady_ignored, fun h1 h2 h3 h4 h5 h6 h7 h8 h9 => ?_,
    fun h1 h3 h4 h7 ha h8 => ?_, fun p w t => sweepDone_empties⟩⟩
  · refine ⟨s.rebuild, exec_keyregRebuild s, ?_⟩
    rw [rebuild_begins h1 h2 h3 h4 h5 h6 h7 h8 h9]
    exact ⟨.of_eq (fun _ => rfl) (fun _ => rfl) (fun h => absurd (by decide) h) (fun h => absurd (by decide) h) (fun _ => rfl) (fun _ => rfl)
      (fun _ => rfl) (fun _ => rfl) (fun _ => rfl) (fun _ => rfl) (fun _ => rfl) (fun _ => rfl), rfl, rfl⟩
  · exact ⟨s.rebuild, exec_keyregRebuild s, rebuild_ends h1 h3 h4 h7 ha h8⟩

end Sys2Proof.Machine
end

section
/-! Commits: their start and the write of their root (06 R168, R174 to R177). -/

namespace Sys2Proof.Machine

variable {s : State}

/-! ### The start (06 R175, R176) -/

theorem snapLevel_objs (seq l : Nat) (x : Snap) : ∀ o ∈ x.objs, o ∈ (s.snapLevel seq l x).objs := by
  have hfold : ∀ (f : Snap → Nat → Snap), (∀ y n, ∀ o ∈ y.objs, o ∈ (f y n).objs) → ∀ (ns : List Nat) (y : Snap), ∀ o ∈ y.objs, o ∈ (ns.foldl f y).objs := by
    intro f hf ns
    induction ns with
    | nil => exact fun y o ho => ho
    | cons n r ih => exact fun y o ho => ih _ o (hf y n o ho)
  exact hfold _ (fun y n o ho => List.mem_append_left _ ho) _ { x with kids := [] }

/-- A snapshot names every dirty page, with its next entry. -/
theorem snapshot_objs (seq : Nat) : ∀ n ∈ s.dirtyPages, (0, n, nextEntry seq ((s.entryOf 6 0 n).getD 0)) ∈ (s.snapshot seq).objs := by
  intro n hn
  have h0 : (0, n, nextEntry seq ((s.entryOf 6 0 n).getD 0))
      ∈ (s.dirtyPages.map fun n => (n, nextEntry seq ((s.entryOf 6 0 n).getD 0))).map fun c => (0, c.1, c.2) :=
    List.mem_map_of_mem (List.mem_map_of_mem hn)
  unfold State.snapshot
  dsimp only [List.foldl]
  exact snapLevel_objs _ _ _ _ (snapLevel_objs _ _ _ _ (snapLevel_objs _ _ _ _ (snapLevel_objs _ _ _ _ (snapLevel_objs _ _ _ _ h0))))

/-- The state behind the reserve entry, where the sequence has passed the reserve. -/
def State.withReserve (s : State) : State := if s.vault.reserve < s.vault.lastSeq + 1 then s.writeRoot (s.vault.lastSeq + 1) s.vault.rootEntry else s

/-- The commit that starts in state s with sequence seq. -/
def State.commitAt (s : State) (seq : Nat) : Commit :=
  { seq := seq, objs := (s.snapshot seq).objs
    root := (((s.snapshot seq).objs.find? fun o => o.1 == 5).map (·.2.2)).getD s.vault.rootEntry
    reserves := s.snapReserves, todo := (s.snapshot seq).sealedObjs, serials := [], waiters := s.durables.map (·.1)
    snaps := s.dirtyPages.map fun n => (n, s.page n) }

/-- The state in which a commit of sequence seq runs. -/
def State.committing (s : State) (seq : Nat) : State := s.setVault { s.vault with lastSeq := seq, commit := some (s.commitAt seq) }

theorem startCommit_eq (h1 : s.vault.ready = true) (h2 : s.vault.pgEnabled = true) (h3 : s.vault.pgFault = false) (h4 : s.vault.commit = none) :
    s.startCommit = (s.withReserve.committing (if s.vault.reserve < s.vault.lastSeq + 1 then s.vault.lastSeq + 2 else s.vault.lastSeq + 1)).page! := by
  unfold State.startCommit State.withReserve
  dsimp only
  rw [h1, h2, h3, h4, if_neg (by decide)]
  split <;> rfl

theorem exec_commitStart (s : State) :
    exec .commitStart s = answer s (if s.dirtyPages.isEmpty && s.durables.isEmpty then s else s.startCommit.after) := rfl

theorem keeps_withReserve : s.keeps s.withReserve [.vault] := .ite (keeps_vault s _ (by decide)) (.refl s _)

theorem withReserve_stands : s.withReserve.vault.pages = s.vault.pages ∧ s.withReserve.vault.nodes = s.vault.nodes
    ∧ s.withReserve.vault.rootEntry = s.vault.rootEntry ∧ s.withReserve.disp = s.disp := by
  unfold State.withReserve
  split <;> exact ⟨rfl, rfl, rfl, rfl⟩

theorem commitStart_starts (s : State) (hd : s.dirtyPages ≠ [] ∨ s.durables ≠ []) (h1 : s.vault.ready = true) (h2 : s.vault.pgEnabled = true)
    (h3 : s.vault.pgFault = false) (h4 : s.vault.commit = none) :
    let v := s.vault
    ∃ (x : State) (c : Commit), exec .commitStart s = .next (s.settled x.page!.after) ∧ s.keeps x [.vault] ∧ x.vault.commit = some c
      ∧ c.waiters = s.durables.map (·.1) ∧ c.serials = [] ∧ x.vault.lastSeq = c.seq
      ∧ (∀ n ∈ s.dirtyPages, (0, n, nextEntry c.seq ((s.entryOf 6 0 n).getD 0)) ∈ c.objs ∧ (n, s.page n) ∈ c.snaps)
      ∧ (∀ n, x.page n = s.page n)
      ∧ (v.lastSeq < v.reserve → c.seq = v.lastSeq + 1 ∧ x.vault.rootSlots = v.rootSlots ∧ x.vault.reserve = v.reserve)
      ∧ (v.reserve ≤ v.lastSeq → c.seq = v.lastSeq + 2 ∧ x.vault.reserve = v.lastSeq + 17 ∧ x.vault.active = some ((v.lastSeq + 1) % 64)
          ∧ x.vault.rootSlots = mset v.rootSlots ((v.lastSeq + 1) % 64) (rootEntryOf (v.lastSeq + 1) v.rootEntry s.keyCheck)) := by
  intro v
  obtain ⟨hpages, hnodes, hroot, hdisp⟩ := withReserve_stands (s := s)
  have hpage : ∀ n, s.withReserve.page n = s.page n := fun n => by rw [State.page, hpages]; rfl
  have hdirty : s.withReserve.dirtyPages = s.dirtyPages := by rw [State.dirtyPages, hpages]; rfl
  have hwait : s.withReserve.durables = s.durables := by rw [State.durables, hdisp]; rfl
  have hent : ∀ n, s.withReserve.entryOf 6 0 n = s.entryOf 6 0 n := entryOf_of_vault hpages hnodes hroot 6 0
  have hdue : (s.dirtyPages.isEmpty && s.durables.isEmpty) = false := by
    rw [Bool.and_eq_false_iff]
    exact hd.imp (fun h => Bool.eq_false_iff.2 fun he => h (List.isEmpty_iff.1 he)) (fun h => Bool.eq_false_iff.2 fun he => h (List.isEmpty_iff.1 he))
  obtain ⟨seq, hseq⟩ : ∃ n, n = if s.vault.reserve < s.vault.lastSeq + 1 then s.vault.lastSeq + 2 else s.vault.lastSeq + 1 := ⟨_, rfl⟩
  have hexec : exec .commitStart s = answer s (s.withReserve.committing seq).page!.after := by
    rw [exec_commitStart, hdue, if_neg Bool.false_ne_true, startCommit_eq h1 h2 h3 h4, ← hseq]
  refine ⟨s.withReserve.committing seq, s.withReserve.commitAt seq, ?_, keeps_withReserve.trans (keeps_vault _ _ (by decide)), ?_,
    ?_, ?_, ?_, fun n hn => ⟨?_, ?_⟩, ?_, fun hr => ?_, fun hr => ?_⟩
  · exact hexec
  · rfl
  · exact congrArg (List.map _) hwait
  · rfl
  · rfl
  · rw [← hent]
    dsimp only [State.commitAt]
    exact snapshot_objs (s := s.withReserve) seq n (hdirty.symm ▸ hn)
  · rw [← hpage]
    exact List.mem_map_of_mem (f := fun n => (n, s.withReserve.page n)) (hdirty.symm ▸ hn)
  · exact hpage
  · have hno : ¬ s.vault.reserve < s.vault.lastSeq + 1 := Nat.not_lt.2 hr
    have hres : s.withReserve = s := if_neg hno
    exact ⟨hseq.trans (if_neg hno), (congrArg (fun t : State => t.vault.rootSlots) hres :), (congrArg (fun t : State => t.vault.reserve) hres :)⟩
  · have hres : s.withReserve = s.writeRoot (s.vault.lastSeq + 1) s.vault.rootEntry := if_pos (Nat.lt_succ_of_le hr)
    exact ⟨hseq.trans (if_pos (Nat.lt_succ_of_le hr)), (congrArg (fun t : State => t.vault.reserve) hres :), (congrArg (fun t : State => t.vault.active) hres :),
      (congrArg (fun t : State => t.vault.rootSlots) hres :)⟩

/-! ### The root's write (06 R176, R177) -/

/-- What a commit's end leaves of the vault behind its entries: the root store, no commit, and the pages. -/
structure State.rooted (s t : State) : Prop where
  keeps : s.keeps t [.vault]
  rootSlots : t.vault.rootSlots = s.vault.rootSlots
  active : t.vault.active = s.vault.active
  reserve : t.vault.reserve = s.vault.reserve
  commit : t.vault.commit = s.vault.commit
  pages : t.vault.pages = s.vault.pages

theorem State.rooted.refl (s : State) : s.rooted s := ⟨.refl s _, rfl, rfl, rfl, rfl, rfl⟩

theorem State.rooted.trans {s t u : State} (h : s.rooted t) (k : t.rooted u) : s.rooted u :=
  ⟨h.keeps.trans k.keeps, k.rootSlots.trans h.rootSlots, k.active.trans h.active, k.reserve.trans h.reserve, k.commit.trans h.commit,
    k.pages.trans h.pages⟩

theorem rooted_evict {o : Nat × Nat} (h : o.1 ≠ 0) : s.rooted (s.evict o) :=
  ⟨keeps_vault s _ (by decide), rfl, rfl, rfl, rfl, if_neg h⟩

/-- Room for a node is made among nodes. -/
theorem rooted_makeRoom (l n : Nat) : s.rooted (s.makeRoom (l + 1) n) := by
  unfold State.makeRoom
  dsimp only
  split
  · exact .refl s
  · split
    · exact .refl s
    · rename_i o ho
      have hm := (List.mem_filter.1 (List.mem_of_getLast? ho)).1
      have hnode := (List.mem_filter.1 hm).2
      refine rooted_evict fun h0 => ?_
      rw [h0] at hnode
      cases hnode

theorem rooted_touch (l n : Nat) : s.rooted (s.touch l n) := by
  unfold State.touch
  split
  · exact ⟨keeps_vault s _ (by decide), rfl, rfl, rfl, rfl, rfl⟩
  · exact .refl s

theorem rooted_installEntry (o : Nat × Nat × Word64) : s.rooted (s.installEntry o) := by
  have hnode : ∀ (t : State) (m : Map (Map Word64)), t.rooted (t.setVault { t.vault with nodes := m }) := fun t m =>
    ⟨keeps_vault t _ (by decide), rfl, rfl, rfl, rfl, rfl⟩
  unfold State.installEntry
  dsimp only
  split
  · exact ⟨keeps_vault s _ (by decide), rfl, rfl, rfl, rfl, rfl⟩
  · refine State.rooted.trans ?_ ((hnode _ _).trans (rooted_touch _ _))
    split
    · exact rooted_makeRoom ..
    · exact .refl s

theorem rooted_installs (l : List (Nat × Nat × Word64)) : ∀ s : State, s.rooted (l.foldl State.installEntry s) := by
  induction l with
  | nil => exact .refl
  | cons o r ih => exact fun s => (rooted_installEntry o).trans (ih _)

/-- The mark of a page goes that is as the snapshot took it. -/
def State.cleanOne (s : State) (x : Nat × VPage) : State := if s.page x.1 = x.2 then s.setPage x.1 { x.2 with dirty := false } else s

def State.cleaned (s : State) (l : List (Nat × VPage)) : State := l.foldl State.cleanOne s

theorem cleanOne_stands (x : Nat × VPage) :
    s.keeps (s.cleanOne x) [.vault] ∧ (s.cleanOne x).vault = { s.vault with pages := (s.cleanOne x).vault.pages } := by
  unfold State.cleanOne
  split
  · exact ⟨keeps_vault s _ (by decide), rfl⟩
  · exact ⟨.refl s _, rfl⟩

theorem cleaned_stands (l : List (Nat × VPage)) : ∀ s : State,
    s.keeps (s.cleaned l) [.vault] ∧ (s.cleaned l).vault = { s.vault with pages := (s.cleaned l).vault.pages } := by
  induction l with
  | nil => exact fun s => ⟨.refl s _, rfl⟩
  | cons x r ih =>
    intro s
    obtain ⟨hk, hv⟩ := cleanOne_stands (s := s) x
    obtain ⟨hk', hv'⟩ := ih (s.cleanOne x)
    refine ⟨hk.trans hk', hv'.trans ?_⟩
    rw [hv]
    rfl

/-- A page that is clean stays so. -/
theorem cleanOne_clean (n : Nat) (x : Nat × VPage) (h : (s.page n).dirty = false) : ((s.cleanOne x).page n).dirty = false := by
  unfold State.cleanOne
  split
  · by_cases hx : n = x.1
    · rw [hx, State.page_setPage]
    · rwa [State.page_setPage_ne _ _ hx]
  · exact h

theorem cleaned_clean (n : Nat) (l : List (Nat × VPage)) : ∀ s : State, (s.page n).dirty = false → ((s.cleaned l).page n).dirty = false := by
  induction l with
  | nil => exact fun s h => h
  | cons x r ih => exact fun s h => ih _ (cleanOne_clean n x h)

/-- A page that is as the snapshot took it is clean afterwards. -/
theorem cleaned_snap {o : Nat × VPage} : ∀ {l : List (Nat × VPage)}, o ∈ l → ∀ s : State, s.page o.1 = o.2 → ((s.cleaned l).page o.1).dirty = false
  | x :: r, ho, s, h => by
    show (((s.cleanOne x).cleaned r).page o.1).dirty = false
    by_cases hx : o.1 = x.1
    · by_cases hp : s.page x.1 = x.2
      · refine cleaned_clean _ _ _ ?_
        rw [State.cleanOne, if_pos hp, hx, State.page_setPage]
      · have ho' : o ∈ r := (List.mem_cons.1 ho).resolve_left fun he => hp (he ▸ h)
        exact cleaned_snap ho' _ (by rwa [State.cleanOne, if_neg hp])
    · have ho' : o ∈ r := (List.mem_cons.1 ho).resolve_left fun he => hx (congrArg Prod.fst he)
      refine cleaned_snap ho' _ ?_
      unfold State.cleanOne
      split
      · rwa [State.page_setPage_ne _ _ hx]
      · exact h

/-- The state in which the commit's root stands. -/
def State.rootWritten (s : State) (c : Commit) : State :=
  (s.writeRoot c.seq c.root).setVault { (s.writeRoot c.seq c.root).vault with rootEntry := c.root, commit := none }

/-- The state behind the commit's entries and pages. -/
def State.installed (s : State) (c : Commit) : State := ((c.objs.foldl State.installEntry (s.rootWritten c)).cleaned c.snaps)

/-- What waited on the commit completes or goes on. -/
def State.released (s : State) (c : Commit) : State :=
  let s := { s with kr := { s.kr with reserves := c.reserves.foldl (fun (m : Map Nat) (r : Nat × Nat) => mset m r.1 r.2) s.kr.reserves } }
  let s := s.durables.foldl (fun (s : State) (w : Nat × Result) => if c.waiters.contains w.1 then s.deliver w.1 w.2 else s) s
  (s.nonceWaiters.foldl State.unwait s).roomMade

theorem endCommit_eq (c : Commit) : s.endCommit c = ((s.installed c).released c).page! := rfl

theorem released_vault (c : Commit) : (s.released c).vault = s.vault := by
  unfold State.released
  dsimp only
  refine (roomMade_keeps _).vault_eq.trans ?_
  refine (State.keeps.fold (l := [.disp]) (f := State.unwait) (fun s d => keeps_unwait s d) _ _).vault_eq.trans ?_
  exact (State.drains.fold (f := fun (s : State) (w : Nat × Result) => if c.waiters.contains w.1 then s.deliver w.1 w.2 else s)
    (fun s w => .ite (drains_deliver s w.1 w.2) (.refl s)) _ _).keeps.vault_eq

theorem exec_commitRootWrite {c : Commit} (ok : Bool) (hc : s.vault.commit = some c) (ha : c.acknowledged = true) :
    exec (.commitRootWrite ok) s
      = answer s (if ok then (s.endCommit c).vaultGoes.after else ((s.tornRoot c).abandonCommit).page!.after) := by
  unfold exec
  dsimp only
  unfold execCommitRootWrite
  rw [hc]
  dsimp only
  rw [ha, if_neg (by decide)]

theorem commitRootWrite_ends {c : Commit} (hc : s.vault.commit = some c) (ha : c.acknowledged = true) :
    ∃ x : State, exec (.commitRootWrite true) s = .next (s.settled x.page!.vaultGoes.after) ∧ x.vault.commit = none
      ∧ x.vault.active = some (c.seq % 64) ∧ x.vault.reserve = c.seq + 16
      ∧ x.vault.rootSlots = mset s.vault.rootSlots (c.seq % 64) (rootEntryOf c.seq c.root s.keyCheck)
      ∧ ∀ o ∈ c.snaps, s.page o.1 = o.2 → (x.page o.1).dirty = false := by
  have hroot := rooted_installs c.objs (s.rootWritten c)
  obtain ⟨-, hclean⟩ := cleaned_stands c.snaps (c.objs.foldl State.installEntry (s.rootWritten c))
  have hv : ((s.installed c).released c).vault = (s.installed c).vault := released_vault c
  refine ⟨(s.installed c).released c, ?_, ?_, ?_, ?_, ?_, fun o ho hp => ?_⟩
  · rw [exec_commitRootWrite true hc ha, if_pos rfl, endCommit_eq]
    rfl
  · rw [hv]
    exact (congrArg Vault.commit hclean).trans hroot.commit
  · rw [hv]
    exact (congrArg Vault.active hclean).trans hroot.active
  · rw [hv]
    exact (congrArg Vault.reserve hclean).trans hroot.reserve
  · rw [hv]
    exact (congrArg Vault.rootSlots hclean).trans hroot.rootSlots
  · have hpage : (c.objs.foldl State.installEntry (s.rootWritten c)).page o.1 = s.page o.1 := by
      unfold State.page
      rw [hroot.pages]
      rfl
    unfold State.page
    rw [hv]
    exact cleaned_snap ho _ (hpage.trans hp)

theorem commitRootWrite_torn {c : Commit} (hc : s.vault.commit = some c) (ha : c.acknowledged = true) :
    ∃ x : State, exec (.commitRootWrite false) s = .next (s.settled x.page!.after) ∧ s.keeps x [.vault, .disp] ∧ x.vault.commit = none
      ∧ x.vault.active = s.vault.active ∧ x.vault.rootEntry = s.vault.rootEntry
      ∧ (∃ z, x.vault.rootSlots = mset s.vault.rootSlots (c.seq % 64) z ∧ RootSlot.whole z = false)
      ∧ ∀ n, x.page n = s.page n := by
  have hv := abandonCommit_vault (s.tornRoot c)
  have ht : s.keeps (s.tornRoot c) [.vault, .disp] := keeps_vault s _ (by decide)
  refine ⟨(s.tornRoot c).abandonCommit, ?_, ht.trans (abandonCommit_keeps _), (congrArg Vault.commit hv :), (congrArg Vault.active hv :),
    (congrArg Vault.rootEntry hv :), ⟨{ seq := c.seq, reserve := 0, rootEntry := 0, keyCheck := [], magic := 0 }, (congrArg Vault.rootSlots hv :), ?_⟩, fun n => ?_⟩
  · rw [exec_commitRootWrite false hc ha, if_neg Bool.false_ne_true]
    rfl
  · exact Bool.and_eq_false_imp.2 fun h => nomatch h
  · unfold State.page
    rw [hv]
    rfl

/-- Without an acknowledged commit nothing is written. -/
theorem commitRootWrite_ignored (h : ∀ c, s.vault.commit = some c → c.acknowledged = false) (ok : Bool) :
    exec (.commitRootWrite ok) s = answer s s := by
  unfold exec
  dsimp only
  unfold execCommitRootWrite
  cases hc : s.vault.commit with
  | none => rfl
  | some c =>
    dsimp only
    rw [h c hc]
    rfl

/-- Settles O31: `commitStart_starts`, `commitRootWrite_ends` and `commitRootWrite_torn`. -/
theorem commitsRun : Obligations.CommitsRun := by
  refine ⟨commitStart_starts, fun s hd hw => ?_, fun s c hc ha => ⟨commitRootWrite_ends hc ha, commitRootWrite_torn hc ha⟩,
    fun s h ok => ⟨s.settled s, commitRootWrite_ignored h ok, s.sameBut_settled⟩⟩
  have hdue : (s.dirtyPages.isEmpty && s.durables.isEmpty) = true := by rw [hd, hw]; rfl
  exact ⟨s.settled s, (exec_commitStart s).trans (congrArg (answer s) (if_pos hdue)), s.sameBut_settled⟩

end Sys2Proof.Machine
end

section
/-! The support verbs (04 R120, R121). -/

namespace Sys2Proof.Machine

variable {o : Opnd} {s t u : State}

/-- A check of work: it answers nothing, or refuses. -/
theorem runV_need_answers {c : Bool} {st : Word16} :
    (c = true → runV (do need c st; pure {} : V Answer) s = (.ok {}, s))
    ∧ (c = false → runV (do need c st; pure {} : V Answer) s = (.error (.fail st []), s)) := by
  refine ⟨fun h => ?_, fun h => ?_⟩
  · rw [h, runV_bind_ok (runV_need true ..), runV_pure]
  · rw [h, runV_bind_error (runV_need false ..)]

theorem runV_putRecV {pg i : Nat} {b : Bytes} (h : runV (dirtyRoom pg) s = (.ok (), u)) : runV (putRecV pg i b) s = (.ok (), u.putRec pg i b) := by
  rw [putRecV, runV_bind_ok h, runV_modV]

theorem runSupportCompare_compares (h : s.engineServes o) :
    (o.inp.take o.auxLen = o.inp.drop o.auxLen → runV (runSupportCompare o) s = (.ok {}, s.worked o))
    ∧ (o.inp.take o.auxLen ≠ o.inp.drop o.auxLen → runV (runSupportCompare o) s = (.error (.fail 0x0301 []), s.worked o)) := by
  rw [runSupportCompare, runV_bind_ok (runV_engine_worked h _)]
  exact ⟨fun he => runV_need_answers.1 (beq_iff_eq.2 he), fun hne => runV_need_answers.2 (beq_eq_false_iff_ne.2 hne)⟩

/-- A digest of no key takes the whole input. -/
theorem runSupportDigest_unkeyed (h : s.engineServes o) (hk : dgKeyed o = false) (hv : dgVerify o = false) (hd : o.decl = none) :
    runV (runSupportDigest o) s = (.ok { out := Config.take (dgLen o) (Config.digest (dgAlgo o) o.inp) }, s.worked o) := by
  have hm : o.inp.take (dgMsg o) = o.inp := by
    rw [dgMsg, hv, if_neg Bool.false_ne_true]
    exact List.take_length
  unfold runSupportDigest
  rw [hk, hv, hd, hm, if_neg Bool.false_ne_true, runV_bind_ok (runV_pure none s), runV_bind_ok (runV_engine_worked h _),
    runV_bind_ok (runV_modV _ _), if_neg (Nat.lt_irrefl _), if_neg Bool.false_ne_true, runV_pure]
  rfl

theorem runSupportVerify_verifies (h : s.engineServes o) :
    let np := pubLen (sgScheme o) (sgUnits o)
    let ns := sigLen (sgScheme o) (sgUnits o)
    let rest := o.inp.drop (np + ns)
    let good := verifySig (sgScheme o) (o.inp.take np) (rest.take o.auxLen) (rest.drop o.auxLen) (slice o.inp np ns)
    (good = true → runV (runSupportVerify o) s = (.ok {}, s.worked o))
    ∧ (good = false → runV (runSupportVerify o) s = (.error (.fail 0x0301 []), s.worked o)) := by
  rw [runSupportVerify, runV_bind_ok (runV_engine_worked h _)]
  exact runV_need_answers

/-- A counter goes up by its step, or is at its limit. -/
theorem runCounterInc_counts {pg i : Nat} {b : Bytes} (hn : recNum o ≠ 0) (h : runV (namedRec o.p (recNum o) 0x0A) s = (.ok (pg, i, b), t)) :
    let v := leAt b 8 8 + o.param
    (2 ^ 64 ≤ v → runV (runCounterInc o) s = (.error (.fail 0x0103 []), t))
    ∧ ∀ u, v < 2 ^ 64 → runV (dirtyRoom pg) t = (.ok (), u) →
        runV (runCounterInc o) s = (.ok { inl := toLE 8 v, durable := true }, u.putRec pg i (putAt b 8 (toLE 8 v))) := by
  intro v
  rw [runCounterInc, if_neg hn, runV_bind_ok h]
  refine ⟨fun hv => ?_, fun u hv hu => ?_⟩
  · exact runV_bind_error (by rw [runV_need, if_neg (by simpa using hv)]; rfl)
  · rw [runV_bind_ok (by rw [runV_need, if_pos (decide_eq_true hv)] : runV (need _ _) t = (.ok (), t)), runV_bind_ok (runV_putRecV hu), runV_pure]

/-- Settles O60: each verb's run, by its engine's work and its record. -/
theorem supportAnswers : Obligations.SupportAnswers := by
  intro o s
  refine ⟨fun hs => ⟨(runSupportCompare_compares hs).1, (runSupportCompare_compares hs).2, runSupportDigest_unkeyed hs, runSupportVerify_verifies hs⟩,
    fun b t hb => ?_, fun pg i b t hr => ⟨?_, fun u hdel hn hu => ?_⟩, fun n t hdel hn hr => ?_, fun pg i b t => runCounterInc_counts, ?_, ?_, rfl⟩
  · rw [runSupportRandom, runV_bind_ok hb, runV_pure]
  · rw [runVaultGet, runV_bind_ok hr, runV_pure]
  · rw [runVaultPut, hdel, if_neg Bool.false_ne_true, if_neg hn, runV_bind_ok hr, runV_bind_ok (runV_putRecV hu), runV_pure]
  · rw [runVaultPut, hdel, if_neg Bool.false_ne_true, if_pos hn, runV_bind_ok hr, runV_pure]
  · rw [runTimeRead, runV_bind_ok (runV_getV s), runV_pure]
  · rw [runFreqReport, runV_bind_ok (runV_getV s), runV_pure]

end Sys2Proof.Machine
end

section
/-! The transaction counter of a DUKPT terminal (04 R103, Table 4.6), and the verbs under the accepted key (R105). -/

namespace Sys2Proof.Machine

/-! ### Fields of a record -/

theorem leNat_toLE (n v : Nat) : leNat (toLE n v) = v % 256 ^ n := by
  induction n generalizing v with
  | zero => exact (Nat.mod_one v).symm
  | succ n ih =>
    unfold toLE leNat
    rw [ih]
    exact ((congrArg (v % ·) Nat.pow_succ').trans Nat.mod_mul).symm

theorem putAt_length {b v : Bytes} {off : Nat} (h : off + v.length ≤ b.length) : (putAt b off v).length = b.length := by
  unfold putAt
  simp only [List.length_append, List.length_take, List.length_drop]
  omega

/-- Bytes before and behind a field that is written stand. -/
theorem getElem?_putAt {b v : Bytes} {off i : Nat} (h : off + v.length ≤ b.length) (hi : i < off ∨ off + v.length ≤ i) :
    (putAt b off v)[i]? = b[i]? := by
  unfold putAt
  rw [List.append_assoc, List.getElem?_append, List.getElem?_append, List.length_take, Nat.min_eq_left (by omega)]
  rcases hi with hi | hi
  · rw [if_pos hi, List.getElem?_take_of_lt hi]
  · rw [if_neg (by omega), if_neg (by omega), List.getElem?_drop]
    congr 1
    omega

theorem byteAt_putAt {b v : Bytes} {off i : Nat} (h : off + v.length ≤ b.length) (hi : i < off ∨ off + v.length ≤ i) :
    byteAt (putAt b off v) i = byteAt b i := by
  unfold byteAt
  rw [List.getD_eq_getElem?_getD, List.getD_eq_getElem?_getD, getElem?_putAt h hi]

/-- A field that is written reads what was written. -/
theorem leAt_putAt {b : Bytes} {off n v : Nat} (h : off + n ≤ b.length) : leAt (putAt b off (toLE n v)) off n = v % 256 ^ n := by
  have hlen : (b.take off).length = off := by
    rw [List.length_take]
    omega
  unfold leAt slice putAt
  rw [List.append_assoc, List.drop_append_of_le_length (by omega), List.drop_of_length_le (by omega), List.nil_append,
    List.take_append_of_le_length (by rw [toLE_length]), List.take_of_length_le (by rw [toLE_length]), leNat_toLE]

/-- A field away from the one that is written stands. -/
theorem leAt_putAt_away {b v : Bytes} {off a n : Nat} (h : off + v.length ≤ b.length) (ha : a + n ≤ off ∨ off + v.length ≤ a) :
    leAt (putAt b off v) a n = leAt b a n := by
  unfold leAt slice
  congr 1
  refine List.ext_getElem? fun i => ?_
  by_cases hi : i < n
  · rw [List.getElem?_take_of_lt hi, List.getElem?_take_of_lt hi, List.getElem?_drop, List.getElem?_drop, getElem?_putAt h (by omega)]
  · rw [List.getElem?_take_eq_none (by omega), List.getElem?_take_eq_none (by omega)]

theorem bit_eq_testBit (v i : Nat) : bit v i = v.testBit i := by
  unfold bit
  rw [Nat.testBit_eq_decide_div_mod_eq]
  rfl

/-! ### The counter accepted (04 Table 4.6) -/

/-- The record with its highest counter, and with its seen bits. -/
def withHighest (b : Bytes) (c : Nat) : Bytes := putAt b 0x10 (toLE 4 c)

def withSeen (b : Bytes) (v : Nat) : Bytes := putAt b 0x18 (toLE 8 v)

/-- The seen bits behind a counter that is above the highest. -/
def seenAbove (b : Bytes) (c : Nat) : Nat := (if 64 ≤ c - trHighest b then 0 else trSeen b * 2 ^ (c - trHighest b) % 2 ^ 64) ||| 1

section
variable {b : Bytes} (hb : b.length = 128)
include hb

theorem withHighest_length (c : Nat) : (withHighest b c).length = 128 := (putAt_length (by rw [toLE_length]; omega)).trans hb

theorem withSeen_length (v : Nat) : (withSeen b v).length = 128 := (putAt_length (by rw [toLE_length]; omega)).trans hb

theorem trHighest_withHighest {c : Nat} (hc : c < 2 ^ 32) : trHighest (withHighest b c) = c :=
  (leAt_putAt (by omega)).trans (Nat.mod_eq_of_lt (by omega))

theorem trSeen_withSeen {v : Nat} (hv : v < 2 ^ 64) : trSeen (withSeen b v) = v := (leAt_putAt (by omega)).trans (Nat.mod_eq_of_lt (by omega))

theorem leAt_withHighest {c a n : Nat} (ha : a + n ≤ 0x10 ∨ 0x14 ≤ a) : leAt (withHighest b c) a n = leAt b a n :=
  leAt_putAt_away (by rw [toLE_length]; omega) (by rw [toLE_length]; omega)

theorem leAt_withSeen {v a n : Nat} (ha : a + n ≤ 0x18 ∨ 0x20 ≤ a) : leAt (withSeen b v) a n = leAt b a n :=
  leAt_putAt_away (by rw [toLE_length]; omega) (by rw [toLE_length]; omega)

theorem trPolicy_withHighest (c : Nat) : trPolicy (withHighest b c) = trPolicy b := congrArg (· % 4) (leAt_withHighest hb (.inl (by omega)))

theorem trPolicy_withSeen (v : Nat) : trPolicy (withSeen b v) = trPolicy b := congrArg (· % 4) (leAt_withSeen hb (.inl (by omega)))

theorem trSeen_withHighest (c : Nat) : trSeen (withHighest b c) = trSeen b := leAt_withHighest hb (.inr (by omega))

theorem trHighest_withSeen (v : Nat) : trHighest (withSeen b v) = trHighest b := leAt_withSeen hb (.inl (by omega))

theorem byteAt_withHighest {c i : Nat} (hi : ¬(0x10 ≤ i ∧ i < 0x14)) : byteAt (withHighest b c) i = byteAt b i :=
  byteAt_putAt (by rw [toLE_length]; omega) (by rw [toLE_length]; omega)

theorem byteAt_withSeen {v i : Nat} (hi : ¬(0x18 ≤ i ∧ i < 0x20)) : byteAt (withSeen b v) i = byteAt b i :=
  byteAt_putAt (by rw [toLE_length]; omega) (by rw [toLE_length]; omega)

end

theorem leNat_lt : ∀ b : Bytes, leNat b < 256 ^ b.length
  | [] => Nat.one_pos
  | x :: r => by
    have hx := x.isLt
    have hr := leNat_lt r
    unfold leNat
    rw [List.length_cons, Nat.pow_succ]
    omega

theorem trSeen_lt (b : Bytes) : trSeen b < 2 ^ 64 :=
  Nat.lt_of_lt_of_le (leNat_lt _) (Nat.pow_le_pow_right (by decide) (List.length_take_le 8 _) : _ ≤ 256 ^ 8)

/-- The three policies (04 Table 4.6). -/
theorem acceptCtr_advance {b : Bytes} {c : Nat} (h : trPolicy b = 0) : acceptCtr b c = if trHighest b < c then some (withHighest b c) else none := by
  unfold acceptCtr
  dsimp only
  rw [h]
  rfl

theorem acceptCtr_window {b : Bytes} {c : Nat} (h : trPolicy b = 1) :
    acceptCtr b c = if trHighest b < c then some (withSeen (withHighest b c) (seenAbove b c))
      else if 1 ≤ trHighest b - c ∧ trHighest b - c ≤ 63 ∧ bit (trSeen b) (trHighest b - c) = false
      then some (withSeen b (trSeen b ||| 2 ^ (trHighest b - c))) else none := by
  unfold acceptCtr
  dsimp only
  rw [h]
  simp only [Bool.not_eq_true']
  rfl

theorem acceptCtr_none {b : Bytes} {c : Nat} (h : 2 ≤ trPolicy b) : acceptCtr b c = some (if trHighest b < c then withHighest b c else b) := by
  unfold acceptCtr
  dsimp only
  split
  · omega
  · omega
  · rfl

/-- What the record of terminal b is behind counter c (04 R103). -/
structure CtrAccepted (b b' : Bytes) (c : Nat) : Prop where
  highest : trHighest b' = max (trHighest b) c
  length : b'.length = 128
  rest : ∀ i, ¬(0x10 ≤ i ∧ i < 0x14) → ¬(0x18 ≤ i ∧ i < 0x20) → byteAt b' i = byteAt b i
  unseen : trPolicy b ≠ 1 → trSeen b' = trSeen b
  above : trPolicy b = 1 → trHighest b < c → bit (trSeen b') 0 = true
    ∧ ∀ k, 1 ≤ k → k < 64 → bit (trSeen b') k = (decide (c - trHighest b ≤ k) && bit (trSeen b) (k - (c - trHighest b)))
  below : trPolicy b = 1 → c < trHighest b → ∀ k < 64, bit (trSeen b') k = (decide (k = trHighest b - c) || bit (trSeen b) k)
  once : trPolicy b ≤ 1 → acceptCtr b' c = none

section
variable {b : Bytes} {c : Nat} (hb : b.length = 128) (hc : c < 2 ^ 32)
include hb hc

/-- Under ADVANCE, or NONE, a counter above the highest becomes the highest. -/
theorem accepted_highest (hp : trPolicy b ≠ 1) (h : trHighest b < c) : CtrAccepted b (withHighest b c) c where
  highest := (trHighest_withHighest hb hc).trans (Nat.max_eq_right (Nat.le_of_lt h)).symm
  length := withHighest_length hb c
  rest := fun i hi _ => byteAt_withHighest hb hi
  unseen := fun _ => trSeen_withHighest hb c
  above := fun h1 => absurd h1 hp
  below := fun h1 => absurd h1 hp
  once := fun h1 => by
    have h0 : trPolicy b = 0 := by omega
    rw [acceptCtr_advance ((trPolicy_withHighest hb c).trans h0), trHighest_withHighest hb hc, if_neg (Nat.lt_irrefl c)]

omit hc in
/-- Under NONE a counter at or below the highest leaves the record. -/
theorem accepted_same (hp : 2 ≤ trPolicy b) (h : ¬ trHighest b < c) : CtrAccepted b b c where
  highest := (Nat.max_eq_left (Nat.not_lt.1 h)).symm
  length := hb
  rest := fun _ _ _ => rfl
  unseen := fun _ => rfl
  above := fun h1 => by omega
  below := fun h1 => by omega
  once := fun h1 => by omega

omit hb hc in
theorem seenAbove_lt : seenAbove b c < 2 ^ 64 := by
  unfold seenAbove
  refine Nat.or_lt_two_pow ?_ (by decide)
  split
  · decide
  · exact Nat.mod_lt _ (by decide)

omit hb hc in
/-- The window moves up to the counter. -/
theorem bit_seenAbove {k : Nat} (h0 : 1 ≤ k) (hk : k < 64) :
    bit (seenAbove b c) k = (decide (c - trHighest b ≤ k) && bit (trSeen b) (k - (c - trHighest b))) := by
  have h1 : Nat.testBit 1 k = false := Bool.eq_false_iff.2 fun h => by
    have := Nat.testBit_one_eq_true_iff_self_eq_zero.1 h
    omega
  unfold seenAbove
  rw [bit_eq_testBit, bit_eq_testBit, Nat.testBit_or, h1, Bool.or_false]
  split
  · rw [Nat.zero_testBit, decide_eq_false (by omega), Bool.false_and]
  · rw [Nat.testBit_mod_two_pow, decide_eq_true hk, Bool.true_and, Nat.testBit_mul_two_pow]

/-- Under WINDOW a counter above the highest moves the window. -/
theorem accepted_above (hp : trPolicy b = 1) (h : trHighest b < c) : CtrAccepted b (withSeen (withHighest b c) (seenAbove b c)) c := by
  have hl := withHighest_length hb c
  have hh : trHighest (withSeen (withHighest b c) (seenAbove b c)) = c := (trHighest_withSeen hl _).trans (trHighest_withHighest hb hc)
  have hs : trSeen (withSeen (withHighest b c) (seenAbove b c)) = seenAbove b c := trSeen_withSeen hl seenAbove_lt
  refine ⟨hh.trans (Nat.max_eq_right (Nat.le_of_lt h)).symm, withSeen_length hl _,
    fun i h1 h2 => (byteAt_withSeen hl h2).trans (byteAt_withHighest hb h1), fun hne => absurd hp hne, fun _ _ => ⟨?_, fun k h1 hk => ?_⟩,
    fun _ hlt => absurd h (Nat.lt_asymm hlt), fun _ => ?_⟩
  · rw [hs, bit_eq_testBit, seenAbove, Nat.testBit_or]
    exact Bool.or_true _
  · rw [hs, bit_seenAbove h1 hk]
  · rw [acceptCtr_window ((trPolicy_withSeen hl _).trans ((trPolicy_withHighest hb c).trans hp)), hh, if_neg (Nat.lt_irrefl c), if_neg (by omega)]

omit hc in
/-- Under WINDOW a counter below the highest is marked seen. -/
theorem accepted_below (hp : trPolicy b = 1) (h1 : 1 ≤ trHighest b - c) (h63 : trHighest b - c ≤ 63) :
    CtrAccepted b (withSeen b (trSeen b ||| 2 ^ (trHighest b - c))) c := by
  have hlt : trSeen b ||| 2 ^ (trHighest b - c) < 2 ^ 64 := Nat.or_lt_two_pow (trSeen_lt b) (Nat.pow_lt_pow_right (by decide) (by omega))
  have hs := trSeen_withSeen hb hlt
  have hbit : ∀ k, bit (trSeen b ||| 2 ^ (trHighest b - c)) k = (decide (k = trHighest b - c) || bit (trSeen b) k) := fun k => by
    rw [bit_eq_testBit, bit_eq_testBit, Nat.testBit_or, Nat.testBit_two_pow, Bool.or_comm]
    congr 1
    exact decide_eq_decide.2 eq_comm
  refine ⟨(trHighest_withSeen hb _).trans (Nat.max_eq_left (by omega)).symm, withSeen_length hb _, fun i _ h2 => byteAt_withSeen hb h2,
    fun hne => absurd hp hne, fun _ h => by omega, fun _ _ k _ => by rw [hs, hbit], fun _ => ?_⟩
  rw [acceptCtr_window ((trPolicy_withSeen hb _).trans hp), trHighest_withSeen hb, hs, hbit, if_neg (by omega), if_neg fun h => ?_]
  obtain ⟨-, -, hf⟩ := h
  rw [decide_eq_true rfl, Bool.true_or] at hf
  cases hf

/-- Whatever the policy, a counter that is accepted leaves such a record. -/
theorem acceptCtr_accepts {b' : Bytes} (h : acceptCtr b c = some b') : CtrAccepted b b' c := by
  rcases Nat.lt_or_ge 1 (trPolicy b) with h2 | h2
  · rw [acceptCtr_none h2] at h
    cases h
    split
    · exact accepted_highest hb hc (by omega) ‹_›
    · exact accepted_same hb h2 ‹_›
  · rcases Nat.lt_or_ge 0 (trPolicy b) with h1 | h0
    · have hp : trPolicy b = 1 := Nat.le_antisymm h2 h1
      rw [acceptCtr_window hp] at h
      split_ifs at h with hlt hin <;> cases h
      · exact accepted_above hb hc hp hlt
      · exact accepted_below hb hp hin.1 hin.2.1
    · have hp : trPolicy b = 0 := Nat.le_zero.1 h0
      rw [acceptCtr_advance hp] at h
      split_ifs at h with hlt
      cases h
      exact accepted_highest hb hc (by omega) hlt

end

/-! ### The verbs under the accepted key (04 R105) -/

/-- Work that a check ends keeps its end, wherever its waits would go on from. -/
theorem runV_standing_fail {α : Type} {d : Nat} {m : V α} {s t : State} {st : Word16} {w : Bytes}
    (h : runV m s = (.error (.fail st w), t)) : runV (standing d m) s = (.error (.fail st w), t) := by
  unfold standing
  rw [runV_bind_ok (runV_getV s)]
  unfold runV at h ⊢
  simp only [tryCatch, tryCatchThe, MonadExceptOf.tryCatch, ExceptT.tryCatch, ExceptT.mk, ExceptT.run] at h ⊢
  rw [StateT.run_bind, h]
  rfl

section
variable {o : Opnd} {s a b c d t : State} {tm : Nat} {x : Slot} {usage variant mode : Nat} {work : Nat × Bytes → V Answer}
  (hp : runV (probe o o.keyA (dkReq o)) s = (.ok (), a)) (hr : runV (reserveDukpt o) a = (.ok (), b))
  (ht : runV (terminalOf o (dkTdes o) (bit o.opt 0)) b = (.ok tm, c)) (hc : runV (acceptCounter o (dkTdes o) tm) c = (.ok (), d))
  (hk : runV (workingKey o (dkTdes o) tm usage variant (if dkTdes o then 4 else dkWork o + 1) mode) d = (.ok x, t))
include hp hr ht hc hk

/-- A DUKPT verb's work is done under the working key it derives. -/
theorem runV_dkWorking_ok {u : State} {ans : Answer} (hw : runV (work (x.alg.toNat, x.key)) t = (.ok ans, u)) :
    runV (dkWorking o usage variant mode work) s = (.ok ans, u) := by
  rw [dkWorking, runV_bind_ok hp, runV_bind_ok hr, runV_bind_ok ht]
  refine runV_standing_ok ?_
  rw [runV_bind_ok hc]
  refine runV_standing_ok ?_
  rw [runV_bind_ok hk, hw]

theorem runV_dkWorking_fail {u : State} {st : Word16} (hw : runV (work (x.alg.toNat, x.key)) t = (.error (.fail st []), u)) :
    runV (dkWorking o usage variant mode work) s = (.error (.fail st []), u) := by
  rw [dkWorking, runV_bind_ok hp, runV_bind_ok hr, runV_bind_ok ht]
  refine runV_standing_fail ?_
  rw [runV_bind_ok hc]
  refine runV_standing_fail ?_
  rw [runV_bind_ok hk, hw]

end

/-- Work of an engine that serves puts out its text. -/
theorem runV_engine_puts {o : Opnd} {t : State} (h : t.engineServes o) (e : Bytes) (ans : Answer) :
    runV (do engine o e; pure ans : V Answer) t = (.ok ans, t.worked o) := by
  rw [runV_bind_ok (runV_engine_worked h e), runV_pure]

/-- Settles O59: `acceptCtr_accepts`, and each verb's run by its working key. -/
theorem countersAccepted : Obligations.CountersAccepted := by
  refine ⟨fun b c hb hc => ?_, fun o s a b c d t tm x hp hr ht hcnt hs => ?_⟩
  · intro h dist
    refine ⟨fun hp => ?_, fun hp => ?_, fun hp => ?_, fun b' hb' => ?_⟩
    · rw [acceptCtr_advance hp]
      split_ifs with h1
      · exact iff_of_true h1 rfl
      · exact iff_of_false h1 (fun hf => nomatch hf)
    · rw [acceptCtr_window hp]
      split_ifs with h1 h2
      · exact iff_of_true (.inl h1) rfl
      · exact iff_of_true (.inr h2) rfl
      · exact iff_of_false (fun hor => hor.elim h1 h2) (fun hf => nomatch hf)
    · rw [acceptCtr_none hp]
      rfl
    · obtain ⟨h1, h2, h3, h4, h5, h6, h7⟩ := acceptCtr_accepts hb hc hb'
      exact ⟨h1, h2, h3, h4, h5, h6, h7⟩
  · intro working mac n
    refine ⟨fun hk => runV_dkWorking_ok hp hr ht hcnt hk (runV_engine_puts hs _ _), fun hk => ⟨fun heq => ?_, fun hne => ?_⟩,
      fun hk => runV_dkWorking_ok hp hr ht hcnt hk (runV_engine_puts hs _ _), fun hk => runV_dkWorking_ok hp hr ht hcnt hk (runV_engine_puts hs _ _)⟩
    · refine runV_dkWorking_ok hp hr ht hcnt hk ?_
      rw [runV_bind_ok (runV_engine_worked hs _)]
      exact runV_need_answers.1 (beq_iff_eq.2 heq)
    · refine runV_dkWorking_fail hp hr ht hcnt hk ?_
      rw [runV_bind_ok (runV_engine_worked hs _)]
      exact runV_need_answers.2 (beq_eq_false_iff_ne.2 hne)

end Sys2Proof.Machine
end

section
/-! PIN blocks (04 R98, R99), and the PIN verbs from a zone key (R97, R100). -/

namespace Sys2Proof.Machine

/-! ### Fields built and opened -/

theorem nibbles_append (a b : Bytes) : nibbles (a ++ b) = nibbles a ++ nibbles b := List.flatMap_append

theorem nibbles_cons (x : Byte) (b : Bytes) : nibbles (x :: b) = x.toNat / 16 :: x.toNat % 16 :: nibbles b := rfl

/-- A field of whole bytes reads back nibble by nibble. -/
theorem nibbles_ofNibbles : ∀ {l : List Nat}, l.length % 2 = 0 → (∀ d ∈ l, d < 16) → nibbles (ofNibbles l) = l
  | [], _, _ => rfl
  | [_], h, _ => nomatch h
  | h :: l :: r, hlen, hlt => by
    have hh : h < 16 := hlt h List.mem_cons_self
    have hl : l < 16 := hlt l (List.mem_cons_of_mem _ List.mem_cons_self)
    have hr := nibbles_ofNibbles (l := r) (by rw [List.length_cons, List.length_cons] at hlen; omega)
      fun d hd => hlt d (List.mem_cons_of_mem _ (List.mem_cons_of_mem _ hd))
    rw [ofNibbles, nibbles_cons, hr, BitVec.toNat_ofNat]
    congr 1
    · omega
    · congr 1
      omega

theorem ofNibbles_length : ∀ l : List Nat, (ofNibbles l).length = l.length / 2
  | [] => rfl
  | [_] => by simp [ofNibbles]
  | h :: l :: r => by
    rw [ofNibbles, List.length_cons, ofNibbles_length r, List.length_cons, List.length_cons]
    omega

theorem nibbles_length : ∀ b : Bytes, (nibbles b).length = 2 * b.length
  | [] => rfl
  | x :: r => by
    rw [nibbles_cons, List.length_cons, List.length_cons, nibbles_length r, List.length_cons]
    omega

theorem nibbles_lt {b : Bytes} {d : Nat} (h : d ∈ nibbles b) : d < 16 := by
  obtain ⟨x, -, hx⟩ := List.mem_flatMap.1 h
  have := x.isLt
  simp only [List.mem_cons, List.not_mem_nil, or_false] at hx
  omega

/-- The fill digits behind the PIN of a format (04 R99). -/
def pinFill (fmt k : Nat) (rnd : Bytes) : List Nat :=
  if fmt = 0 then List.replicate k 15
  else if fmt = 4 then List.replicate k 10
  else if fmt = 3 then ((nibbles rnd).take k).map fun r => 10 + r % 6
  else (nibbles rnd).take k

/-- A fill digit that the check of a format takes (04 R98). -/
def fillOk (fmt d : Nat) : Bool := if fmt = 0 then d == 15 else if fmt = 3 then decide (10 ≤ d) else if fmt = 4 then d == 10 else true

theorem buildField_eq (fmt : Nat) (pin : List Nat) (rnd : Bytes) :
    buildField fmt pin rnd = ofNibbles (fmt :: pin.length :: (pin ++ pinFill fmt (14 - pin.length) rnd)) ++ if fmt = 4 then fit 8 rnd else [] := by
  have hk : 16 - (fmt :: pin.length :: pin).length = 14 - pin.length := by
    rw [List.length_cons, List.length_cons]
    omega
  unfold buildField
  dsimp only
  rw [hk]
  rfl

section
variable {fmt k : Nat} {rnd : Bytes} (hr : rnd.length = 8) (hk : k ≤ 16)
include hr hk

theorem pinFill_length : (pinFill fmt k rnd).length = k := by
  have ht : ((nibbles rnd).take k).length = k := by
    rw [List.length_take, nibbles_length, hr]
    omega
  unfold pinFill
  split
  · exact List.length_replicate
  · split
    · exact List.length_replicate
    · split
      · rwa [List.length_map]
      · exact ht

end

theorem pinFill_lt {fmt k d : Nat} {rnd : Bytes} (h : d ∈ pinFill fmt k rnd) : d < 16 := by
  unfold pinFill at h
  split at h
  · rw [List.eq_of_mem_replicate h]
    decide
  · split at h
    · rw [List.eq_of_mem_replicate h]
      decide
    · split at h
      · obtain ⟨r, -, rfl⟩ := List.mem_map.1 h
        omega
      · exact nibbles_lt (List.mem_of_mem_take h)

theorem pinFill_ok {fmt k d : Nat} {rnd : Bytes} (h : d ∈ pinFill fmt k rnd) : fillOk fmt d = true := by
  unfold pinFill at h
  unfold fillOk
  split at h
  · rw [List.eq_of_mem_replicate h, if_pos ‹_›]
    rfl
  · rw [if_neg ‹_›]
    split at h
    · rw [List.eq_of_mem_replicate h, if_neg (by omega), if_pos ‹_›]
      rfl
    · split at h
      · obtain ⟨r, -, rfl⟩ := List.mem_map.1 h
        rw [if_pos ‹_›]
        exact decide_eq_true (Nat.le_add_right ..)
      · rw [if_neg ‹_›, if_neg ‹_›]

/-- A field with a good control nibble, length and fill opens to its PIN. -/
theorem pinOfField_field {fmt : Nat} {pin fill more : List Nat} (h4 : 4 ≤ pin.length) (h12 : pin.length ≤ 12) (hl : fill.length = 14 - pin.length)
    (hok : ∀ d ∈ fill, fillOk fmt d = true) : pinOfField fmt (fmt :: pin.length :: (pin ++ fill) ++ more) = some pin := by
  have hfill : ((fmt :: pin.length :: (pin ++ fill) ++ more).take 16).drop (2 + pin.length) = fill := by
    rw [List.take_append_of_le_length (by simp; omega), List.take_of_length_le (by simp; omega), Nat.add_comm]
    exact List.drop_left
  have hpin : ((fmt :: pin.length :: (pin ++ fill) ++ more).drop 2).take pin.length = pin := by
    show ((pin ++ fill) ++ more).take pin.length = pin
    rw [List.append_assoc]
    exact List.take_left
  unfold pinOfField
  dsimp only [List.cons_append, List.getD_cons_succ, List.getD_cons_zero]
  refine (if_pos ⟨rfl, h4, h12, ?_⟩).trans (congrArg some hpin)
  exact (congrArg (List.all · _) hfill).trans (List.all_eq_true.2 hok)

theorem buildField_opens {fmt : Nat} {pin : List Nat} {rnd : Bytes} (hf : fmt ∈ [0, 1, 3, 4]) (h4 : 4 ≤ pin.length) (h12 : pin.length ≤ 12)
    (hd : ∀ d ∈ pin, d < 10) (hr : rnd.length = 8) :
    pinOfField fmt (nibbles (buildField fmt pin rnd)) = some pin ∧ (buildField fmt pin rnd).length = pinBlockSize fmt := by
  have hfill : (pinFill fmt (14 - pin.length) rnd).length = 14 - pin.length := pinFill_length hr (by omega)
  have hlen : (fmt :: pin.length :: (pin ++ pinFill fmt (14 - pin.length) rnd)).length = 16 := by
    rw [List.length_cons, List.length_cons, List.length_append, hfill]
    omega
  have hfmt : fmt < 16 := by
    simp only [List.mem_cons, List.not_mem_nil, or_false] at hf
    omega
  have hlt : ∀ d ∈ fmt :: pin.length :: (pin ++ pinFill fmt (14 - pin.length) rnd), d < 16 := fun d hm => by
    rcases List.mem_cons.1 hm with rfl | hm
    · exact hfmt
    rcases List.mem_cons.1 hm with rfl | hm
    · omega
    rcases List.mem_append.1 hm with hm | hm
    · exact Nat.lt_trans (hd d hm) (by decide)
    · exact pinFill_lt hm
  rw [buildField_eq]
  refine ⟨?_, ?_⟩
  · rw [nibbles_append, nibbles_ofNibbles (by rw [hlen]) hlt]
    exact pinOfField_field h4 h12 hfill fun d => pinFill_ok
  · rw [List.length_append, ofNibbles_length, hlen]
    unfold pinBlockSize
    split
    · rw [fit_length]
    · rfl

/-! ### The verbs from a zone key -/

section
variable {o : Opnd} {s t u : State} {k : Nat × Bytes}

/-- A block that does not open is refused; one that opens answers its PIN. -/
theorem runV_pinOpenV (hs : s.engineServes o) :
    (openPin (pinIn o) k.1 k.2 (slice o.inp 0 (pinBlockSize (pinIn o))) (acctField o) = none →
      runV (pinOpenV o k 0) s = (.error (.fail stAuth []), s.worked o))
    ∧ ∀ pin, openPin (pinIn o) k.1 k.2 (slice o.inp 0 (pinBlockSize (pinIn o))) (acctField o) = some pin →
      runV (pinOpenV o k 0) s = (.ok pin, s.worked o) := by
  refine ⟨fun h => ?_, fun pin h => ?_⟩
  all_goals
    unfold pinOpenV
    rw [runV_bind_ok (runV_engine_worked hs _)]
    dsimp only
    rw [Nat.zero_mul, h]
    rfl

theorem runV_pinSource (h : pinSrc o = 2) : runV (pinSource o) s = (.ok none, s) := by
  unfold pinSource
  rw [if_pos h, runV_pure]

theorem runV_pinKey {i : Nat} {x : Slot} (h : runV (fetch o o.keyA (pinSrcReq o)) s = (.ok (i, x), t)) :
    runV (pinKey o none) s = (.ok (x.alg.toNat, x.key), t) := by
  unfold pinKey
  rw [runV_bind_ok h, runV_pure]

end

section
variable {o : Opnd} {s a b t : State} {i : Nat} {x : Slot} (hsrc : pinSrc o = 2)
  (ha : runV (probe o o.keyA (pinSrcReq o)) s = (.ok (), a)) (hb : runV (probe o o.keyB (pinDestReq o)) a = (.ok (), b))
  (hx : runV (fetch o o.keyA (pinSrcReq o)) b = (.ok (i, x), t)) (hs : t.engineServes o)
include hsrc ha hb hx hs

theorem runPinTranslate_refuses (h : openPin (pinIn o) x.alg.toNat x.key (slice o.inp 0 (pinBlockSize (pinIn o))) (acctField o) = none) :
    runV (runPinTranslate o) s = (.error (.fail stAuth []), t.worked o) := by
  rw [runPinTranslate, runV_bind_ok ha, runV_bind_ok hb, runV_bind_ok (runV_pinSource hsrc)]
  refine runV_standing_fail ?_
  rw [pinAccept, runV_bind_ok (runV_pure () b)]
  refine runV_standing_fail ?_
  rw [runV_bind_ok (runV_pinKey hx), runV_bind_error ((runV_pinOpenV hs).1 h)]

/-- The block goes out in the format asked for, with the random it takes. -/
theorem runPinTranslate_seals {pin : List Nat} {j : Nat} {y : Slot} {u v : State} {rnd : Bytes}
    (h : openPin (pinIn o) x.alg.toNat x.key (slice o.inp 0 (pinBlockSize (pinIn o))) (acctField o) = some pin)
    (hy : runV (fetch o o.keyB (pinDestReq o)) (t.worked o) = (.ok (j, y), u))
    (hr : runV (if fmtRandom (pinOut o) then random o 8 else pure []) u = (.ok rnd, v)) (hv : v.engineServes o) :
    runV (runPinTranslate o) s
      = (.ok { out := sealField (pinOut o) y.alg.toNat y.key (buildField (pinOut o) pin rnd) (acctField o) }, v.worked o) := by
  rw [runPinTranslate, runV_bind_ok ha, runV_bind_ok hb, runV_bind_ok (runV_pinSource hsrc)]
  refine runV_standing_ok ?_
  rw [pinAccept, runV_bind_ok (runV_pure () b)]
  refine runV_standing_ok ?_
  rw [runV_bind_ok (runV_pinKey hx), runV_bind_ok ((runV_pinOpenV hs).2 pin h), runV_bind_ok hy]
  cases hf : fmtRandom (pinOut o)
  all_goals
    rw [hf] at hr
    dsimp only
  · rw [if_neg Bool.false_ne_true] at hr ⊢
    rw [runV_bind_ok hr, runV_bind_ok (runV_engine_worked hv _), runV_pure]
  · rw [if_pos rfl] at hr ⊢
    rw [runV_bind_ok hr, runV_bind_ok (runV_engine_worked hv _), runV_pure]

end

section
variable {o : Opnd} {s a b c t : State} {i r : Nat} {x : Slot} (hsrc : pinSrc o = 2)
  (ha : runV (probe o o.keyA (pinSrcReq o)) s = (.ok (), a)) (hb : runV (probe o o.keyB (pinRefReq false)) a = (.ok (), b))
  (hr : runV (needRef o) b = (.ok r, c)) (hx : runV (fetch o o.keyA (pinSrcReq o)) c = (.ok (i, x), t)) (hs : t.engineServes o)
include hsrc ha hb hr hx hs

theorem runPinVerify_refuses (h : openPin (pinIn o) x.alg.toNat x.key (slice o.inp 0 (pinBlockSize (pinIn o))) (acctField o) = none) :
    runV (runPinVerify o) s = (.error (.fail stAuth []), t.worked o) := by
  rw [runPinVerify, runV_bind_ok ha, runV_bind_ok hb, runV_bind_ok (runV_pinSource hsrc)]
  refine runV_standing_fail ?_
  rw [runV_bind_ok hr, pinAccept, runV_bind_ok (runV_pure () c)]
  refine runV_standing_fail ?_
  rw [runV_bind_ok (runV_pinKey hx), runV_bind_error ((runV_pinOpenV hs).1 h)]

section
variable {pin : List Nat} {j : Nat} {y : Slot} {u v : State} {m : Bytes}
  (h : openPin (pinIn o) x.alg.toNat x.key (slice o.inp 0 (pinBlockSize (pinIn o))) (acctField o) = some pin)
  (hy : runV (fetch o o.keyB (pinRefReq false)) (t.worked o) = (.ok (j, y), u)) (hm : runV (getRec (r / 32) (r % 32)) u = (.ok m, v))
include h hy hm

theorem runPinVerify_accepts (heq : slice m 0x30 16 = refValue y.alg.toNat y.key pin (acctField o)) : runV (runPinVerify o) s = (.ok {}, v) := by
  rw [runPinVerify, runV_bind_ok ha, runV_bind_ok hb, runV_bind_ok (runV_pinSource hsrc)]
  refine runV_standing_ok ?_
  rw [runV_bind_ok hr, pinAccept, runV_bind_ok (runV_pure () c)]
  refine runV_standing_ok ?_
  have hcmp : runV (refCompare o y r pin) u = (.ok (), v) := by
    rw [refCompare, runV_bind_ok hm, beq_iff_eq.2 heq]
    rfl
  rw [runV_bind_ok (runV_pinKey hx), runV_bind_ok ((runV_pinOpenV hs).2 pin h), runV_bind_ok hy, runV_bind_ok hcmp, runV_pure]

theorem runPinVerify_differs (hne : slice m 0x30 16 ≠ refValue y.alg.toNat y.key pin (acctField o)) :
    runV (runPinVerify o) s = (.error (.fail stAuth []), v) := by
  rw [runPinVerify, runV_bind_ok ha, runV_bind_ok hb, runV_bind_ok (runV_pinSource hsrc)]
  refine runV_standing_fail ?_
  rw [runV_bind_ok hr, pinAccept, runV_bind_ok (runV_pure () c)]
  refine runV_standing_fail ?_
  have hcmp : runV (refCompare o y r pin) u = (.error (.fail stAuth []), v) := by
    rw [refCompare, runV_bind_ok hm, beq_eq_false_iff_ne.2 hne]
    rfl
  rw [runV_bind_ok (runV_pinKey hx), runV_bind_ok ((runV_pinOpenV hs).2 pin h), runV_bind_ok hy, runV_bind_error hcmp]

end

end

/-- Settles O58: `buildField_opens` for the fields, and the two verbs' runs. -/
theorem pinsTranslate : Obligations.PinsTranslate := by
  refine ⟨fun fmt pin rnd => buildField_opens, ?_⟩
  intro o s a b hsrc ha opened
  refine ⟨fun hb i x t hx hs => ⟨runPinTranslate_refuses hsrc ha hb hx hs, ?_⟩,
    fun r c hb hr i x t hx hs => ⟨runPinVerify_refuses hsrc ha hb hr hx hs, fun pin j y u m v hp hy hm =>
      ⟨runPinVerify_accepts hsrc ha hb hr hx hs hp hy hm, runPinVerify_differs hsrc ha hb hr hx hs hp hy hm⟩⟩⟩
  intro pin j y u hp hy block
  refine ⟨fun hno hu => ?_, fun rnd v hyes hrnd hv => ?_⟩
  · exact runPinTranslate_seals hsrc ha hb hx hs hp hy (by rw [hno, if_neg Bool.false_ne_true, runV_pure]) hu
  · exact runPinTranslate_seals hsrc ha hb hx hs hp hy (by rw [hyes, if_pos rfl, hrnd]) hv

end Sys2Proof.Machine
end

section
/-! The debug block's tokens: their refusal, and what each kind does (16 R384 to R389). -/

namespace Sys2Proof.Machine

variable {s : State}

/-! ### The buffer -/

theorem exec_tokenData (w : Word32) : exec (.tokenData w) s
    = answer s (if s.life.token.length + 4 ≤ 16384 then s.portLive.setLife { s.portLive.life with token := s.portLive.life.token ++ toLE 4 w.toNat } else s.portLive) := rfl

theorem keeps_setLife (l : Life) : s.keeps (s.setLife l) [.life] := keeps_life s l (by decide)

theorem tokenData_appends (w : Word32) : ∃ t, exec (.tokenData w) s = .next t ∧ s.keeps t [.life] ∧ t.life.dbgEn = true
    ∧ t.life.token = if s.life.token.length + 4 ≤ 16384 then s.life.token ++ toLE 4 w.toNat else s.life.token := by
  refine ⟨_, exec_tokenData w, ?_⟩
  have hlive : s.keeps s.portLive [.life] := keeps_setLife _
  by_cases h : s.life.token.length + 4 ≤ 16384
  · rw [if_pos h, if_pos h]
    exact ⟨(hlive.trans (keeps_setLife _)).settled, rfl, rfl⟩
  · rw [if_neg h, if_neg h]
    exact ⟨hlive.settled, rfl, rfl⟩

/-! ### Refusals (16 R384) -/

theorem firstFail_head {c : Bool} {st : Word16} {l : List (Bool × Word16)} (h : c = false) : firstFail ((c, st) :: l) = some st := by
  rw [h]
  rfl

theorem firstFail_tail {c : Bool} {st : Word16} {l : List (Bool × Word16)} (h : c = true) : firstFail ((c, st) :: l) = firstFail l := by
  rw [h]
  rfl

section
variable {b : Bytes}

theorem tokenRefusal_unready (h : s.ent.ready = false) : s.tokenRefusal b = some stEntNotReady := firstFail_head h

section
variable (hr : s.ent.ready = true)
include hr

theorem tokenRefusal_form (h : s.tokFormOk b = false) : s.tokenRefusal b = some stBad := (firstFail_tail hr).trans (firstFail_head h)

theorem tokenRefusal_auth (hf : s.tokFormOk b = true) (h : s.tokBound b = false ∨ s.tokSigned b = false) : s.tokenRefusal b = some stAuth :=
  (firstFail_tail hr).trans ((firstFail_tail hf).trans (firstFail_head (Bool.and_eq_false_iff.2 h)))

theorem tokenRefusal_state (hf : s.tokFormOk b = true) (hb : s.tokBound b = true) (hs : s.tokSigned b = true) (h : s.tokAllowed b = false) :
    s.tokenRefusal b = some stAccess :=
  (firstFail_tail hr).trans ((firstFail_tail hf).trans ((firstFail_tail (Bool.and_eq_true_iff.2 ⟨hb, hs⟩)).trans (firstFail_head h)))

end

theorem ready_of_accepted (h : s.tokenRefusal b = none) : s.ent.ready = true := by
  by_contra hr
  rw [tokenRefusal_unready (Bool.eq_false_iff.2 hr)] at h
  cases h

end

/-! ### The end of a token -/

/-- What a token's end leaves: the buffer is empty, its result stands, and random was drawn for the nonce. -/
structure State.tokenDone (s t : State) (st : Word16) : Prop where
  keeps : s.keeps t [.life, .ent]
  life : t.life = { s.life with token := [], tokenResult := st, devNonce := t.life.devNonce,
                                tokenFails := if st = stDone then s.life.tokenFails else satInc s.life.tokenFails }
  drawn : s.ent.ready = true → ∀ v n, s.wardenCalls 2 = some (v, n) → t.life.devNonce = n ∧ t.ent = v.ent
  undrawn : s.ent.ready = true → s.wardenCalls 2 = none → t.life.devNonce = [] ∧ t.ent = s.ent
  unready : s.ent.ready = false → t.life.devNonce = s.life.devNonce ∧ t.ent = s.ent

/-- The Warden's random comes from the entropy subsystem alone. -/
theorem wardenCalls_is (k : Nat) : ∀ {s t : State} {b : Bytes}, s.wardenCalls k = some (t, b) → t = { s with ent := t.ent } := by
  induction k with
  | zero =>
    intro s t b h
    cases h
    rfl
  | succ k ih =>
    intro s t b h
    unfold State.wardenCalls at h
    dsimp only at h
    split at h
    · obtain ⟨⟨u, b'⟩, hu, he⟩ := Option.map_eq_some_iff.1 h
      cases he
      rw [ih hu]
      rfl
    · cases h

/-- DEV_NONCE is drawn anew, or is none. -/
theorem newNonce_is : ∃ e n, s.newNonce = { s with ent := e, life := { s.life with devNonce := n } }
    ∧ (∀ v b, s.wardenCalls 2 = some (v, b) → n = b ∧ e = v.ent) ∧ (s.wardenCalls 2 = none → n = [] ∧ e = s.ent) := by
  unfold State.newNonce
  cases h : s.wardenCalls 2 with
  | none => exact ⟨s.ent, [], rfl, fun _ _ h => (nomatch h), fun _ => ⟨rfl, rfl⟩⟩
  | some r =>
    obtain ⟨t, b⟩ := r
    refine ⟨t.ent, b, ?_, fun v c hv => ?_, fun h => (nomatch h)⟩
    · dsimp only
      rw [wardenCalls_is 2 h]
    · cases hv
      exact ⟨rfl, rfl⟩

theorem tokenEnds_done (st : Word16) : s.tokenDone (s.tokenEnds st) st := by
  have hk : ∀ (e : Entropy) (l : Life), s.keeps { s with ent := e, life := l } [.life, .ent] := fun e l =>
    (keeps_ent (l := [.life, .ent]) s e (by decide)).trans (keeps_life _ l (by decide))
  unfold State.tokenEnds
  by_cases hr : s.ent.ready = true
  · obtain ⟨e, n, hn, hsome, hnone⟩ := newNonce_is (s := s)
    rw [if_pos hr, hn]
    exact ⟨hk _ _, rfl, fun _ => hsome, fun _ => hnone, fun hno => absurd hr (Bool.eq_false_iff.1 hno)⟩
  · rw [if_neg hr]
    exact ⟨hk s.ent _, rfl, fun h => absurd h hr, fun h => absurd h hr, fun _ => ⟨rfl, rfl⟩⟩

/-! ### What each kind does (16 R386, R388, R389) -/

theorem applyToken_refused {st : Word16} (h : s.tokenRefusal s.life.token = some st) : s.applyToken = s.tokenEnds st := by
  unfold State.applyToken
  dsimp only
  rw [h]

section
variable (h : s.tokenRefusal s.life.token = none)
include h

theorem applyToken_opens (hk : tokKind s.life.token = 1) : s.applyToken = (s.tokenEnds stDone).openSession := by
  unfold State.applyToken
  dsimp only
  rw [h]
  dsimp only
  rw [hk]
  rfl

theorem applyToken_enrols {k : Bytes} {v : State} (hk : tokKind s.life.token = 2) (hw : s.wardenWork (fun o => random o 32) = (some k, v)) :
    s.applyToken = (v.enrol (tokBody s.life.token) k).tokenEnds stDone := by
  unfold State.applyToken
  dsimp only
  rw [h]
  dsimp only
  rw [hk, hw]
  rfl

theorem applyToken_undrawn {v : State} (hk : tokKind s.life.token = 2) (hw : s.wardenWork (fun o => random o 32) = (none, v)) :
    s.applyToken = s.tokenEnds stEntNotReady := by
  unfold State.applyToken
  dsimp only
  rw [h]
  dsimp only
  rw [hk, hw]
  rfl

theorem applyToken_recovers (hk : tokKind s.life.token = 3) : s.applyToken = (s.tokenEnds stDone).erased.warm := by
  unfold State.applyToken
  dsimp only
  rw [h]
  dsimp only
  rw [hk]
  rfl

end

/-- TOKEN_CMD 1 with the buffer's kind. -/
theorem exec_openSession (h2 : tokKind s.life.token ≠ 2) (h3 : tokKind s.life.token ≠ 3) : exec .openSession s = answer s s.portLive.applyToken :=
  congrArg (answer s) (if_neg fun h => h.elim h2 h3)

theorem exec_enrol (h : tokKind s.life.token = 2) : exec .enrol s = answer s s.portLive.applyToken := congrArg (answer s) (if_pos h)

theorem exec_recover (h : tokKind s.life.token = 3) : exec .recover s = answer s s.portLive.applyToken := congrArg (answer s) (if_pos h)

/-- A refused token is counted, and the buffer is empty. -/
theorem token_refused {c : Instr} (hc : exec c s = answer s s.portLive.applyToken) (st : Word16) (h : s.portLive.tokenRefusal s.life.token = some st) :
    ∃ t, exec c s = .next t ∧ s.keeps t [.life, .ent] ∧ t.life.token = [] ∧ t.life.tokenResult = st
      ∧ (st ≠ stDone → t.life.tokenFails = satInc s.life.tokenFails) ∧ t.life.st = s.life.st ∧ t.life.session = s.life.session
      ∧ (s.ent.ready = true → ∀ v n, s.portLive.wardenCalls 2 = some (v, n) → t.life.devNonce = n ∧ t.ent = v.ent)
      ∧ (s.ent.ready = true → s.portLive.wardenCalls 2 = none → t.life.devNonce = [] ∧ t.ent = s.ent)
      ∧ (s.ent.ready = false → t.life.devNonce = s.life.devNonce ∧ t.ent = s.ent) := by
  rw [applyToken_refused (s := s.portLive) h] at hc
  obtain ⟨hk, hl, hsome, hnone, hno⟩ := tokenEnds_done (s := s.portLive) st
  generalize s.portLive.tokenEnds st = u at hc hk hl hsome hnone hno
  refine ⟨s.settled u, hc, ((keeps_setLife _).widen.trans hk).settled, (congrArg Life.token hl :), (congrArg Life.tokenResult hl :), fun hne => ?_,
    (congrArg Life.st hl :), (congrArg Life.session hl :), hsome, hnone, hno⟩
  exact (congrArg Life.tokenFails hl :).trans (if_neg hne)

theorem exec_debugSessionEnd (s : State) : exec .debugSessionEnd s = answer s
    (if s.life.session then (s.setLife { s.life with dbgEn := false }).warm else s.setLife { s.life with dbgEn := false }) := rfl

section
variable (h : s.portLive.tokenRefusal s.life.token = none)
include h

theorem token_opens (hk : tokKind s.life.token = 1) :
    ∃ u : State, s.keeps u [.life, .ent] ∧ u.life.token = [] ∧ u.life.tokenResult = stDone
      ∧ (∀ v n, s.portLive.wardenCalls 2 = some (v, n) → u.life.devNonce = n ∧ u.ent = v.ent) ∧ u.life.tokenFails = s.life.tokenFails
      ∧ ∃ t, exec .openSession s = .next t ∧ t.life.session = true ∧ t.tam = u.debugFell.tam ∧ t.kr = u.debugFell.kr := by
  obtain ⟨hkeep, hl, hsome, -, -⟩ := tokenEnds_done (s := s.portLive) stDone
  have hfails : (s.portLive.tokenEnds stDone).life.tokenFails = s.life.tokenFails := by
    rw [hl]
    dsimp only
    rw [if_pos rfl]
    rfl
  refine ⟨s.portLive.tokenEnds stDone, (keeps_setLife _).widen.trans hkeep, (congrArg Life.token hl :), (congrArg Life.tokenResult hl :),
    hsome (ready_of_accepted h), hfails, s.settled (s.portLive.tokenEnds stDone).openSession, ?_, rfl, rfl, rfl⟩
  rw [exec_openSession (by rw [hk]; decide) (by rw [hk]; decide), applyToken_opens h hk]
  rfl

theorem token_enrols {k : Bytes} {v : State} (hk : tokKind s.life.token = 2)
    (hw : s.portLive.wardenWork (fun o => random o 32) = (some k, v)) :
    ∃ t, exec .enrol s = .next t ∧ t.vault.rootSlots = [] ∧ t.vault.ready = false ∧ t.vault.started = false
      ∧ t.tam.storageKey = some k ∧ t.tam.canary = .valid
      ∧ t.mesh.roster = some (rosterOf ((tokBody s.life.token).drop 1952)) ∧ t.mesh.slotHome = [] ∧ t.mesh.rseq = 0
      ∧ t.life.ownerKey = some ((tokBody s.life.token).take 1952) ∧ t.life.cmdSeq = 0 ∧ t.life.recipes = []
      ∧ t.life.rversions = v.life.rversions ∧ t.life.token = [] ∧ t.life.tokenResult = stDone
      ∧ t.life.st = if v.life.st = .blank then .owned else v.life.st := by
  have hexec : exec .enrol s = answer s ((v.enrol (tokBody s.life.token) k).tokenEnds stDone) := by
    rw [exec_enrol hk, applyToken_enrols h hk hw]
    rfl
  obtain ⟨hkeep, hl, -, -, -⟩ := tokenEnds_done (s := v.enrol (tokBody s.life.token) k) stDone
  generalize (v.enrol (tokBody s.life.token) k).tokenEnds stDone = u at hexec hkeep hl
  have hv := hkeep.vault_eq
  have ht := hkeep.tam_eq
  have hm := hkeep.mesh_eq
  exact ⟨s.settled u, hexec, (congrArg Vault.rootSlots hv :), (congrArg Vault.ready hv :), (congrArg Vault.started hv :),
    (congrArg Tamper.storageKey ht :), (congrArg Tamper.canary ht :), (congrArg Mesh.roster hm :), (congrArg Mesh.slotHome hm :),
    (congrArg Mesh.rseq hm :), (congrArg Life.ownerKey hl :), (congrArg Life.cmdSeq hl :), (congrArg Life.recipes hl :),
    (congrArg Life.rversions hl :), (congrArg Life.token hl :), (congrArg Life.tokenResult hl :), (congrArg Life.st hl :)⟩

theorem token_undrawn {v : State} (hk : tokKind s.life.token = 2) (hw : s.portLive.wardenWork (fun o => random o 32) = (none, v)) :
    ∃ t, exec .enrol s = .next t ∧ t.life.tokenResult = stEntNotReady ∧ t.life.token = [] ∧ t.life.ownerKey = s.life.ownerKey := by
  have hexec : exec .enrol s = answer s (s.portLive.tokenEnds stEntNotReady) := by rw [exec_enrol hk, applyToken_undrawn h hk hw]
  have hl := (tokenEnds_done (s := s.portLive) stEntNotReady).life
  exact ⟨_, hexec, (congrArg Life.tokenResult hl :), (congrArg Life.token hl :), (congrArg Life.ownerKey hl :)⟩

theorem token_recovers (hk : tokKind s.life.token = 3) :
    ∃ u : State, becomes .recover s u.warm ∧ s.keeps u [.life, .ent, .vault, .tam, .mesh, .pwr]
      ∧ u.vault.rootSlots = [] ∧ u.tam = { s.tam with storageKey := none, canary := .emptied, filters := [] }
      ∧ u.mesh.roster = none ∧ u.mesh.slotHome = [] ∧ u.mesh.sealedMrk = none ∧ u.mesh.mrk = none ∧ u.mesh.unitKeys = []
      ∧ u.pwr = { s.pwr with stored := [] } ∧ u.life.ownerKey = none ∧ u.life.recipes = [] ∧ u.life.rversions = s.life.rversions ∧ u.life.st = .blank
      ∧ u.life.imageA = s.life.imageA ∧ u.life.imageB = s.life.imageB ∧ u.life.svnFloor = s.life.svnFloor
      ∧ u.life.token = [] ∧ u.life.tokenResult = stDone := by
  have hexec : exec .recover s = answer s (s.portLive.tokenEnds stDone).erased.warm := by rw [exec_recover hk, applyToken_recovers h hk]
  obtain ⟨hkeep, hl, -, -, -⟩ := tokenEnds_done (s := s.portLive) stDone
  generalize s.portLive.tokenEnds stDone = v at hexec hkeep hl
  have hse : s.keeps v [.life, .ent, .vault, .tam, .mesh, .pwr] := ((keeps_setLife _).widen.trans hkeep).widen
  have her : v.keeps v.erased [.life, .ent, .vault, .tam, .mesh, .pwr] :=
    ⟨fun _ => rfl, fun _ => rfl, fun _ => rfl, fun h => absurd (by decide) h, fun _ => rfl, fun _ => rfl, fun h => absurd (by decide) h,
      fun _ => rfl, fun h => absurd (by decide) h, fun _ => rfl, fun h => absurd (by decide) h, fun h => absurd (by decide) h⟩
  refine ⟨v.erased, hexec, hse.trans her, rfl, ?_, rfl, rfl, rfl, rfl, rfl, ?_, rfl, rfl, (congrArg Life.rversions hl :), rfl,
    (congrArg Life.imageA hl :), (congrArg Life.imageB hl :), (congrArg Life.svnFloor hl :), (congrArg Life.token hl :), (congrArg Life.tokenResult hl :)⟩
  · exact congrArg (fun t : Tamper => { t with storageKey := none, canary := .emptied, filters := [] }) hkeep.tam_eq
  · exact congrArg (fun p : Power => { p with stored := [] }) hkeep.pwr_eq

end

/-- Settles O56: `tokenEnds_done` for what every token leaves, and one lemma for each kind. -/
theorem tokensApply : Obligations.TokensApply := by
  intro s dbg b applied still
  refine ⟨fun w => tokenData_appends w, ?_, tokenRefusal_unready, tokenRefusal_form, tokenRefusal_auth, tokenRefusal_state,
    fun h2 h3 => token_refused (exec_openSession h2 h3), fun h2 => token_refused (exec_enrol h2), fun h3 => token_refused (exec_recover h3),
    fun h => ?_, fun h => ?_, fun h => ?_, fun h => ⟨token_opens h, fun hk k v => token_enrols h hk, fun hk v => token_undrawn h hk, token_recovers h⟩,
    fun h => ?_, fun h => ?_⟩
  · exact ⟨_, rfl, ((keeps_setLife (s := s) _).trans (keeps_setLife (s := s.portLive) _)).settled, rfl, rfl⟩
  · exact ⟨_, congrArg (answer s) (if_pos h), s.sameBut_settled⟩
  · exact ⟨_, congrArg (answer s) (if_neg h), s.sameBut_settled⟩
  · exact ⟨_, congrArg (answer s) (if_neg h), s.sameBut_settled⟩
  · exact ⟨_, (exec_debugSessionEnd s).trans (congrArg (answer s) (if_neg (by rw [h]; decide))), (keeps_setLife (s := s) _).settled, rfl⟩
  · exact (exec_debugSessionEnd s).trans (congrArg (answer s) (if_pos h))

end Sys2Proof.Machine
end

section
/-! Withy ports: training, falling, the exchange's start, and flits in (14 R332 to R337). -/

namespace Sys2Proof.Machine

variable {s t u : State}

/-! ### Ports -/

/-- A step that changes the mesh alone, and there port p alone. -/
structure State.onPort (s t : State) (p : Nat) (y : Port) : Prop where
  keeps : s.keeps t [.mesh]
  port : t.port p = y
  others : ∀ q, q ≠ p → t.port q = s.port q

theorem onPort_setPort (p : Nat) (y : Port) : s.onPort (s.setPort p y) p y :=
  ⟨keeps_mesh s _ (by decide), State.port_setPort .., fun _ hq => State.port_setPort_ne _ _ hq⟩

/-- A step that leaves every port, and changes the mesh alone. -/
theorem State.onPort.noted {p : Nat} {y : Port} (h : s.onPort t p y) (hk : t.keeps u [.mesh]) (hp : u.mesh.ports = t.mesh.ports) : s.onPort u p y := by
  have hq : ∀ q, u.port q = t.port q := fun q => by rw [State.port, hp]; rfl
  exact ⟨h.keeps.trans hk, (hq p).trans h.port, fun q hne => (hq q).trans (h.others q hne)⟩

/-- The command whose carrying out leaves the mesh, and port p as y. -/
theorem State.onPort.settled {p : Nat} {y : Port} (h : s.onPort t p y) : s.onPort (s.settled t) p y := ⟨h.keeps.settled, h.port, h.others⟩

/-- Member i is reached over an attested port alone. -/
theorem byTag_attested {i tag p : Nat} (h : byTag (s.linksTo i) tag = some p) : (s.port p).attested = true := by
  have hm := (List.mem_filter.1 (List.mem_of_getElem? h)).2
  exact (Bool.and_eq_true_iff.1 hm).1

theorem route_attested {dst tag p : Nat} {v : Bool} (h : s.route dst tag = some (p, v)) : (s.port p).attested = true := by
  unfold State.route at h
  split at h
  · cases h
  · dsimp only at h
    split at h
    · split at h
      · cases h
        exact byTag_attested ‹_›
      · obtain ⟨q, hq, he⟩ := Option.map_eq_some_iff.1 h
        cases he
        obtain ⟨i, -, hi⟩ := List.exists_of_findSome?_eq_some hq
        split at hi
        · cases hi
        · exact byTag_attested hi
    · split at h
      · generalize (if 2 * _ ≤ _ then _ else _ : Nat) = a at h
        generalize (if 2 * _ ≤ _ then _ else _ : Nat) = b at h
        split at h
        · cases h
          assumption
        · split at h <;> cases h
          assumption
      · obtain ⟨q, hq, he⟩ := Option.map_eq_some_iff.1 h
        cases he
        exact List.find?_some (p := fun p => (s.port p).attested) hq

/-- What a message out leaves: a port that is not attested, and the exchanges. -/
theorem send_stands {p : Nat} (hp : (s.port p).attested = false) (dst type tag attempt aux : Nat) (b : Bytes) (part : Nat) :
    let t := s.send dst type tag attempt aux b part
    s.keeps t [.mesh] ∧ t.port p = s.port p ∧ t.mesh.hs = s.mesh.hs := by
  intro t
  have hk : s.keeps t [.mesh] := keeps_send ..
  refine ⟨hk, ?_⟩
  unfold t State.send State.emit
  dsimp only
  split
  · exact ⟨rfl, rfl⟩
  · unfold State.exit
    dsimp only
    rw [if_pos rfl]
    split
    · exact ⟨rfl, rfl⟩
    · exact ⟨rfl, rfl⟩
    · rename_i q v m hr hm
      have hq : p ≠ q := fun he => by
        subst he
        rw [route_attested hr] at hp
        cases hp
      exact ⟨State.port_setPort_ne _ _ hq, rfl⟩

/-- What asking again leaves: a port that is down, and the exchanges. -/
structure State.downStays (s t : State) (p : Nat) : Prop where
  keeps : s.keeps t [.mesh]
  port : t.port p = s.port p
  hs : t.mesh.hs = s.mesh.hs

theorem downStays_resendFwd {p : Nat} (hp : (s.port p).attested = false) (f : Fwd) : s.downStays (s.resendFwd f) p := by
  unfold State.resendFwd
  split
  · unfold State.sendFwd
    dsimp only
    obtain ⟨hk, hport, hhs⟩ := send_stands (s := { s with mesh := { s.mesh with
      fwds := (s.mesh.fwds.filter fun g => g.dst != f.dst || g.tag != f.tag) ++ [{ f with
        attempt := mget s.mesh.attempts (attemptKey f.dst f.tag) 0 + 1, port := ((s.route f.dst f.tag).map (·.1)).getD 4 }]
      attempts := mset s.mesh.attempts (attemptKey f.dst f.tag) (mget s.mesh.attempts (attemptKey f.dst f.tag) 0 + 1) } }) (p := p) hp
      f.dst 0x10 f.tag (mget s.mesh.attempts (attemptKey f.dst f.tag) 0 + 1).toNat
      (fwdAge f.desc (mget s.mesh.attempts (attemptKey f.dst f.tag) 0 + 1).toNat) f.body f.part
    exact ⟨(keeps_mesh s _ (by decide)).trans hk, hport, hhs⟩
  · exact ⟨.refl s _, rfl, rfl⟩

theorem downStays_resends {p : Nat} (l : List Fwd) : ∀ s : State, (s.port p).attested = false → s.downStays (l.foldl State.resendFwd s) p := by
  induction l with
  | nil => exact fun s _ => ⟨.refl s _, rfl, rfl⟩
  | cons f r ih =>
    intro s hp
    obtain ⟨hk, hport, hhs⟩ := downStays_resendFwd hp f
    obtain ⟨hk', hport', hhs'⟩ := ih (s.resendFwd f) (by rw [hport]; exact hp)
    exact ⟨hk.trans hk', hport'.trans hport, hhs'.trans hhs⟩

/-- A port that is down: what its direction register and counters hold stands, and it trains where it can. -/
def Port.fallen (x : Port) (v : Bool) : Port := { enable := x.enable, lateReplies := x.lateReplies, retries := x.retries, training := v }

/-- The state in which port p is down and has no exchange. -/
def State.cut (s : State) (p : Nat) : State :=
  let t := (s.linkDown p).setPort p { (s.linkDown p).port p with training := (s.linkDown p).trains p }
  { t with mesh := { t.mesh with hs := mdel t.mesh.hs p } }

theorem trains_linkDown (p : Nat) : (s.linkDown p).trains p = s.trains p := by
  unfold State.trains State.linkDown
  rw [State.port_setPort]
  rfl

theorem port_linkDown (p : Nat) :
    (s.linkDown p).port p = { enable := (s.port p).enable, lateReplies := (s.port p).lateReplies, retries := (s.port p).retries } :=
  State.port_setPort ..

theorem cut_port (p : Nat) : (s.cut p).port p = (s.port p).fallen (s.trains p) := by
  refine (State.port_setPort (s := s.linkDown p) ..).trans ?_
  rw [trains_linkDown, port_linkDown]
  rfl

theorem linkFell_eq (p : Nat) : s.linkFell p
    = if (s.port p).up then (s.mesh.fwds.filter fun f => !f.accepted && f.port == p).foldl State.resendFwd (s.cut p) else s.cut p := by
  unfold State.linkFell
  dsimp only
  cases (s.port p).up <;> rfl

/-- A link that goes down loses its keys, sequences, credits and exchange, and trains again (14 R334). -/
theorem linkFell_falls (p : Nat) : s.keeps (s.linkFell p) [.mesh] ∧ (s.linkFell p).port p = (s.port p).fallen (s.trains p)
    ∧ (s.linkFell p).shakeOf p = {} := by
  have hk : s.keeps (s.cut p) [.mesh] := ((keeps_mesh s _ (by decide)).trans (keeps_mesh _ _ (by decide))).trans (keeps_mesh _ _ (by decide))
  have hport := cut_port (s := s) p
  have hhs : (s.cut p).shakeOf p = {} := mget_mdel_self ..
  rw [linkFell_eq]
  split
  · obtain ⟨hk', hport', hhs'⟩ := downStays_resends (s.mesh.fwds.filter fun f => !f.accepted && f.port == p) (s.cut p) (by rw [hport]; rfl)
    exact ⟨hk.trans hk', hport'.trans hport, (congrArg (mget · p {}) hhs' : _ = mget (s.cut p).mesh.hs p {}).trans hhs⟩
  · exact ⟨hk, hport, hhs⟩

/-! ### The exchange's start (14 R337) -/

theorem startShake_undrawn {k : Nat} {v : State} (h : s.wardenWork (fun o => random o 96) = (none, v)) : s.startShake k = s.setHs k { st := .failed } := by
  unfold State.startShake
  rw [h]

theorem startShake_sends {p : Nat} {b : Bytes} {v : State} (hp : p < 4) (h : s.wardenWork (fun o => random o 96) = (some b, v)) :
    let m := v.ownHello p (b.take 64) (b.drop 64)
    v.keeps (s.startShake p) [.mesh] ∧ (s.startShake p).mesh.ports = v.mesh.ports
      ∧ (s.startShake p).shakeOf p = { st := .sent, seed := b.take 64, mine := m }
      ∧ (s.startShake p).mesh.sent = v.mesh.sent ++ [{ port := p, src := v.ownId, dst := 8, type := 0x50, body := m }] := by
  intro m
  have he : s.startShake p = (v.setHs p { st := .sent, seed := b.take 64, mine := m }).sendShake p 0x50 m := by
    unfold State.startShake
    rw [h]
    dsimp only
    rw [if_pos hp]
  rw [he, State.sendShake, if_pos hp]
  exact ⟨(keeps_mesh v _ (by decide)).trans (keeps_mesh _ _ (by decide)), rfl, mget_mset_self .., rfl⟩

/-! ### Flits in (14 R333, R334, R336) -/

/-- The state behind a flit and its accepted body: a message's first flit names a known type. -/
def flitTaken (f : Bytes) (r : State × Option Bytes) : State := r.2.elim r.1 fun b => if flitSom f then r.1.noteType (flitClass f) b else r.1

theorem flitTaken_none (f : Bytes) (t : State) : flitTaken f (t, none) = t := rfl

theorem exec_flitReceive (p : Fin 4) (f : Bytes) (s : State) : exec (.flitReceive p f) s = answer s (flitTaken f (s.rxFlit p.val f)) := by
  unfold exec
  dsimp only
  unfold execFlitReceive
  rcases s.rxFlit p.val f with ⟨t, _ | b⟩ <;> rfl

/-- The direction that receives has counted a flit. -/
def Port.counted (x : Port) (key : Bytes) : Port :=
  { x with rxCtr := x.rxCtr + 1, rxKey := if (x.rxCtr.toNat + 1) % 2 ^ 31 = 0 then some (rekeyed key) else some key }

theorem counted_eq (x : Port) (key : Bytes) :
    x.counted key = { x with rxCtr := (nextCtr x.rxCtr (some key)).1, rxKey := (nextCtr x.rxCtr (some key)).2 } := rfl

section
variable {p : Nat} {f key : Bytes}

theorem rxFlit_down (h : (s.port p).up = false) : s.rxFlit p f = (s, none) := by
  unfold State.rxFlit
  dsimp only
  rw [h]
  rfl

section
variable (hu : (s.port p).up = true) (hl : f.length = 64)
include hu hl

theorem rxFlit_control (hc : flitClass f = 5) :
    s.rxFlit p f = (s, if (crc64 (f.take 56)).toNat = leAt f 0x38 8 then some (slice f 8 48) else none) := by
  unfold State.rxFlit
  dsimp only
  rw [hu, hl, if_neg (by decide), if_pos hc]

theorem rxFlit_unkeyed (hc : flitClass f ≠ 5) (hk : (s.port p).rxKey = none) : s.rxFlit p f = (s, none) := by
  unfold State.rxFlit
  dsimp only
  rw [hu, hl, if_neg (by decide), if_neg hc, hk]

section
variable (hc : flitClass f ≠ 5) (hk : (s.port p).rxKey = some key)
include hc hk

/-- A flit under a key counts, and then its tag and its sequence number decide. -/
theorem rxFlit_keyed : s.rxFlit p f =
    if flitClass f ≤ 4 && flitTagOk key (s.flitNonce p) f then
      if flitClass f = 0 then (s.setPort p (({ (s.port p).counted key with tagFails := 0 } : Port).control f), none)
      else if flitSeq f = (s.port p).rxSeq + 1 then
        (s.setPort p (({ (s.port p).counted key with tagFails := 0, rxSeq := flitSeq f, acked := flitSeq f, nak := false } : Port).control f),
          some (flitBody key (s.flitNonce p) f))
      else (s.setPort p { (s.port p).counted key with tagFails := 0, nak := true }, none)
    else
      (if 8 ≤ (s.port p).tagFails + 1
        then (s.setPort p { (s.port p).counted key with tagFails := (s.port p).tagFails + 1, nak := true }).linkFell p
        else s.setPort p { (s.port p).counted key with tagFails := (s.port p).tagFails + 1, nak := true }, none) := by
  rw [counted_eq]
  unfold State.rxFlit
  dsimp only
  rw [hu, hl, if_neg (by decide), if_neg hc, hk]

end

end

end

theorem noteType_stands (c : Nat) (b : Bytes) : s.keeps (s.noteType c b) [.mesh] ∧ (s.noteType c b).mesh.ports = s.mesh.ports := by
  unfold State.noteType
  dsimp only
  split
  · exact ⟨.refl s _, rfl⟩
  · exact ⟨keeps_mesh s _ (by decide), rfl⟩

/-- A flit whose body is accepted leaves its port so, whatever its message. -/
theorem flitTaken_onPort {f : Bytes} {p : Nat} {y : Port} {b : Option Bytes} (h : s.onPort t p y) : s.onPort (flitTaken f (t, b)) p y := by
  cases b with
  | none => exact h
  | some b =>
    have hn := noteType_stands (s := t) (flitClass f) b
    unfold flitTaken
    dsimp only [Option.elim]
    split
    · exact h.noted hn.1 hn.2
    · exact h

/-- The control messages of class 5. -/
theorem noteType_control (f : Bytes) : s.noteType 5 (slice f 8 48)
    = if leAt f 8 1 ∈ [0x50, 0x51, 0x52] then s else { s with mesh := { s.mesh with unknownMsgs := satInc s.mesh.unknownMsgs } } := by
  have ht : leAt (slice f 8 48) 0 1 = leAt f 8 1 := by
    unfold leAt slice
    rw [List.drop_zero, List.take_take]
    rfl
  have hclass : ∀ n, (msgClass n == 5) = false := fun n => by
    unfold msgClass
    split
    · exact beq_false_of_ne (by omega)
    · rfl
  have hknown : (msgTypes.contains (leAt f 8 1) && (msgClass (leAt f 8 1) == 5 || (5 == 5 && decide (0x50 ≤ leAt f 8 1)))) = true
      ↔ leAt f 8 1 ∈ [0x50, 0x51, 0x52] := by
    rw [hclass, Bool.false_or, beq_self_eq_true, Bool.true_and, Bool.and_eq_true, decide_eq_true_iff, List.contains_iff_mem]
    unfold msgTypes
    simp only [List.mem_cons, List.not_mem_nil, or_false]
    omega
  unfold State.noteType
  dsimp only
  rw [ht]
  by_cases h : leAt f 8 1 ∈ [0x50, 0x51, 0x52]
  · rw [if_pos (hknown.2 h), if_pos h]
  · rw [if_neg (fun hk => h (hknown.1 hk)), if_neg h]

/-! ### What the commands on a port do -/

theorem trains_setPort {p : Nat} {y : Port} (h : y.enable = (s.port p).enable) : (s.setPort p y).trains p = s.trains p := by
  unfold State.trains
  rw [State.port_setPort, h]
  rfl

/-- A link down behind a flit leaves the port as if it had gone down before. -/
theorem linkFell_setPort {p : Nat} {y : Port} (hy : y.fallen (s.trains p) = (s.port p).fallen (s.trains p)) (he : y.enable = (s.port p).enable) :
    s.keeps ((s.setPort p y).linkFell p) [.mesh] ∧ ((s.setPort p y).linkFell p).port p = (s.port p).fallen (s.trains p)
      ∧ ((s.setPort p y).linkFell p).shakeOf p = {} := by
  obtain ⟨hk, hp, hh⟩ := linkFell_falls (s := s.setPort p y) p
  refine ⟨(keeps_mesh s _ (by decide)).trans hk, ?_, hh⟩
  rw [hp, trains_setPort he, State.port_setPort, hy]

section
variable {c : Instr} {p : Nat}

/-- A command whose answer is t, which has changed port p alone. -/
theorem only_of_onPort {y : Port} (h : s.onPort t p y) (he : exec c s = answer s t) :
    ∃ u, exec c s = .next u ∧ s.keeps u [.mesh] ∧ u.port p = y ∧ ∀ q, q ≠ p → u.port q = s.port q :=
  ⟨_, he, h.settled.keeps, h.settled.port, h.settled.others⟩

theorem falls_of_fallen (h : s.keeps t [.mesh] ∧ t.port p = (s.port p).fallen (s.trains p) ∧ t.shakeOf p = {}) (he : exec c s = answer s t) :
    ∃ u, exec c s = .next u ∧ s.keeps u [.mesh] ∧ u.port p = (s.port p).fallen (s.trains p) ∧ u.shakeOf p = {} :=
  ⟨_, he, h.1.settled, h.2.1, h.2.2⟩

theorem still_of_answer (he : exec c s = answer s s) : ∃ u, exec c s = .next u ∧ s.sameBut u := ⟨_, he, s.sameBut_settled⟩

/-- A command that starts port p's exchange in u: without random it has failed, and else its HELLO is out. -/
theorem starts_of_startShake (hp : p < 4) (he : exec c s = answer s (u.startShake p)) :
    (∀ v, u.wardenWork (fun o => random o 96) = (none, v) → ∃ t, exec c s = .next t ∧ t.port p = u.port p ∧ t.shakeOf p = { st := .failed })
    ∧ ∀ b v, u.wardenWork (fun o => random o 96) = (some b, v) →
        let m := v.ownHello p (b.take 64) (b.drop 64)
        ∃ t, exec c s = .next t ∧ v.keeps t [.mesh] ∧ t.mesh.ports = v.mesh.ports
          ∧ t.shakeOf p = { st := .sent, seed := b.take 64, mine := m }
          ∧ t.mesh.sent = v.mesh.sent ++ [{ port := p, src := v.ownId, dst := 8, type := 0x50, body := m }] := by
  constructor
  · intro v h
    rw [startShake_undrawn h] at he
    exact ⟨_, he, rfl, mget_mset_self ..⟩
  · intro b v h
    obtain ⟨hk, hports, hshake, hsent⟩ := startShake_sends hp h
    exact ⟨_, he, hk.settled, hports, hshake, hsent⟩

end

/-! ### The obligation -/

section
variable (p : Fin 4)

theorem exec_linkTrain_idle (l : Fin 5) (h : s.trains p.val = false ∨ (s.port p.val).up = true ∨ l.val ∉ [1, 2, 4]) :
    exec (.linkTrain p l) s = answer s s := by
  refine congrArg (answer s) (if_pos ?_)
  simp only [List.mem_cons, List.not_mem_nil, or_false, not_or] at h
  simp only [Bool.or_eq_true, Bool.not_eq_true', Bool.or_eq_false_iff, beq_eq_false_iff_ne]
  tauto

theorem exec_linkTrain_up (l : Fin 5) (ht : s.trains p.val = true) (hu : (s.port p.val).up = false) (hl : l.val ∈ [1, 2, 4]) :
    exec (.linkTrain p l) s = answer s (let u := s.setPort p.val { s.port p.val with up := true, training := false, lanes := l.val }
      if s.meshed then u.startShake p.val else u) := by
  refine congrArg (answer s) (if_neg ?_)
  simp only [List.mem_cons, List.not_mem_nil, or_false] at hl
  rw [ht, hu]
  simp only [Bool.not_true, Bool.or_false, Bool.false_or, Bool.not_eq_true', Bool.or_eq_false_iff, beq_eq_false_iff_ne]
  tauto

theorem exec_attestRetry_idle
    (h : s.meshed = false ∨ (s.port p.val).up = false ∨ ((s.port p.val).attested = false ∧ (s.shakeOf p.val).st ≠ .failed)) :
    exec (.attestRetry p) s = answer s s := by
  unfold exec
  dsimp only
  unfold execAttestRetry
  split
  · rfl
  · rename_i hn
    rw [Bool.or_eq_true, Bool.not_eq_true', Bool.not_eq_true'] at hn
    obtain ⟨ha, hf⟩ := (h.resolve_left fun hm => hn (.inl hm)).resolve_left fun hu => hn (.inr hu)
    rw [ha, if_neg hf]
    rfl

theorem exec_attestRetry_up (hm : s.meshed = true) (hu : (s.port p.val).up = true) :
    exec (.attestRetry p) s = answer s (if (s.port p.val).attested then s.pairFar
      else if (s.shakeOf p.val).st = .failed then s.startShake p.val else s) := by
  refine congrArg (answer s) (if_neg ?_)
  rw [hm, hu]
  decide

theorem exec_flit_unheard {f : Bytes} (h : s.rxFlit p.val f = (s, none)) : exec (.flitReceive p f) s = answer s s := by
  rw [exec_flitReceive, h]
  rfl

/-- A flit of class 5: the type of a message's first flit is looked at, and nothing else. -/
theorem exec_flit_control {f : Bytes} (hl : f.length = 64) (hu : (s.port p.val).up = true) (hc : flitClass f = 5) :
    exec (.flitReceive p f) s = answer s (if (crc64 (f.take 56)).toNat = leAt f 0x38 8 ∧ flitSom f = true ∧ leAt f 8 1 ∉ [0x50, 0x51, 0x52]
      then { s with mesh := { s.mesh with unknownMsgs := satInc s.mesh.unknownMsgs } } else s) := by
  rw [exec_flitReceive, rxFlit_control hu hl hc]
  unfold flitTaken
  split
  · rename_i hcrc
    dsimp only [Option.elim]
    rw [hc, noteType_control]
    cases hs : flitSom f
    · rw [if_neg (by decide), if_neg fun h => nomatch h.2.1]
    · rw [if_pos rfl]
      by_cases hk : leAt f 8 1 ∈ [0x50, 0x51, 0x52]
      · rw [if_pos hk, if_neg fun h => h.2.2 hk]
      · rw [if_neg hk, if_pos ⟨hcrc, rfl, hk⟩]
  · rename_i hcrc
    rw [if_neg fun h => hcrc h.1]
    rfl

end

/-- Settles O52: the commands on a port by its state, a flit by its tag and its sequence number. -/
theorem linksRun : Obligations.LinksRun := by
  unfold Obligations.LinksRun
  intro s p
  refine ⟨fun h => falls_of_fallen (linkFell_falls p.val) (congrArg (answer s) (if_pos h)),
    fun h => still_of_answer (congrArg (answer s) (if_neg (Bool.eq_false_iff.1 h))),
    fun h => falls_of_fallen (linkFell_falls p.val) (congrArg (answer s) (if_pos h)),
    fun h => still_of_answer (congrArg (answer s) (if_neg (Bool.eq_false_iff.1 h))),
    fun ht hu => only_of_onPort (onPort_setPort ..) (congrArg (answer s) (if_pos (by rw [ht, hu]; rfl))),
    fun h => still_of_answer (congrArg (answer s) (if_neg ?_)), fun l => ⟨fun h => still_of_answer (exec_linkTrain_idle p l h), ?_⟩,
    fun h => still_of_answer (exec_attestRetry_idle p h), ?_, ?_, ?_⟩
  · rcases h with h | h <;> rw [h]
    · exact fun h => nomatch h
    · rw [Bool.not_true, Bool.and_false]
      exact fun h => nomatch h
  · intro ht hu hl
    have he := exec_linkTrain_up p l ht hu hl
    refine ⟨fun hm => only_of_onPort (onPort_setPort ..) (he.trans (congrArg (answer s) (if_neg (Bool.eq_false_iff.1 hm)))),
      fun hm => starts_of_startShake p.isLt (he.trans (congrArg (answer s) (if_pos hm)))⟩
  · intro hm hu ha hf
    refine starts_of_startShake p.isLt ((exec_attestRetry_up p hm hu).trans ?_)
    rw [ha, if_pos hf]
    rfl
  · intro hm hu ha
    exact (exec_attestRetry_up p hm hu).trans (congrArg (answer s) (if_pos ha))
  · intro f hl
    refine ⟨fun hu => still_of_answer (exec_flit_unheard p (rxFlit_down hu)), ?_, ?_, fun hu hc hk =>
      still_of_answer (exec_flit_unheard p (rxFlit_unkeyed hu hl hc hk)), ?_⟩
    · intro hu hc h
      refine still_of_answer ((exec_flit_control p hl hu hc).trans (congrArg (answer s) (if_neg fun hn => ?_)))
      rcases h with h | h | h
      · exact h hn.1
      · rw [h] at hn
        exact nomatch hn.2.1
      · exact hn.2.2 h
    · intro hu hc hcrc hs hk
      exact ⟨_, (exec_flit_control p hl hu hc).trans (congrArg (answer s) (if_pos ⟨hcrc, hs, hk⟩)),
        State.keeps.settled (keeps_mesh s _ (by decide)), rfl⟩
    · intro key hu hc hk
      have hr := rxFlit_keyed hu hl hc hk
      have he := exec_flitReceive p f s
      have hpass : (flitClass f ≤ 4 ∧ flitTagOk key (s.flitNonce p.val) f = true)
          ↔ (decide (flitClass f ≤ 4) && flitTagOk key (s.flitNonce p.val) f) = true := by rw [Bool.and_eq_true, decide_eq_true_iff]
      refine ⟨fun hp h0 => ?_, fun hp h0 hq => ?_, fun hp h0 hq => ?_, fun hp ht => ?_, fun hp ht => ?_⟩
      · rw [hr, if_pos (hpass.1 hp), if_pos h0] at he
        exact only_of_onPort (flitTaken_onPort (onPort_setPort ..)) he
      · rw [hr, if_pos (hpass.1 hp), if_neg h0, if_pos hq] at he
        exact only_of_onPort (flitTaken_onPort (onPort_setPort ..)) he
      · rw [hr, if_pos (hpass.1 hp), if_neg h0, if_neg hq] at he
        exact only_of_onPort (flitTaken_onPort (onPort_setPort ..)) he
      · rw [hr, if_neg (fun h => hp (hpass.2 h)), if_neg (by omega)] at he
        exact only_of_onPort (flitTaken_onPort (onPort_setPort ..)) he
      · rw [hr, if_neg (fun h => hp (hpass.2 h)), if_pos (by omega), flitTaken_none] at he
        refine falls_of_fallen (linkFell_setPort ?_ ?_) he
        · rfl
        · rfl

end Sys2Proof.Machine
end

section
/-! The exchange that attests a peer and makes the keys: HELLO, KEM and FINISH (14 R337, R338). -/

namespace Sys2Proof.Machine

variable {s t u v : State} {k : Nat}

/-! ### Messages of the exchange -/

/-- A message out leaves the exchanges, and what is counted of them. -/
theorem send_hs (dst type tag attempt aux : Nat) (b : Bytes) (part : Nat) :
    (s.send dst type tag attempt aux b part).mesh.hs = s.mesh.hs
      ∧ (s.send dst type tag attempt aux b part).mesh.attestFails = s.mesh.attestFails := by
  unfold State.send State.emit
  dsimp only
  split
  · exact ⟨rfl, rfl⟩
  · split <;> exact ⟨rfl, rfl⟩

theorem shakeOf_setHs (x : Shake) : (s.setHs k x).shakeOf k = x := mget_mset_self ..

theorem shakeOf_setHs_ne {j : Nat} (x : Shake) (h : j ≠ k) : (s.setHs k x).shakeOf j = s.shakeOf j := mget_mset_ne _ _ _ h

theorem keeps_setHs (x : Shake) : s.keeps (s.setHs k x) [.mesh] := keeps_mesh s _ (by decide)

theorem sendShake_near (h : k < 4) (type : Nat) (b : Bytes) : s.sendShake k type b
    = { s with mesh := { s.mesh with sent := s.mesh.sent ++ [{ port := k, src := s.ownId, dst := 8, type := type, body := b }] } } := if_pos h

/-- A message of an exchange leaves the exchanges. -/
theorem sendShake_keeps (type : Nat) (b : Bytes) : s.keeps (s.sendShake k type b) [.mesh]
    ∧ (s.sendShake k type b).shakeOf k = s.shakeOf k := by
  unfold State.sendShake
  split
  · exact ⟨keeps_mesh s _ (by decide), rfl⟩
  · exact ⟨keeps_send .., congrArg (fun m : Map Shake => mget m k {}) (send_hs ..).1⟩

/-- Exchange k of u has failed: it is counted, and no port or pair key is touched. -/
theorem failShake_fails : u.keeps (u.failShake k) [.mesh] ∧ (u.failShake k).shakeOf k = { st := .failed }
    ∧ (u.failShake k).mesh.attestFails = satInc u.mesh.attestFails ∧ (u.failShake k).mesh.ports = u.mesh.ports
    ∧ (u.failShake k).mesh.pairKeys = u.mesh.pairKeys :=
  ⟨keeps_mesh u _ (by decide), mget_mset_self .., rfl, rfl, rfl⟩

theorem shakeOf_failShake_ne {j : Nat} (h : j ≠ k) : (u.failShake k).shakeOf j = u.shakeOf j := mget_mset_ne _ _ _ h

theorem fails_of_failShake {c : Instr} (he : exec c s = answer s (u.failShake k)) :
    ∃ t, exec c s = .next t ∧ u.keeps t [.mesh] ∧ t.shakeOf k = { st := .failed } ∧ t.mesh.attestFails = satInc u.mesh.attestFails
      ∧ t.mesh.ports = u.mesh.ports ∧ t.mesh.pairKeys = u.mesh.pairKeys := by
  obtain ⟨hk, hh, hf, hp, hq⟩ := failShake_fails (u := u) (k := k)
  exact ⟨_, he, hk.settled, hh, hf, hp, hq⟩

/-! ### HELLO -/

/-- The checks of step 2, as a conjunction. -/
theorem helloOk_iff {r : Roster} {h : Hello} (hr : s.mesh.roster = some r) : s.helloOk k h = true ↔
    Config.mldsaVerify (Config.label 3) (Config.label 2) (h.endorsement.take 64 ++ h.idKey) (h.endorsement.drop 64) = true
    ∧ (∃ m ∈ r.members, m.meshId = h.meshId.val ∧ m.serial = h.serial ∧ m.idDigest = shake 32 h.idKey ∧ m.meshId ≠ s.ownId)
    ∧ h.rosterDigest = s.rosterDigest ∧ h.ownerDigest = s.ownerDigest ∧ (h.lifecycle = 2 ∨ h.lifecycle = 3)
    ∧ r.minFw.toNat ≤ h.version.toNat ∧ (k < 4 → r.partner r.position k = some (h.position.val, h.port.val)) := by
  have hw : (decide (4 ≤ k) || r.partner r.position k == some (h.position.val, h.port.val)) = true
      ↔ (k < 4 → r.partner r.position k = some (h.position.val, h.port.val)) := by
    rw [Bool.or_eq_true, decide_eq_true_iff, beq_iff_eq]
    by_cases hk : k < 4
    · simp [hk, Nat.not_le.2 hk]
    · simp [hk, Nat.not_lt.1 hk]
  unfold State.helloOk
  rw [hr]
  simp only [Bool.and_eq_true, hw, List.any_eq_true, beq_iff_eq, bne_iff_ne, Bool.or_eq_true, decide_eq_true_iff, and_assoc]

section
variable {h : Hello}

/-- An exchange whose peer's HELLO h has been answered with ciphertext ct. -/
def Shake.answered (x : Shake) (h : Hello) (rnd ct : Bytes) : Shake :=
  { x with
    st := .helloOk, theirs := (Hello.wire h), peer := h.meshId.val, idKey := h.idKey, ct := ct,
    secret := Config.take 32 (Config.mlkemEncapSs h.encapKey rnd) }

/-- The exchange as a HELLO finds it: one that is not yet under way starts first. -/
def State.begun (s : State) (k : Nat) : State := if (s.shakeOf k).st = .sent then s else s.startShake k

/-- The Warden's work that answers a HELLO: a ciphertext for the peer's key and a signature of both HELLOs over it. -/
def helloWork (u : State) (k : Nat) (h : Hello) (o : Opnd) : V (Bytes × Bytes × Bytes) := do
  let rnd ← random o 32
  let ct := Config.take 1088 (Config.mlkemEncapCt h.encapKey rnd)
  let sig ← identitySign o shakeContext (shakeDigest u.ownId h.meshId.val (u.shakeOf k).mine (Hello.wire h) ct)
  pure (rnd, ct, sig)

theorem takeHello_unsent (hx : ((s.begun k).shakeOf k).st ≠ .sent) : s.takeHello k h = s.begun k := by
  unfold State.takeHello
  exact if_pos hx

theorem takeHello_refused (hx : ((s.begun k).shakeOf k).st = .sent) (hc : (s.begun k).helloOk k h = false) :
    s.takeHello k h = (s.begun k).failShake k := by
  unfold State.takeHello
  refine (if_neg (not_not.2 hx)).trans (if_pos ?_)
  rw [Bool.not_eq_true']
  exact hc

theorem takeHello_checked (hx : ((s.begun k).shakeOf k).st = .sent) (hc : (s.begun k).helloOk k h = true) :
    s.takeHello k h = match (s.begun k).wardenWork (helloWork (s.begun k) k h) with
      | (none, _) => (s.begun k).failShake k
      | (some (rnd, ct, sig), t) =>
        (t.setHs k (((s.begun k).shakeOf k).answered h rnd ct)).sendShake k 0x51 (ct ++ sig) := by
  unfold State.takeHello
  refine (if_neg (not_not.2 hx)).trans ((if_neg ?_).trans ?_)
  · rw [Bool.not_eq_true', Bool.not_eq_false]
    exact hc
  · rfl

theorem takeHello_undrawn (hx : ((s.begun k).shakeOf k).st = .sent) (hc : (s.begun k).helloOk k h = true)
    (hw : (s.begun k).wardenWork (helloWork (s.begun k) k h) = (none, v)) : s.takeHello k h = (s.begun k).failShake k := by
  rw [takeHello_checked hx hc, hw]

theorem takeHello_answered {rnd ct sig : Bytes} (hx : ((s.begun k).shakeOf k).st = .sent) (hc : (s.begun k).helloOk k h = true)
    (hw : (s.begun k).wardenWork (helloWork (s.begun k) k h) = (some (rnd, ct, sig), v)) : s.takeHello k h =
      (v.setHs k (((s.begun k).shakeOf k).answered h rnd ct)).sendShake k 0x51 (ct ++ sig) := by
  rw [takeHello_checked hx hc, hw]

/-- What the answer to a HELLO leaves: the exchange as it then stands, and the message at the end of what is sent. -/
theorem answered_stands (x : Shake) (b : Bytes) :
    v.keeps ((v.setHs k x).sendShake k 0x51 b) [.mesh] ∧ ((v.setHs k x).sendShake k 0x51 b).shakeOf k = x
      ∧ (k < 4 → ((v.setHs k x).sendShake k 0x51 b).mesh.ports = v.mesh.ports
          ∧ ((v.setHs k x).sendShake k 0x51 b).mesh.sent = v.mesh.sent ++ [{ port := k, src := v.ownId, dst := 8, type := 0x51, body := b }]) := by
  obtain ⟨hk, hs⟩ := sendShake_keeps (s := v.setHs k x) (k := k) 0x51 b
  refine ⟨(keeps_setHs x).trans hk, hs.trans (shakeOf_setHs x), fun h4 => ?_⟩
  rw [sendShake_near h4]
  exact ⟨rfl, rfl⟩

variable (p : Fin 4)

theorem exec_hello_unheard (hn : s.meshed = false ∨ (s.port p.val).up = false) : exec (.hello p h) s = answer s s := by
  refine congrArg (answer s) (if_neg ?_)
  rcases hn with h | h <;> rw [h]
  · exact fun h => nomatch h
  · rw [Bool.and_false]
    exact fun h => nomatch h

theorem exec_hello_heard (hm : s.meshed = true) (hu : (s.port p.val).up = true) :
    exec (.hello p h) s = answer s (s.takeHello (s.shakeKey p.val h.meshId.val) h) :=
  congrArg (answer s) (if_pos (by rw [hm, hu]; rfl))

end

/-! ### KEM -/

section
variable {ct sig : Bytes}

/-- The peer of exchange k has signed ciphertext ct. -/
def State.kemGood (s : State) (k : Nat) (ct sig : Bytes) : Prop :=
  Config.mldsaVerify (s.shakeOf k).idKey shakeContext
    (shakeDigest s.ownId (s.shakeOf k).peer (s.shakeOf k).mine (s.shakeOf k).theirs ct) sig = true ∧ ct.length = 1088

/-- The keys of exchange k once the peer's ciphertext has come. -/
def State.kemKeys (s : State) (k : Nat) (ct : Bytes) : Bytes :=
  shakeKeys s.ownId (s.shakeOf k).peer (s.shakeOf k).secret (Config.take 32 (Config.mlkemDecap (s.shakeOf k).seed ct))
    (shakeDigest s.ownId (s.shakeOf k).peer (s.shakeOf k).mine (s.shakeOf k).theirs (s.shakeOf k).ct)
    (shakeDigest s.ownId (s.shakeOf k).peer (s.shakeOf k).mine (s.shakeOf k).theirs ct)

theorem kemBad_iff : (!Config.mldsaVerify (s.shakeOf k).idKey shakeContext
    (shakeDigest s.ownId (s.shakeOf k).peer (s.shakeOf k).mine (s.shakeOf k).theirs ct) sig || ct.length != 1088) = true
      ↔ ¬s.kemGood k ct sig := by
  unfold State.kemGood
  rw [Bool.or_eq_true, Bool.not_eq_true', bne_iff_ne, ← Bool.not_eq_true]
  tauto

theorem takeKem_refused (h : ¬s.kemGood k ct sig) : s.takeKem k ct sig = s.failShake k := by
  unfold State.takeKem
  exact if_pos (kemBad_iff.2 h)

/-- The state in which exchange k has its keys. -/
def State.keyed (s : State) (k : Nat) (ct : Bytes) : State :=
  s.setHs k { s.shakeOf k with st := .keyed, keys := s.kemKeys k ct, seed := [], secret := [] }

theorem takeKem_near (hk : k < 4) (h : s.kemGood k ct sig) :
    s.takeKem k ct sig = ((s.keyed k ct).takeKeys k (s.shakeOf k).peer (s.kemKeys k ct)).sendShake k 0x52 [] := by
  unfold State.takeKem
  refine (if_neg fun hb => kemBad_iff.1 hb h).trans ?_
  dsimp only
  rw [if_pos hk]
  rfl

/-- The first flit under new keys takes a credit and counter value 0. -/
theorem putFlit_first (x : Port) (key : Bytes) :
    ({ x with txKey := some key, txCtr := 0, txSeq := 0, replay := [], credits := [] } : Port).putFlit 4 0
      = { x with txKey := some key, txCtr := 1, txSeq := 1, replay := [1], credits := [(8, 7)] } := by
  have hcredit : ({ x with txKey := some key, txCtr := 0, txSeq := 0, replay := [], credits := [] } : Port).credit 4 0 = 8 := rfl
  have hctr : nextCtr 0 (some key) = (1, some key) := by
    unfold nextCtr
    rw [if_neg (by decide)]
    rfl
  unfold Port.putFlit
  dsimp only
  rw [hcredit, hctr, if_pos ⟨by decide, by decide⟩]
  rfl

/-- The port's registers after new keys: FINISH is out as its first flit. -/
theorem takeKeys_port (p peer : Nat) (keys : Bytes) :
    let y := (s.takeKeys p peer keys).port p
    y.txKey = some (if s.ownId < peer then keys.take 32 else slice keys 32 32)
      ∧ y.rxKey = some (if s.ownId < peer then slice keys 32 32 else keys.take 32)
      ∧ y.rxCtr = 0 ∧ y.txCtr = 1 ∧ y.replay = [1] ∧ y.attested = (s.port p).attested := by
  intro y
  have hy : y = Port.putFlit { s.port p with
      txKey := some (if s.ownId < peer then keys.take 32 else slice keys 32 32)
      rxKey := some (if s.ownId < peer then slice keys 32 32 else keys.take 32)
      txCtr := 0, rxCtr := 0, txSeq := 0, rxSeq := 0, acked := 0, replay := [], waiting := [], credits := [] } 4 0 := by
    unfold y State.takeKeys
    dsimp only
    rw [State.port_setPort]
  rw [hy, putFlit_first { s.port p with
      rxKey := some (if s.ownId < peer then slice keys 32 32 else keys.take 32)
      rxCtr := 0, rxSeq := 0, acked := 0, waiting := [] }]
  exact ⟨rfl, rfl, rfl, rfl, rfl, rfl⟩

variable (p : Fin 4)

theorem exec_kem_near (ha : (s.port p.val).attested = false) :
    exec (.kem p ct sig) s = answer s (if (s.shakeOf p.val).st = .helloOk then s.takeKem p.val ct sig else s) :=
  congrArg (answer s) (if_neg (Bool.eq_false_iff.1 ha))

theorem exec_kem_owned (ha : (s.port p.val).attested = true) (ho : s.kemOwner ct sig = some k) :
    exec (.kem p ct sig) s = answer s (s.takeKem k ct sig) := by
  unfold exec
  dsimp only
  unfold execKem
  rw [if_pos ha, ho]

/-- An exchange that waits for its ciphertext has failed, and any other stands. -/
def State.kemless (s : State) (k : Nat) : State := if (s.shakeOf k).st = .helloOk then s.failShake k else s

theorem kemless_keeps : s.keeps (s.kemless k) [.mesh] ∧ (s.kemless k).mesh.ports = s.mesh.ports := by
  unfold State.kemless
  split
  · exact ⟨failShake_fails.1, rfl⟩
  · exact ⟨.refl s _, rfl⟩

theorem shakeOf_kemless : (s.kemless k).shakeOf k = if (s.shakeOf k).st = .helloOk then { st := .failed } else s.shakeOf k := by
  unfold State.kemless
  split
  · exact failShake_fails.2.1
  · rfl

theorem shakeOf_kemless_ne {j : Nat} (h : j ≠ k) : (s.kemless k).shakeOf j = s.shakeOf j := by
  unfold State.kemless
  split
  · exact shakeOf_failShake_ne h
  · rfl

theorem kemless_fold (l : List Nat) (hl : l.Nodup) : ∀ s : State,
    s.keeps (l.foldl State.kemless s) [.mesh] ∧ (l.foldl State.kemless s).mesh.ports = s.mesh.ports
      ∧ ∀ k, (l.foldl State.kemless s).shakeOf k
          = if k ∈ l ∧ (s.shakeOf k).st = .helloOk then { st := .failed } else s.shakeOf k := by
  induction l with
  | nil => exact fun s => ⟨.refl s _, rfl, fun k => (if_neg fun h => nomatch h.1).symm⟩
  | cons j l ih =>
    intro s
    obtain ⟨hj, hl⟩ := List.nodup_cons.1 hl
    obtain ⟨hk, hp, hs⟩ := ih hl (s.kemless j)
    refine ⟨kemless_keeps.1.trans hk, hp.trans kemless_keeps.2, fun k => (hs k).trans ?_⟩
    by_cases he : k = j
    · subst he
      rw [if_neg fun h => hj h.1, shakeOf_kemless]
      simp only [List.mem_cons_self, true_and]
    · rw [shakeOf_kemless_ne he]
      simp only [List.mem_cons, he, false_or]

theorem exec_kem_unowned {p : Fin 4} (ha : (s.port p.val).attested = true) (ho : s.kemOwner ct sig = none) :
    exec (.kem p ct sig) s = answer s (((List.range 8).map (8 + ·)).foldl State.kemless s) := by
  unfold exec
  dsimp only
  unfold execKem
  rw [if_pos ha, ho]
  rfl

end

/-! ### FINISH -/

/-- The state in which exchange k is done and its pair key stands. -/
def State.keysStand (s : State) (k : Nat) : State :=
  let t := s.setHs k { st := .done, peer := (s.shakeOf k).peer }
  { t with mesh := { t.mesh with
    pairKeys := mset t.mesh.pairKeys (s.shakeOf k).peer (slice (s.shakeOf k).keys 64 32), pairCtr := mset t.mesh.pairCtr (s.shakeOf k).peer 0 } }

theorem paired_eq : s.paired k
    = if mhas s.mesh.beats (s.shakeOf k).peer then (s.keysStand k).setMember (s.shakeOf k).peer true else s.keysStand k := rfl

theorem keysStand_paired : s.keeps (s.keysStand k) [.mesh] ∧ (s.keysStand k).mesh.ports = s.mesh.ports
    ∧ (s.keysStand k).shakeOf k = { st := .done, peer := (s.shakeOf k).peer }
    ∧ mget (s.keysStand k).mesh.pairKeys (s.shakeOf k).peer [] = slice (s.shakeOf k).keys 64 32
    ∧ mget (s.keysStand k).mesh.pairCtr (s.shakeOf k).peer 0 = 0 :=
  ⟨keeps_mesh s _ (by decide), rfl, mget_mset_self .., mget_mset_self .., mget_mset_self ..⟩

/-- The state behind a FINISH whose body is b. -/
def finishTaken (p : Nat) (f : Bytes) (t : State) (b : Bytes) : State :=
  if flitClass f ≠ 4 ∨ leAt b 0 1 ≠ 0x52 then t
  else if (t.port p).attested then
    if (t.shakeOf (8 + bits (leAt b 1 1) 0 3)).st = .keyed then t.paired (8 + bits (leAt b 1 1) 0 3) else t
  else if (t.shakeOf p).st = .keyed then
    ((t.paired p).setPort p { t.port p with attested := true, peerId := (t.shakeOf p).peer }).pairFar
  else t

theorem exec_finish (p : Fin 4) (f : Bytes) (s : State) :
    exec (.finish p f) s = answer s ((s.rxFlit p.val f).2.elim (s.rxFlit p.val f).1 (finishTaken p.val f (s.rxFlit p.val f).1)) := by
  unfold exec
  dsimp only
  unfold execFinish
  rcases s.rxFlit p.val f with ⟨t, _ | b⟩ <;> rfl

theorem exec_finish_discarded {p : Fin 4} {f : Bytes} (h : s.rxFlit p.val f = (t, none)) : exec (.finish p f) s = answer s t := by
  rw [exec_finish, h]
  rfl

theorem exec_finish_taken {p : Fin 4} {f b : Bytes} (h : s.rxFlit p.val f = (t, some b)) :
    exec (.finish p f) s = answer s (finishTaken p.val f t b) := by
  rw [exec_finish, h]
  rfl

/-- Settles O53: each message of the exchange by its state (14 R337). -/
theorem meshAttests : Obligations.MeshAttests := by
  unfold Obligations.MeshAttests
  intro s p
  refine ⟨fun h => ⟨fun hn => still_of_answer (exec_hello_unheard p hn), fun hm hu => ?_⟩, fun ct sig => ?_, fun f => ?_⟩
  · have he := exec_hello_heard (h := h) p hm hu
    generalize s.shakeKey p.val h.meshId.val = k at he ⊢
    refine ⟨fun hx => he.trans (congrArg (answer s) (takeHello_unsent hx)),
      fun hx hc => fails_of_failShake (he.trans (congrArg (answer s) (takeHello_refused hx hc))), fun r hr => helloOk_iff hr,
      fun hx hc v hw => fails_of_failShake (he.trans (congrArg (answer s) (takeHello_undrawn hx hc hw))), ?_⟩
    intro rnd ct sig v hx hc hw
    obtain ⟨hk, hs, hn⟩ := answered_stands (v := v) (k := k) (((s.begun k).shakeOf k).answered h rnd ct) (ct ++ sig)
    exact ⟨_, he.trans (congrArg (answer s) (takeHello_answered hx hc hw)), hk.settled, hs, hn⟩
  · have hnear := exec_kem_near (s := s) (ct := ct) (sig := sig) p
    refine ⟨fun ha hx => still_of_answer ((hnear ha).trans (congrArg (answer s) (if_neg hx))), fun ha hx hg => ?_, fun ha hx hg => ?_,
      fun k ha ho => exec_kem_owned p ha ho, fun ha ho => ?_⟩
    · exact fails_of_failShake ((hnear ha).trans (congrArg (answer s) ((if_pos hx).trans (takeKem_refused hg))))
    · have he := (hnear ha).trans (congrArg (answer s) ((if_pos hx).trans (takeKem_near p.isLt hg)))
      rw [sendShake_near p.isLt] at he
      obtain ⟨htx, hrx, hrc, htc, hrp, hat⟩ := takeKeys_port (s := s.keyed p.val ct) p.val (s.shakeOf p.val).peer (s.kemKeys p.val ct)
      refine ⟨_, he, State.keeps.settled (((keeps_setHs _).trans (keeps_mesh _ _ (by decide))).trans (keeps_mesh _ _ (by decide))),
        mget_mset_self .., htx, hrx, hrc, htc, hrp, hat.trans ha, fun q hq => State.port_setPort_ne (s.keyed p.val ct) _ hq, rfl, rfl⟩
    · have he := exec_kem_unowned (ct := ct) (sig := sig) ha ho
      have hmem : ∀ i < 8, 8 + i ∈ (List.range 8).map (8 + ·) := fun i hi => List.mem_map_of_mem (List.mem_range.2 hi)
      have hnodup : ((List.range 8).map (8 + ·)).Nodup := by decide
      generalize (List.range 8).map (8 + ·) = l at he hmem hnodup
      obtain ⟨hk, hp, hs⟩ := kemless_fold l hnodup s
      refine ⟨_, he, hk.settled, hp, fun i hi => (hs (8 + i)).trans ?_⟩
      simp only [hmem i hi, true_and]
  · refine ⟨fun t h => exec_finish_discarded h, fun t b h => ?_⟩
    have he := exec_finish_taken h
    unfold finishTaken at he
    refine ⟨fun hc => he.trans (congrArg (answer s) (if_pos hc)), fun hc hb ha hx => ?_, fun hc hb ha hx => ?_,
      fun hc hb ha => ⟨fun hx => ?_, fun hx => ?_⟩⟩
    all_goals rw [if_neg (by rintro (h | h); exacts [h hc, h hb]), ha] at he
    · exact he.trans (congrArg (answer s) (if_neg hx))
    · exact ⟨_, keysStand_paired, he.trans (congrArg (answer s) (if_pos hx))⟩
    · exact he.trans (congrArg (answer s) (if_neg hx))
    · exact ⟨_, keysStand_paired, he.trans (congrArg (answer s) (if_pos hx))⟩

end Sys2Proof.Machine
end

section
/-! OPEN and CLOSE of cipher and digest pages and of PAU contexts (07 R188; 08 R209; 09 R228). -/

namespace Sys2Proof.Machine

variable {s t : State}

/-! ### Waiting OPENs -/

section
variable {c e p : Nat}

theorem filter_asks_nil {l : List OpenReq} (h : ∀ o ∈ l, ¬(o.cl = c ∧ o.eng = e ∧ o.part = p)) :
    (l.filter fun o => o.cl == c && o.eng == e && o.part == p) = [] := by
  refine List.filter_eq_nil_iff.2 fun o ho hb => h o ho ?_
  simpa only [Bool.and_eq_true, beq_iff_eq, and_assoc] using hb

theorem topOpen_none (h : ∀ o ∈ s.eng.opens, ¬(o.cl = c ∧ o.eng = e ∧ o.part = p)) : s.topOpen c e p = none := by
  unfold State.topOpen
  rw [filter_asks_nil h]
  rfl

/-- Where no other OPEN asks, the last one is the first to be served. -/
theorem topOpen_last {l : List OpenReq} {o : OpenReq} (ho : s.eng.opens = l ++ [o])
    (h : ∀ o ∈ l, ¬(o.cl = c ∧ o.eng = e ∧ o.part = p)) (hc : o.cl = c) (he : o.eng = e) (hp : o.part = p) : s.topOpen c e p = some o := by
  have hf : (s.eng.opens.filter fun o => o.cl == c && o.eng == e && o.part == p) = [o] := by
    rw [ho, List.filter_append, filter_asks_nil h, List.nil_append, List.filter_cons_of_pos (by simp [hc, he, hp])]
    rfl
  unfold State.topOpen
  rw [hf]
  rfl

theorem serveOpens_idle (h : ∀ o ∈ s.eng.opens, ¬(o.cl = c ∧ o.eng = e ∧ o.part = p)) (f : Nat) : s.serveOpens c e p f = s := by
  cases f with
  | zero => rfl
  | succ f =>
    unfold State.serveOpens
    rw [topOpen_none h]

theorem serveEngine_idle (h : s.eng.opens = []) : s.serveEngine c e p = s :=
  serveOpens_idle (fun o ho => by rw [h] at ho; exact absurd ho List.not_mem_nil) _

end

/-! ### Grants -/

section
variable {who c e p : Nat}

/-- Pages given leave the waiting OPENs and the OPENs' answers. -/
theorem givePages_opens (ns : List Nat) : ∀ s : State, (s.givePages who c e p ns).1.eng.opens = s.eng.opens
    ∧ (s.givePages who c e p ns).1.eng.openRes = s.eng.openRes := by
  induction ns with
  | nil => exact fun s => ⟨rfl, rfl⟩
  | cons n r ih =>
    intro s
    unfold State.givePages
    dsimp only
    obtain ⟨h, h'⟩ := ih _
    refine ⟨h.trans ?_, h'.trans ?_⟩
    · split <;> rfl
    · split <;> rfl

/-- A digest page that who holds stays with it as further pages are given. -/
theorem givePages_holds (k : Nat) (ns : List Nat) : ∀ s : State, (s.dpage k).holder = who + 1 →
    ((s.givePages who c 3 p ns).1.dpage k).holder = who + 1 := by
  induction ns with
  | nil => exact fun s h => h
  | cons n r ih =>
    intro s h
    unfold State.givePages
    refine ih _ ?_
    dsimp only [if_pos]
    by_cases hk : k = dpageKey c p n
    · subst hk
      rw [if_pos rfl, State.dpage_setDpage]
    · rw [if_pos rfl, State.dpage_setDpage_ne _ _ hk]
      exact h

theorem givePages_dge (ns : List Nat) : ∀ s : State, ∀ i ∈ ns, ((s.givePages who c 3 p ns).1.dpage (dpageKey c p i)).holder = who + 1 := by
  induction ns with
  | nil => exact fun s i hi => absurd hi List.not_mem_nil
  | cons n r ih =>
    intro s i hi
    unfold State.givePages
    rcases List.mem_cons.1 hi with rfl | hi
    · refine givePages_holds _ _ _ ?_
      dsimp only
      rw [if_pos rfl, State.dpage_setDpage]
    · exact ih _ i hi

end

section
variable {o : OpenReq}

/-- A granted OPEN of one cipher page: the lowest closed page, and its number as the answer. -/
theorem grantOpen_cipher {n : Nat} {r : List Nat} (he : o.eng ≠ 3) (hc : o.count = 1) (hl : s.closedPages o.cl o.eng o.part = n :: r) :
    let k := pageKey o.cl o.eng o.part n
    let ab := (s.cpage k).state == .abandoned
    (s.grantOpen o).cpage k = { s.cpage k with holder := o.who + 1, desc := s.descOf o.who, state := if ab then .abandoned else .opened }
      ∧ (∀ j, j ≠ k → (s.grantOpen o).cpage j = s.cpage j) ∧ (s.grantOpen o).eng.opens = s.eng.opens.erase o
      ∧ mget (s.grantOpen o).eng.openRes (openKey o.who o.cl o.eng) 0 = BitVec.ofNat 32 (n + if ab then 0x100 else 0) := by
  intro k ab
  have hg : s.grantOpen o = { s with eng := { s.eng with
      opens := s.eng.opens.erase o
      pages := mset s.eng.pages k { s.cpage k with
        holder := o.who + 1, desc := s.descOf o.who, state := if (s.cpage k).state = .abandoned then .abandoned else .opened }
      openRes := mset s.eng.openRes (openKey o.who o.cl o.eng) (BitVec.ofNat 32 (n + if ab then 0x100 else 0)) } } := by
    unfold State.grantOpen
    rw [hl, hc]
    dsimp only [List.take, State.givePages]
    simp only [if_neg he, Bool.or_false]
    rfl
  have hab : (if (s.cpage k).state = .abandoned then PState.abandoned else .opened) = if ab then .abandoned else .opened := by
    simp only [ab, beq_iff_eq]
  rw [hg, hab]
  exact ⟨mget_mset_self .., fun j hj => mget_mset_ne _ _ _ hj, rfl, mget_mset_self ..⟩

/-- A granted OPEN of digest pages: the lowest closed pages, and their set as the answer. -/
theorem grantOpen_dge (he : o.eng = 3) :
    let ns := (s.closedPages o.cl o.eng o.part).take o.count
    (∀ i ∈ ns, ((s.grantOpen o).dpage (dpageKey o.cl o.part i)).holder = o.who + 1) ∧ (s.grantOpen o).eng.opens = s.eng.opens.erase o
      ∧ mget (s.grantOpen o).eng.pageSet (o.who * 8 + o.cl) 0 = BitVec.ofNat 32 (ns.map (2 ^ ·)).sum := by
  intro ns
  have hgive := givePages_dge (who := o.who) (c := o.cl) (p := o.part) ns { s with eng := { s.eng with opens := s.eng.opens.erase o } }
  have hopens := (givePages_opens (who := o.who) (c := o.cl) (e := o.eng) (p := o.part) ns
    { s with eng := { s.eng with opens := s.eng.opens.erase o } }).1
  rw [← he] at hgive
  unfold State.grantOpen
  dsimp only
  rw [if_pos he]
  exact ⟨hgive, hopens, mget_mset_self ..⟩

end

/-! ### An OPEN (07 R188; 08 R209) -/

section
variable {w c e n p : Nat} {m : Bool}

/-- The OPEN that who makes. -/
def openReq (w c e n p : Nat) : OpenReq := { who := w, part := p, cl := c, eng := e, count := n }

/-- The state in which an OPEN has entered. -/
def State.opening (s : State) (w c e n p : Nat) : State :=
  s.setEng { s.eng with
    opens := s.eng.opens ++ [openReq w c e n p]
    openRes := mdel s.eng.openRes (openKey w c e)
    pageSet := if e = 3 then mdel s.eng.pageSet (w * 8 + c) else s.eng.pageSet }

theorem keeps_opening : s.keeps (s.opening w c e n p) [.eng] := keeps_eng s _ (by decide)

theorem openPages_barred (h : s.tagOf w = none ∨ reachesCl w c = false ∨ s.opened w c e = true) : s.openPages w c e n = s := by
  unfold State.openPages
  split
  · rfl
  · rename_i ht
    refine if_pos ?_
    rcases h with h | h | h
    · rw [h] at ht
      cases ht
    · rw [h]
      rfl
    · rw [h, Bool.or_true]

theorem openPages_enters (ht : s.tagOf w = some (p, m)) (hr : reachesCl w c = true) (ho : s.opened w c e = false) :
    s.openPages w c e n = (s.opening w c e n p).serveEngine c e p := by
  unfold State.openPages
  rw [ht, hr, ho]
  rfl

section
variable (hf : ∀ o ∈ s.eng.opens, ¬(o.cl = c ∧ o.eng = e ∧ o.part = p))
include hf

theorem openReq_new : openReq w c e n p ∉ s.eng.opens := fun h => hf _ h ⟨rfl, rfl, rfl⟩

theorem opens_erase_last : (s.opening w c e n p).eng.opens.erase (openReq w c e n p) = s.eng.opens := by
  refine (List.erase_append_right _ (openReq_new hf)).trans ?_
  rw [List.erase_cons_head, List.append_nil]

/-- The only OPEN that asks is granted where its pages are closed and the engine grants. -/
theorem serveEngine_opening : (s.opening w c e n p).serveEngine c e p
    = if s.grants c e && decide (n ≤ (s.closedPages c e p).length) then (s.opening w c e n p).grantOpen (openReq w c e n p)
      else s.opening w c e n p := by
  have htop : (s.opening w c e n p).topOpen c e p = some (openReq w c e n p) := topOpen_last rfl hf rfl rfl rfl
  have hlen : (s.opening w c e n p).eng.opens.length = s.eng.opens.length + 1 := List.length_append ..
  have hopens : ((s.opening w c e n p).grantOpen (openReq w c e n p)).eng.opens = s.eng.opens := by
    by_cases he : e = 3
    · exact (grantOpen_dge he).2.1.trans (opens_erase_last hf)
    · refine Eq.trans ?_ (opens_erase_last (w := w) (n := n) hf)
      unfold State.grantOpen
      dsimp only
      rw [if_neg (show (openReq w c e n p).eng ≠ 3 from he)]
      exact (givePages_opens ..).1
  unfold State.serveEngine
  rw [hlen]
  unfold State.serveOpens
  rw [htop]
  dsimp only
  have hg : (s.opening w c e n p).grants c e = s.grants c e := rfl
  have hcl : (s.opening w c e n p).closedPages c e p = s.closedPages c e p := rfl
  rw [hg, hcl]
  refine if_congr Iff.rfl (serveOpens_idle ?_ _) rfl
  rw [hopens]
  exact hf

end

end

/-! ### PAU contexts -/

section
variable {w : Nat}

/-- The PAU of half h with more free contexts. -/
def State.freerPau (s : State) (h : Nat) : Nat := if (s.freeCtxs (2 * h)).length < (s.freeCtxs (2 * h + 1)).length then 2 * h + 1 else 2 * h

/-- Who waits for a context. -/
def State.awaitsCtx (s : State) (w : Nat) (q : List Nat) : State :=
  s.setEng { s.eng with pauWait := mset s.eng.pauWait (halfOf w) (q ++ [w]), pauRes := mdel s.eng.pauRes w }

/-- Who is given context k of PAU u. -/
def State.giveCtx (s : State) (w u k : Nat) : State :=
  let x := s.ctx (4 * u + k)
  s.setCtx (4 * u + k) { x with
    holder := w + 1, desc := s.descOf w, part := ((s.tagOf w).map (·.1)).getD 0, state := if x.state = .abandoned then .abandoned else .opened }

theorem servePau_one {h : Nat} (hq : mget s.eng.pauWait h [] = [w]) :
    (s.freeCtxs (s.freerPau h) = [] → s.servePau h 1 = s)
    ∧ ∀ k r, s.freeCtxs (s.freerPau h) = k :: r →
        ∃ v, s.servePau h 1 = { s.giveCtx w (s.freerPau h) k with eng := { (s.giveCtx w (s.freerPau h) k).eng with
          pauWait := mset s.eng.pauWait h [], pauRes := v } } := by
  unfold State.servePau
  rw [hq]
  dsimp only
  unfold State.freerPau
  split
  · rename_i hlt
    refine ⟨fun h => ?_, fun k r h => ?_⟩
    · rw [h]
    · rw [h]
      exact ⟨_, rfl⟩
  · rename_i hlt
    refine ⟨fun h => ?_, fun k r h => ?_⟩
    · rw [h]
    · rw [h]
      exact ⟨_, rfl⟩

/-- The one who waits is given the lowest free context of the half's freer PAU. -/
theorem servePau_gives {h n : Nat} {r : List Nat} (hq : mget s.eng.pauWait h [] = [w]) (hf : s.freeCtxs (s.freerPau h) = n :: r) :
    let x := (s.servePau h 1).ctx (4 * s.freerPau h + n)
    x.holder = w + 1 ∧ x.part = ((s.tagOf w).map (·.1)).getD 0 ∧ x.desc = s.descOf w ∧ mget (s.servePau h 1).eng.pauWait h [] = [] := by
  obtain ⟨v, hv⟩ := (servePau_one hq).2 n r hf
  have hctx : (s.giveCtx w (s.freerPau h) n).ctx (4 * s.freerPau h + n) = _ := mget_mset_self ..
  rw [hv]
  exact ⟨congrArg Ctx.holder hctx, congrArg Ctx.part hctx, congrArg Ctx.desc hctx, mget_mset_self ..⟩

end

/-! ### CLOSE -/

theorem dropPage_drops {c e p n : Nat} (ho : s.eng.opens = []) :
    (s.dropPage c e p n false).cpage (pageKey c e p n) = {}
      ∧ ∀ j, j ≠ pageKey c e p n → (s.dropPage c e p n false).cpage j = s.cpage j := by
  unfold State.dropPage
  dsimp only
  rw [if_neg Bool.false_ne_true, serveEngine_idle]
  · exact ⟨mget_mdel_self .., fun j hj => mget_mdel_ne _ _ hj⟩
  · exact ho

theorem breakChains_opens (f : Nat) : ∀ (s : State) (k : Nat), (s.breakChains f k).eng.opens = s.eng.opens := by
  induction f with
  | zero => exact fun s k => rfl
  | succ f ih =>
    intro s k
    unfold State.breakChains
    refine List.foldlRecOn (motive := fun t : State => t.eng.opens = s.eng.opens) _ _ rfl fun t h i _ => ?_
    dsimp only
    split
    · exact (ih _ _).trans h
    · exact h

section
variable {c who k n : Nat}

theorem enterDge_opens : (s.enterDge k n).eng.opens = s.eng.opens := by
  unfold State.enterDge
  dsimp only
  split <;> rfl

theorem enterDge_dpage_ne {j : Nat} (h : j ≠ k) : (s.enterDge k n).dpage j = s.dpage j := by
  unfold State.enterDge
  dsimp only
  split <;> exact State.dpage_setDpage_ne _ _ h

theorem nextDge_opens : (s.nextDge c who).eng.opens = s.eng.opens := by
  unfold State.nextDge
  split
  · split
    · rfl
    · exact enterDge_opens
  · rfl

/-- A page that is not kept makes no request. -/
theorem nextDge_absent (h : ∀ x ∈ s.eng.dpages, x.1 ≠ k) : (s.nextDge c who).dpage k = s.dpage k := by
  unfold State.nextDge
  split
  · rename_i x hx
    split
    · rfl
    · exact enterDge_dpage_ne (h x (List.mem_of_find?_eq_some hx)).symm
  · rfl

/-- Nothing of digest page k is kept. -/
def State.dpageGone (s : State) (k : Nat) : State :=
  { s with eng := { s.eng with saved := mdel s.eng.saved k, dpages := mdel s.eng.dpages k } }

theorem nextDge_dpageGone (s : State) : ((s.dpageGone k).nextDge c who).dpage k = {} := by
  refine (nextDge_absent fun x hx => ?_).trans (mget_mdel_self ..)
  simpa using (List.mem_filter.1 hx).2

end

theorem dropDpage_closes {c p n : Nat} : ∃ u : State, u.eng.opens = s.eng.opens
    ∧ s.dropDpage c p n false
      = ((u.dpageGone (dpageKey c p n)).nextDge c ((s.dpage (dpageKey c p n)).holder - 1)).serveEngine c 3 p := by
  unfold State.dropDpage
  dsimp only
  rw [if_neg Bool.false_ne_true, if_neg Bool.false_ne_true]
  refine ⟨_, ?_, rfl⟩
  exact breakChains_opens ..

theorem dropDpage_drops {c p n : Nat} (ho : s.eng.opens = []) : (s.dropDpage c p n false).dpage (dpageKey c p n) = {} := by
  obtain ⟨u, hu, he⟩ := dropDpage_closes (s := s) (c := c) (p := p) (n := n)
  rw [he, serveEngine_idle (s := (u.dpageGone _).nextDge _ _) (nextDge_opens.trans (hu.trans ho))]
  exact nextDge_dpageGone u

theorem dropCtx_drops {k : Nat} (hq : mget s.eng.pauWait (k / 4 / 2) [] = []) :
    (s.dropCtx k false).ctx k = {} ∧ ∀ j, j ≠ k → (s.dropCtx k false).ctx j = s.ctx j := by
  unfold State.dropCtx
  dsimp only
  rw [if_neg Bool.false_ne_true]
  have hlen : (mget (s.withdrawReq (8 + k / 4) 0 fun q => q.page == k % 4).eng.pauWait (k / 4 / 2) []).length = 0 := congrArg List.length hq
  rw [hlen]
  exact ⟨mget_mdel_self .., fun j hj => mget_mdel_ne _ _ hj⟩

/-! ### The obligation -/

section
variable (who : Who) (c : Cl)

theorem exec_engineClose {a : PageAddr} {k : Nat} (h : s.heldPage a = some k) :
    exec (.engineClose a) s = answer s (s.dropPage (pkCl k) (pkEng k) (pkPart k) (pkPage k) false) := by
  unfold exec
  dsimp only
  unfold execEngineClose
  rw [h]

theorem exec_engineClose_none {a : PageAddr} (h : s.heldPage a = none) : exec (.engineClose a) s = answer s s := by
  unfold exec
  dsimp only
  unfold execEngineClose
  rw [h]

theorem exec_dgeClose {a : DgeAddr} {k : Nat} (h : s.heldDpage a = some k) :
    exec (.dgeClose a) s = answer s (s.dropDpage (dkCl k) (pkPart k) (pkPage k) false) := by
  unfold exec
  dsimp only
  unfold execDgeClose
  rw [h]

theorem exec_dgeClose_none {a : DgeAddr} (h : s.heldDpage a = none) : exec (.dgeClose a) s = answer s s := by
  unfold exec
  dsimp only
  unfold execDgeClose
  rw [h]

theorem exec_pauClose {k : Nat} (h : s.heldCtx who.val = some k) : exec (.pauClose who) s = answer s (s.dropCtx k false) :=
  congrArg (answer s) (congrArg (fun o : Option Nat => o.elim s fun k => s.dropCtx k false) h)

theorem exec_pauClose_none (h : s.heldCtx who.val = none) : exec (.pauClose who) s = answer s s :=
  congrArg (answer s) (congrArg (fun o : Option Nat => o.elim s fun k => s.dropCtx k false) h)

theorem exec_pauOpen_barred (h : s.tagOf who.val = none ∨ (s.heldCtx who.val).isSome = true ∨ who.val ∈ mget s.eng.pauWait (halfOf who.val) []) :
    exec (.pauOpen who) s = answer s s := by
  refine congrArg (answer s) (if_pos ?_)
  rw [Bool.or_eq_true, Bool.or_eq_true, Option.isNone_iff_eq_none, List.contains_iff_mem, or_assoc]
  exact h

theorem exec_pauOpen_enters {p : Nat} {m : Bool} (ht : s.tagOf who.val = some (p, m)) (hc : s.heldCtx who.val = none)
    (hq : mget s.eng.pauWait (halfOf who.val) [] = []) :
    exec (.pauOpen who) s = answer s ((s.awaitsCtx who.val []).servePau (halfOf who.val) 1) := by
  refine (congrArg (answer s) (if_neg ?_)).trans ?_
  · rw [ht, hc, hq]
    exact Bool.false_ne_true
  · dsimp only
    rw [hq]
    rfl

end

/-- An OPEN of pages: it is granted where its pages are closed and the engine grants, and else it waits. -/
theorem openPages_first {w c e n p : Nat} {m : Bool} (ht : s.tagOf w = some (p, m)) (hr : reachesCl w c = true) (ho : s.opened w c e = false)
    (hf : ∀ o ∈ s.eng.opens, ¬(o.cl = c ∧ o.eng = e ∧ o.part = p)) :
    s.openPages w c e n
      = if s.grants c e && decide (n ≤ (s.closedPages c e p).length) then (s.opening w c e n p).grantOpen (openReq w c e n p)
        else s.opening w c e n p := (openPages_enters ht hr ho).trans (serveEngine_opening hf)

/-- Settles O47: an OPEN is granted or waits, and a CLOSE leaves nothing of what was held. -/
theorem pagesOpened : Obligations.PagesOpened := by
  unfold Obligations.PagesOpened
  intro who c s
  refine ⟨fun e h => still_of_answer (congrArg (answer s) (openPages_barred h)), fun e p m ht hr ho hf => ?_, fun v h => ?_,
    fun v p m hv ht hr ho hf => ?_, fun h => still_of_answer (exec_pauOpen_barred who h), fun p m ht hc hq => ?_,
    fun ho => ⟨fun a => ⟨fun k hk _ hkey => ?_, fun h => still_of_answer (exec_engineClose_none h)⟩,
      fun a => ⟨fun k hk hkey => ?_, fun h => still_of_answer (exec_dgeClose_none h)⟩⟩,
    fun k hk hq => ?_, fun h => still_of_answer (exec_pauClose_none who h)⟩
  · have he3 : engNo e ≠ 3 := by cases e <;> decide
    have he : exec (.engineOpen who c e) s = answer s (s.openPages who.val c.val (engNo e) 1) := rfl
    rw [openPages_first ht hr ho hf] at he
    refine ⟨_, he, State.keeps.settled (State.keeps.ite (keeps_opening.trans (keeps_grantOpen ..)) keeps_opening), fun n r hl hg => ?_, fun h => ?_⟩
    · rw [if_pos (by simp [hg, hl])]
      obtain ⟨hp, hothers, hopens, hres⟩ := grantOpen_cipher (s := s.opening who.val c.val (engNo e) 1 p)
        (o := openReq who.val c.val (engNo e) 1 p) he3 rfl hl
      exact ⟨hp, hothers, hopens.trans (opens_erase_last hf), hres⟩
    · rw [if_neg (by rcases h with h | h <;> simp [h])]
      exact ⟨rfl, rfl⟩
  · have he : exec (.dgeOpen who c v) s = answer s (if 4 < v.toNat then s else s.openPages who.val c.val 3 (max 1 v.toNat)) := rfl
    refine still_of_answer (he.trans (congrArg (answer s) ?_))
    rcases h with h | h
    · rw [openPages_barred h, ite_self]
    · exact if_pos h
  · have he : exec (.dgeOpen who c v) s = answer s (if 4 < v.toNat then s else s.openPages who.val c.val 3 (max 1 v.toNat)) := rfl
    rw [if_neg (by omega), openPages_first ht hr ho hf] at he
    refine ⟨_, he, State.keeps.settled (State.keeps.ite (keeps_opening.trans (keeps_grantOpen ..)) keeps_opening), fun hl hg => ?_, fun h => ?_⟩
    · rw [if_pos (by rw [hg]; exact decide_eq_true hl)]
      obtain ⟨hp, hopens, hset⟩ := grantOpen_dge (s := s.opening who.val c.val 3 (max 1 v.toNat) p)
        (o := openReq who.val c.val 3 (max 1 v.toNat) p) rfl
      exact ⟨hp, hopens.trans (opens_erase_last hf), hset⟩
    · rw [if_neg (by rcases h with h | h <;> simp [h, Nat.not_le.2])]
      exact ⟨rfl, rfl⟩
  · have hw : mget (s.awaitsCtx who.val []).eng.pauWait (halfOf who.val) [] = [who.val] := mget_mset_self ..
    have hpart : (((s.awaitsCtx who.val []).tagOf who.val).map (·.1)).getD 0 = p := by
      rw [show (s.awaitsCtx who.val []).tagOf who.val = some (p, m) from ht]
      rfl
    refine ⟨_, exec_pauOpen_enters who ht hc hq, State.keeps.settled ((keeps_eng s _ (by decide)).trans (keeps_servePau ..)),
      fun n r h => ?_, fun h => ?_⟩
    · obtain ⟨hh, hp, hd, hempty⟩ := servePau_gives hw h
      exact ⟨hh, hp.trans hpart, hd, hempty⟩
    · rw [(servePau_one hw).1 h]
      exact ⟨hw, rfl⟩
  · obtain ⟨hp, hothers⟩ := dropPage_drops (c := pkCl k) (e := pkEng k) (p := pkPart k) (n := pkPage k) ho
    rw [hkey] at hp hothers
    exact ⟨_, exec_engineClose hk, (keeps_dropPage ..).settled, hp, hothers⟩
  · have hp := dropDpage_drops (c := dkCl k) (p := pkPart k) (n := pkPage k) ho
    rw [hkey] at hp
    have he := exec_dgeClose hk
    have hkeeps := keeps_dropDpage s (dkCl k) (pkPart k) (pkPage k) false
    generalize s.dropDpage (dkCl k) (pkPart k) (pkPage k) false = t at he hkeeps hp
    exact ⟨_, he, hkeeps.settled, hp⟩
  · obtain ⟨hp, hothers⟩ := dropCtx_drops hq
    have he := exec_pauClose who hk
    have hkeeps := keeps_dropCtx s k false
    generalize s.dropCtx k false = t at he hkeeps hp hothers
    exact ⟨_, he, hkeeps.settled, hp, hothers⟩

end Sys2Proof.Machine
end

section
/-! Key fetches and reads of results (03 R70 to R73; 07 R189, R191; 08 R218; 09 R229). -/

namespace Sys2Proof.Machine

variable {s t z : State}

/-! ### Completions of descriptors that an engine ends -/

/-- A completion is told alike from two states with the same host, gates and time. -/
theorem State.completes.of_units {q : DRec} {st : Word16} {out : Bytes} {len : Nat} {inl : Bytes} (h : t.completes z q st out len inl)
    (hk : s.keeps t [.disp, .kr, .eng, .mesh]) : s.completes z q st out len inl := by
  have hhost : t.host = s.host := hk.host_eq
  have hring : ∀ m p, t.ring m p = s.ring m p := fun m p => by rw [State.ring, State.func, hhost]; rfl
  have hrec : t.recordOf q st len inl = s.recordOf q st len inl := by
    unfold State.recordOf State.recordFlags
    rw [hring, hk.time_eq]
  have hslot : t.recordSlot q = s.recordSlot q := by rw [State.recordSlot, State.recordSlot, hring]
  unfold State.completes at h ⊢
  rw [hrec, hslot, hring, hhost] at h
  obtain ⟨hgone, hput, hposted, htail, hout, hothers, hkeeps⟩ := h
  exact ⟨hgone, hput, hposted, htail, hout, fun m p hm => (hothers m p hm).trans (hring m p), hk.widen.trans hkeeps⟩

theorem State.canComplete.of_units {q : DRec} {n : Nat} (h : s.canComplete q n) (hk : s.keeps t [.disp, .kr, .eng, .mesh]) :
    t.canComplete q n := by
  have hring : ∀ m p, t.ring m p = s.ring m p := fun m p => by rw [State.ring, State.func, hk.host_eq]; rfl
  unfold State.canComplete State.recordSlot State.hostPasses State.windows State.gateOf at h ⊢
  rw [hring, hk.gate_eq]
  exact h

/-- The flags that a descriptor carries from before its run depend on the descriptors alone. -/
theorem mergeFlags_disp (h : t.disp = s.disp) (d : Nat) : (t.mergeFlags d).desc d = (s.mergeFlags d).desc d := by
  have hd : ∀ a b : State, a.disp = b.disp → a.desc d = b.desc d := fun a b h => by
    unfold State.desc
    rw [h]
  refine hd _ _ ?_
  unfold State.mergeFlags
  rw [hd t s h]
  split
  · exact h
  · unfold State.modDesc
    rw [h]

/-! ### Pages and contexts that are held -/

/-- Who holds a page is not changed by what else is written to it. -/
theorem heldPage_setCpage {k : Nat} {x : CPage} (h : x.holder = (s.cpage k).holder) (a : PageAddr) : (s.setCpage k x).heldPage a = s.heldPage a := by
  have hh : ∀ j, ((s.setCpage k x).cpage j).holder = (s.cpage j).holder := fun j => by
    by_cases hj : j = k
    · rw [hj, State.cpage_setCpage, h]
    · rw [State.cpage_setCpage_ne _ _ hj]
  unfold State.heldPage
  dsimp only
  simp only [hh]
  rfl

theorem heldDpage_setDpage {k : Nat} {x : DPage} (h : x.holder = (s.dpage k).holder) (a : DgeAddr) : (s.setDpage k x).heldDpage a = s.heldDpage a := by
  have hh : ∀ j, ((s.setDpage k x).dpage j).holder = (s.dpage j).holder := fun j => by
    by_cases hj : j = k
    · rw [hj, State.dpage_setDpage, h]
    · rw [State.dpage_setDpage_ne _ _ hj]
  unfold State.heldDpage
  dsimp only
  simp only [hh]
  rfl

/-- The key of the first entry that passes a test stays the first where its value changes and passes as before. -/
theorem find?_mset {α : Type} (f : α → Bool) (d v : α) {k : Nat} : ∀ m : Map α, f v = f (mget m k d) →
    (m.find? fun c => f c.2).map (·.1) = some k → ((mset m k v).find? fun c => f c.2).map (·.1) = some k := by
  intro m
  induction m with
  | nil => exact fun _ h => nomatch h
  | cons c r ih =>
    obtain ⟨j, w⟩ := c
    intro hf hm
    rw [List.find?_cons] at hm
    unfold mget at hf
    unfold mset
    by_cases hj : j = k
    · rw [if_pos hj] at hf ⊢
      subst hj
      rw [List.find?_cons, hf]
      cases hw : f w <;> rw [hw] at hm
      · exact hm
      · rfl
    · rw [if_neg hj] at hf ⊢
      cases hw : f w <;> rw [hw] at hm
      · split
        · simp only [List.find?_cons, hw]
          cases f v
          · exact hm
          · rfl
        · simp only [List.find?_cons, hw]
          exact ih hf hm
      · exact absurd (Option.some.inj hm) hj

theorem heldCtx_setCtx {k w : Nat} {x : Ctx} (h : x.holder = (s.ctx k).holder) (hk : s.heldCtx w = some k) : (s.setCtx k x).heldCtx w = some k :=
  find?_mset (fun c : Ctx => c.holder == w + 1) {} x s.eng.ctxs (congrArg (· == w + 1) h) hk

/-! ### A key register takes a value -/

theorem putKey_cipher {a : PageAddr} {k : Nat} (kb : Bool) (v : KeyReg1) (h : s.heldPage a = some k) :
    ∃ y : CPage, s.putKey (.cipher a kb) v = s.setCpage k y ∧ y.reg kb = v ∧ y.holder = (s.cpage k).holder ∧ y.req = (s.cpage k).req
      ∧ ∀ st, v = .refused st → y.kstat = st := by
  unfold State.putKey
  dsimp only
  rw [h]
  cases kb
  · exact ⟨_, rfl, rfl, rfl, rfl, fun st hv => by rw [hv]; rfl⟩
  · exact ⟨_, rfl, rfl, rfl, rfl, fun st hv => by rw [hv]; rfl⟩

theorem putKey_digest {a : DgeAddr} {k : Nat} (v : KeyReg1) (h : s.heldDpage a = some k) :
    ∃ y : DPage, s.putKey (.digest a) v = s.setDpage k y ∧ y.ka = v ∧ y.holder = (s.dpage k).holder ∧ y.pend = (s.dpage k).pend := by
  unfold State.putKey
  dsimp only
  rw [h]
  exact ⟨_, rfl, rfl, rfl, rfl⟩

theorem putKey_pau {w : Who} {k : Nat} (v : KeyReg1) (h : s.heldCtx w.val = some k) :
    ∃ y : Ctx, s.putKey (.pau w) v = s.setCtx k y ∧ y.ka = v ∧ y.holder = (s.ctx k).holder ∧ y.state = (s.ctx k).state := by
  unfold State.putKey
  dsimp only
  rw [h]
  exact ⟨_, rfl, rfl, rfl, rfl⟩

theorem keeps_putKey (g : KeyTarget) (v : KeyReg1) : s.keeps (s.putKey g v) [.eng] := by
  unfold State.putKey
  cases g with
  | cipher a kb =>
    dsimp only
    split
    · exact keeps_eng s _ (by decide)
    · exact .refl s _
  | digest a =>
    dsimp only
    split
    · exact keeps_eng s _ (by decide)
    · exact .refl s _
  | pau w =>
    dsimp only
    split
    · exact keeps_eng s _ (by decide)
    · exact .refl s _

/-! ### A fetch is issued (03 R70; 07 R189) -/

theorem putIndex_cipher {a : PageAddr} {k : Nat} (kb : Bool) (w : Word32) (h : s.heldPage a = some k) :
    (s.putIndex (.cipher a kb) w).heldPage a = some k := by
  unfold State.putIndex
  dsimp only
  rw [h]
  dsimp only
  rw [heldPage_setCpage, h]
  cases kb <;> rfl

theorem putIndex_digest {a : DgeAddr} {k : Nat} (w : Word32) (h : s.heldDpage a = some k) : (s.putIndex (.digest a) w).heldDpage a = some k := by
  unfold State.putIndex
  dsimp only
  rw [h]
  dsimp only
  rw [heldDpage_setDpage, h]
  rfl

theorem putIndex_pau {x : Who} {k : Nat} (w : Word32) (h : s.heldCtx x.val = some k) : (s.putIndex (.pau x) w).heldCtx x.val = some k := by
  unfold State.putIndex
  dsimp only
  rw [h]
  exact heldCtx_setCtx rfl h

theorem keeps_putIndex (g : KeyTarget) (w : Word32) : s.keeps (s.putIndex g w) [.eng] := by
  unfold State.putIndex
  cases g with
  | cipher a kb =>
    dsimp only
    split
    · exact keeps_eng s _ (by decide)
    · exact .refl s _
  | digest a =>
    dsimp only
    split
    · exact keeps_eng s _ (by decide)
    · exact .refl s _
  | pau w =>
    dsimp only
    split
    · exact keeps_eng s _ (by decide)
    · exact .refl s _

/-- The fetch that a write of a GEN word w issues. -/
def issuedFetch (g : KeyTarget) (w : Word32) (p d : Nat) (role : Word16) (algs : Word32) : Fetch :=
  { tgt := g, part := p, index := bits w.toNat 0 16, trans := bit w.toNat 16, gen := BitVec.ofNat 8 (bits w.toNat 24 8),
    role := role, algset := algs, desc := if d = 0 then none else some (d - 1) }

/-- The state in which fetch f is in flight. -/
def State.issued (s : State) (g : KeyTarget) (w : Word32) (f : Fetch) : State :=
  let t := (s.putIndex g w).putKey g .inFlight
  { t with kr := { t.kr with fetches := (t.kr.fetches.filter fun h => h.tgt != g) ++ [f] } }

theorem exec_keyFetchIssue_none {g : KeyTarget} (w : Word32) (h : s.fetchSource g = none) : exec (.keyFetchIssue g w) s = answer s s := by
  unfold exec
  dsimp only
  unfold execKeyFetchIssue
  rw [h]

theorem exec_keyFetchIssue {g : KeyTarget} (w : Word32) {p d : Nat} {ro : Word16} {al : Word32} (h : s.fetchSource g = some (p, d, ro, al)) :
    exec (.keyFetchIssue g w) s = answer s (s.issued g w (issuedFetch g w p d ro al)) := by
  unfold exec
  dsimp only
  unfold execKeyFetchIssue
  rw [h]
  rfl

theorem issued_keeps (g : KeyTarget) (w : Word32) (f : Fetch) : s.keeps (s.issued g w f) [.eng, .kr]
    ∧ (s.issued g w f).kr.fetches = s.kr.fetches.filter (fun h => h.tgt != g) ++ [f] := by
  have hk : s.keeps ((s.putIndex g w).putKey g .inFlight) [.eng] := (keeps_putIndex g w).trans (keeps_putKey g _)
  refine ⟨hk.widen.trans (keeps_kr _ _ (by decide)), ?_⟩
  unfold State.issued
  dsimp only
  rw [hk.kr_eq]

/-! ### A fetch ends (03 R71, R73) -/

/-- The state without fetch f. -/
def State.unfetched (s : State) (f : Fetch) : State := { s with kr := { s.kr with fetches := s.kr.fetches.erase f } }

theorem tryStart_unasked {k : Nat} (h : (s.cpage k).req = none) : s.tryStart k = s := by
  unfold State.tryStart
  dsimp only
  rw [h]

theorem tryAbsorb_unasked {k : Nat} (h : (s.dpage k).pend = .none) : s.tryAbsorb k = s := by
  unfold State.tryAbsorb
  exact if_pos (.inl (by rw [h]; exact fun h => nomatch h))

theorem tryOp_idle {k : Nat} (h : (s.ctx k).state ≠ .busy) : s.tryOp k = s := by
  unfold State.tryOp
  exact if_pos (.inl h)

/-- What an ended fetch f leaves: its register holds v, and what waited for it goes on. -/
def State.keyEnds (s : State) (f : Fetch) (v : KeyReg1) : State := ((s.unfetched f).putKey f.tgt v).keyCame f.tgt

/-- No request waits for the register of f: nothing but the register changes. -/
theorem keyEnds_cipher {f : Fetch} {a : PageAddr} {kb : Bool} {k : Nat} (v : KeyReg1) (hf : f.tgt = .cipher a kb) (hk : t.heldPage a = some k)
    (hr : (t.cpage k).req = none) :
    t.keeps (t.keyEnds f v) [.eng, .kr] ∧ (t.keyEnds f v).kr = { t.kr with fetches := t.kr.fetches.erase f }
      ∧ ((t.keyEnds f v).cpage k).reg kb = v ∧ ∀ st, v = .refused st → ((t.keyEnds f v).cpage k).kstat = st := by
  obtain ⟨y, hy, hreg, hh, hreq, hst⟩ := putKey_cipher (s := t.unfetched f) kb v hk
  have hz : t.keyEnds f v = (t.unfetched f).setCpage k y := by
    unfold State.keyEnds
    rw [hf, hy]
    unfold State.keyCame
    dsimp only
    rw [heldPage_setCpage hh, show (t.unfetched f).heldPage a = some k from hk]
    refine tryStart_unasked ?_
    rw [State.cpage_setCpage]
    exact hreq.trans hr
  rw [hz, State.cpage_setCpage]
  exact ⟨(keeps_kr t _ (by decide)).trans (keeps_eng _ _ (by decide)), rfl, hreg, hst⟩

theorem keyEnds_digest {f : Fetch} {a : DgeAddr} {k : Nat} (v : KeyReg1) (hf : f.tgt = .digest a) (hk : t.heldDpage a = some k)
    (hr : (t.dpage k).pend = .none) :
    (t.keeps (t.keyEnds f v) [.eng, .kr] ∧ (t.keyEnds f v).kr = { t.kr with fetches := t.kr.fetches.erase f })
      ∧ ((t.keyEnds f v).dpage k).ka = v := by
  obtain ⟨y, hy, hreg, hh, hpend⟩ := putKey_digest (s := t.unfetched f) v hk
  have hz : t.keyEnds f v = (t.unfetched f).setDpage k y := by
    unfold State.keyEnds
    rw [hf, hy]
    unfold State.keyCame
    dsimp only
    rw [heldDpage_setDpage hh, show (t.unfetched f).heldDpage a = some k from hk]
    refine tryAbsorb_unasked ?_
    rw [State.dpage_setDpage]
    exact hpend.trans hr
  rw [hz, State.dpage_setDpage]
  exact ⟨⟨(keeps_kr t _ (by decide)).trans (keeps_eng _ _ (by decide)), rfl⟩, hreg⟩

theorem keyEnds_pau {f : Fetch} {w : Who} {k : Nat} (v : KeyReg1) (hf : f.tgt = .pau w) (hk : t.heldCtx w.val = some k)
    (hr : (t.ctx k).state ≠ .busy) :
    (t.keeps (t.keyEnds f v) [.eng, .kr] ∧ (t.keyEnds f v).kr = { t.kr with fetches := t.kr.fetches.erase f })
      ∧ ((t.keyEnds f v).ctx k).ka = v := by
  obtain ⟨y, hy, hreg, hh, hstate⟩ := putKey_pau (s := t.unfetched f) v hk
  have hz : t.keyEnds f v = (t.unfetched f).setCtx k y := by
    unfold State.keyEnds
    rw [hf, hy]
    unfold State.keyCame
    dsimp only
    rw [heldCtx_setCtx hh hk]
    refine tryOp_idle ?_
    rw [State.ctx_setCtx, hstate]
    exact hr
  rw [hz, State.ctx_setCtx]
  exact ⟨⟨(keeps_kr t _ (by decide)).trans (keeps_eng _ _ (by decide)), rfl⟩, hreg⟩

section
variable {f : Fetch} {st : Word16}

/-- A refusal that is not by class, usage or family, or of a fetch of the Warden's, ends nothing more. -/
theorem fetchRefused_stays (h : f.desc = none ∨ st ≠ 0x0204) : s.fetchRefused f st = s.keyEnds f (.refused st) := by
  unfold State.fetchRefused
  dsimp only
  split
  · rename_i d hd
    exact if_neg (h.resolve_left fun hn => by rw [hn] at hd; cases hd)
  · rfl

theorem fetchRefused_ends {d : Nat} (hd : f.desc = some d) : s.fetchRefused f 0x0204 = (s.keyEnds f (.refused 0x0204)).endWith d 0x0204 := by
  unfold State.fetchRefused
  dsimp only
  rw [hd]
  exact if_pos rfl

theorem fetchEnds_held {i : Nat} {x : Slot} (r : List Fetch) (hf : f.failed = none) (h : s.fetchAll f = (.ok (i, x), t)) :
    s.fetchEnds (f :: r) = t.keyEnds f (.held x f.role i f.trans) := by
  unfold State.fetchEnds
  rw [hf, h]
  rfl

theorem fetchEnds_refused (r : List Fetch)
    (h : (f.failed = some st ∧ t = s) ∨ (f.failed = none ∧ ∃ w, s.fetchAll f = (.error (.fail st w), t))) :
    s.fetchEnds (f :: r) = t.fetchRefused f st := by
  unfold State.fetchEnds
  rcases h with ⟨hf, rfl⟩ | ⟨hf, w, h⟩
  · rw [hf]
  · rw [hf, h]

theorem fetchEnds_waits {l n : Nat} (hf : f.failed = none) (h : s.fetchAll f = (.error (.park l n), t)) :
    s.fetchEnds [f] = s.fetchWaits f l n := by
  unfold State.fetchEnds
  rw [hf, h]
  rfl

end

theorem exec_keyFetch_idle (h : s.kr.ready = false ∨ s.kr.bus = .halted) : exec .keyFetch s = answer s s := by
  refine congrArg (answer s) (if_neg ?_)
  rcases h with h | h <;> rw [h]
  · exact fun h => nomatch h
  · rw [bne_self_eq_false, Bool.and_false]
    exact fun h => nomatch h

theorem exec_keyFetch (hr : s.kr.ready = true) (hb : s.kr.bus ≠ .halted) : exec .keyFetch s = answer s (s.fetchEnds s.kr.fetches).after :=
  congrArg (answer s) (if_pos (by rw [hr, bne_iff_ne.2 hb]; rfl))

/-! ### Reads of results (07 R191; 08 R218; 09 R229) -/

theorem exec_read_cipher_none {a : PageAddr} (i : Fin 4) (h : s.heldPage a = none) :
    exec (.resultRead (.cipher a i)) s = answer s (s.reads notReady) := by
  unfold exec
  dsimp only
  unfold execResultRead
  dsimp only
  rw [h]

theorem exec_read_cipher {a : PageAddr} {k : Nat} (i : Fin 4) (h : s.heldPage a = some k) :
    exec (.resultRead (.cipher a i)) s = answer s ((if (s.cpage k).state = .ready then s
      else s.setCpage k { s.cpage k with earlyRead := true }).reads ((s.cpage k).resultWord i.val)) := by
  unfold exec
  dsimp only
  unfold execResultRead
  dsimp only
  rw [h]

theorem exec_read_digest {a : DgeAddr} {k : Nat} (i : Fin 16) (h : s.heldDpage a = some k) :
    exec (.resultRead (.digest a i)) s = answer s ((if (s.dpage k).state = .ready ∧ (s.dpage k).dest = 0 then s
      else s.setDpage k { s.dpage k with earlyRead := true }).reads ((s.dpage k).resultWord i.val)) := by
  unfold exec
  dsimp only
  unfold execResultRead
  dsimp only
  rw [h]

theorem exec_read_pau {w : Who} {k : Nat} (h : s.heldCtx w.val = some k) :
    exec (.resultRead (.pauLen w)) s = answer s ((if (s.ctx k).state = .ready then s
      else s.setCtx k { s.ctx k with earlyRead := true }).reads (s.ctx k).resultLenWord) := by
  unfold exec
  dsimp only
  unfold execResultRead
  dsimp only
  rw [h]

/-- A read changes nothing of the engines where the result is ready, and only notes itself as early elsewhere. -/
theorem keeps_reads {c : Prop} [Decidable c] (t : State) (v : Word32) (ht : s.keeps t [.eng]) :
    s.keeps ((if c then s else t).reads v) [.host, .eng] := by
  refine State.keeps.trans (t := if c then s else t) ?_ (keeps_host _ _ (by decide))
  split
  · exact .refl s _
  · exact ht.widen

/-- Settles O49: the fetch at the head of the key bus ends alone; a register takes its value or its status. -/
theorem keysFetched : Obligations.KeysFetched := by
  unfold Obligations.KeysFetched
  intro s
  refine ⟨fun g w => ⟨fun h => still_of_answer (exec_keyFetchIssue_none w h), fun p d ro al h => ?_⟩,
    fun h => still_of_answer (exec_keyFetch_idle h), fun hr hb f r hl => ?_, fun a i => ⟨fun h => ?_, fun k h => ?_⟩, fun a i k h => ?_,
    fun v k h => ?_⟩
  · obtain ⟨hk, hf⟩ := issued_keeps (s := s) g w (issuedFetch g w p d ro al)
    refine ⟨_, issuedFetch g w p d ro al, exec_keyFetchIssue w h, hk.settled, hf, rfl, rfl, ?_, ?_, ?_, rfl, rfl, rfl, ?_, ?_, ?_⟩
    · exact congrArg (· % 2 ^ 16) (Nat.div_one _)
    · exact bit_eq_testBit ..
    · refine (BitVec.toNat_ofNat ..).trans ?_
      have := w.isLt
      unfold bits
      omega
    · rintro a kb k rfl hh
      obtain ⟨y, hy, hreg, -⟩ := putKey_cipher kb .inFlight (putIndex_cipher kb w hh)
      unfold State.issued
      rw [hy]
      exact (congrArg (CPage.reg · kb) (State.cpage_setCpage ..)).trans hreg
    · rintro a k rfl hh
      obtain ⟨y, hy, hreg, -⟩ := putKey_digest .inFlight (putIndex_digest w hh)
      unfold State.issued
      rw [hy]
      exact (congrArg DPage.ka (State.dpage_setDpage ..)).trans hreg
    · rintro x k rfl hh
      obtain ⟨y, hy, hreg, -⟩ := putKey_pau .inFlight (putIndex_pau w hh)
      unfold State.issued
      rw [hy]
      exact (congrArg Ctx.ka (State.ctx_setCtx ..)).trans hreg
  · have he := exec_keyFetch hr hb
    rw [hl] at he
    refine ⟨fun hf i x t h => ⟨t.keyEnds f (.held x f.role i f.trans), ?_, ?_, ?_, ?_⟩, fun st t h a kb k hf hh hq => ⟨fun hst => ?_, ?_⟩,
      fun hf hn l n t h => ?_⟩
    · rw [fetchEnds_held r hf h] at he
      exact he
    · intro a kb k ht hh hq
      obtain ⟨hk, hkr, hreg, -⟩ := keyEnds_cipher (.held x f.role i f.trans) ht hh hq
      exact ⟨⟨hk, hkr⟩, hreg⟩
    · exact fun a k ht hh hq => keyEnds_digest _ ht hh hq
    · exact fun v k ht hh hq => keyEnds_pau _ ht hh hq
    · rw [fetchEnds_refused r h, fetchRefused_stays hst] at he
      obtain ⟨hk, hkr, hreg, hks⟩ := keyEnds_cipher (.refused st) hf hh hq
      exact ⟨_, he, hk, hkr, hreg, hks st rfl⟩
    · rintro d q hd rfl hq' hdur hw hc
      rw [fetchEnds_refused r h, fetchRefused_ends hd] at he
      obtain ⟨hk, -⟩ := keyEnds_cipher (.refused 0x0204) hf hh hq
      generalize t.keyEnds f (.refused 0x0204) = v at he hk
      have hv : (v.mergeFlags d).desc d = some q := (mergeFlags_disp hk.disp_eq d).trans hq'
      obtain ⟨hrun, hdone⟩ := endWith_completes v (st := 0x0204) hv hdur rfl hw (hc.of_units hk.widen)
      rw [hrun] at he
      exact ⟨_, he, hdone.of_units hk.widen⟩
    · rw [hn, fetchEnds_waits hf h] at he
      exact he
  · exact ⟨_, exec_read_cipher_none i h, State.keeps.settled (keeps_host s _ (by decide)), rfl⟩
  · refine ⟨_, exec_read_cipher i h, State.keeps.settled (keeps_reads _ _ (keeps_eng s _ (by decide))), fun hs => ?_, fun hs => ?_⟩
    · unfold CPage.resultWord
      rw [if_pos hs, if_pos hs]
      exact ⟨rfl, rfl⟩
    · unfold CPage.resultWord
      rw [if_neg hs, if_neg hs]
      exact ⟨mget_mset_self .., rfl⟩
  · refine ⟨_, exec_read_digest i h, State.keeps.settled (keeps_reads _ _ (keeps_eng s _ (by decide))), fun hs hd => ?_, fun hs => ?_⟩
    · unfold DPage.resultWord
      rw [if_pos ⟨hs, hd⟩, if_pos ⟨hs, hd⟩]
      exact ⟨rfl, rfl⟩
    · unfold DPage.resultWord
      rw [if_neg (by tauto), if_neg (by tauto)]
      exact ⟨mget_mset_self .., rfl⟩
  · refine ⟨_, exec_read_pau h, State.keeps.settled (keeps_reads _ _ (keeps_eng s _ (by decide))), fun hs => ?_, fun hs => ?_⟩
    · unfold Ctx.resultLenWord
      rw [if_pos hs, if_pos hs]
      exact ⟨rfl, rfl⟩
    · unfold Ctx.resultLenWord
      rw [if_neg hs, if_neg hs]
      exact ⟨mget_mset_self .., rfl⟩

end Sys2Proof.Machine
end

section
/-! Failed checks of the engines (07 R195; 08 R223; 09 R241): what the statements about them say of the descriptor served does not hold where the
dispatcher's next number is that descriptor's. -/

namespace Sys2Proof.Machine

variable {s u z : State}

/-- Descriptor 0 of a peer is served; an operation of a transaction waits for no recipe any longer, and the next transaction's work would have
number 0 again. -/
def reissuingState (e : Engines) : State :=
  { disp := { descs := [{ id := 0, fn := 0, ring := 8, idx := 0, bytes := [], stage := .started, begun := true },
                        { id := 1, fn := 0, ring := txnRing, idx := 0, bytes := [], stage := .mgmtWait (.recipes []) {} }] }
    eng := e
    time := { lock := true }
    mesh := { journal := [⟨2, 0, 0, 0, txnBody 2 1 [], [], false⟩] } }

/-- A command whose answer keeps a descriptor comes from no state without it, seen to by Alatas with no commit running. -/
theorem desc_of_after {c : Instr} (hz : exec c s = .next (s.settled z.after)) (hu : exec c s = answer s u.after)
    (hcommit : u.after.vault.commit = none) {d : Nat} (hd : (u.after.desc d).isSome = true) : z.desc d ≠ none := by
  intro hnone
  obtain ⟨hdisp, hvault⟩ := units_of_answer (hz.symm.trans hu)
  have hgone : z.after.desc d = none := by
    rcases after_records z (by rw [hvault]; exact hcommit) with hrec | hrec
    · exact State.narrows.none hrec hnone
    · rw [State.desc, hrec]
      rfl
  rw [State.desc, ← hdisp] at hd
  rw [State.desc] at hgone
  rw [hgone] at hd
  cases hd

/-! ### Cipher pages -/

/-- The Warden's page 0 runs a block of descriptor 0. -/
def checkedPage : State :=
  reissuingState { pages := [(0, { state := .busy, holder := 65, desc := 1, req := some { code := 0x10, word := 0 }, entered := true, progress := 1 })] }

def checkedPageAddr : PageAddr := { who := 64, cl := 0, eng := .fce0, page := 0 }

theorem checkedPage_runs : checkedPage.heldPage checkedPageAddr = some 0 ∧ (checkedPage.cpage 0).req = some { code := 0x10, word := 0 }
    ∧ (checkedPage.cpage 0).state = .busy ∧ (checkedPage.cpage 0).entered = true ∧ checkedPage.granted 0 = true
    ∧ (checkedPage.cpage 0).desc = 1 := by
  decide +kernel

theorem checkedPage_after :
    (checkedPage.checkFails 0).after.vault.commit = none ∧ ((checkedPage.checkFails 0).after.desc 0).isSome = true := by
  decide +kernel

theorem exec_checkFails {a : PageAddr} {dm : Bytes} {k : Nat} {q : OpReq} (hk : s.heldPage a = some k) (hq : (s.cpage k).req = some q)
    (hs : (s.cpage k).state = .busy) (he : (s.cpage k).entered = true) (hg : s.granted k = true) :
    exec (.engineRequestDone a dm false) s = answer s (s.checkFails k).after := by
  unfold exec
  dsimp only
  unfold execEngineRequestDone
  rw [hk]
  dsimp only
  rw [hq]
  dsimp only
  rw [hs, he, hg, if_neg (by decide), if_pos (by decide), if_pos rfl]

/-- Refutes O48: the completion of the descriptor that a failed check ends may be followed by that of a transaction, and the work that begins
the next one takes the number that the dispatcher has next, which nothing in the statement keeps from being that of the descriptor. -/
theorem not_requestsRun : ¬Obligations.RequestsRun := by
  intro h
  obtain ⟨hk, hq, hs, he, hg, hd⟩ := checkedPage_runs
  obtain ⟨hcommit, hdesc⟩ := checkedPage_after
  have hrun := exec_checkFails (dm := []) hk hq hs he hg
  obtain ⟨-, -, -, hfails⟩ := h.2 checkedPageAddr [] checkedPage 0 _ hk hq hs he
  obtain ⟨z, hz, -, hgone⟩ := hfails hg
  refine desc_of_after hz hrun hcommit hdesc ?_
  have h0 := hgone (by rw [hd]; decide)
  rw [hd] at h0
  exact h0

/-! ### Digest pages -/

/-- The Warden's digest page 0 runs a block of descriptor 0. -/
def checkedDpage : State := reissuingState { dpages := [(0, { state := .busy, holder := 65, desc := 1, entered := true })] }

def checkedDpageAddr : DgeAddr := { who := 64, cl := 0, page := 0 }

theorem checkedDpage_runs : checkedDpage.heldDpage checkedDpageAddr = some 0 ∧ (checkedDpage.dpage 0).entered = true
    ∧ checkedDpage.dgeRan 0 = true ∧ (checkedDpage.dpage 0).waits = 0 ∧ (∀ i < 8, (checkedDpage.dpage (sibling 0 i)).pend = .none)
    ∧ (checkedDpage.dpage 0).desc = 1 := by
  decide +kernel

theorem checkedDpage_after :
    (checkedDpage.dgeFails 0).after.vault.commit = none ∧ ((checkedDpage.dgeFails 0).after.desc 0).isSome = true := by
  decide +kernel

theorem exec_dgeFails {a : DgeAddr} {k : Nat} (hk : s.heldDpage a = some k) (he : (s.dpage k).entered = true) (hr : s.dgeRan k = true) :
    exec (.dgeBlockDone a false) s = answer s (s.dgeFails k).after := by
  unfold exec
  dsimp only
  unfold execDgeBlockDone
  rw [hk]
  dsimp only
  rw [he, hr, if_neg (fun h => nomatch h.2.1), if_neg (by decide), if_neg Bool.false_ne_true]

/-- Refutes O50, as O48: the descriptor that a failed check of the digest engine ends may have its number taken at once. -/
theorem not_digestRuns : ¬Obligations.DigestRuns := by
  intro h
  obtain ⟨hk, he, hr, hw, hp, hd⟩ := checkedDpage_runs
  obtain ⟨hcommit, hdesc⟩ := checkedDpage_after
  have hrun := exec_dgeFails hk he hr
  obtain ⟨-, -, -, -, -, -, -, -, -, -, -, hdone⟩ := (h checkedDpageAddr checkedDpage).2 0 hk
  obtain ⟨-, -, -, -, z, hz, -, hgone⟩ := hdone he hr hw fun i hi b hb => by rw [hp i hi] at hb; cases hb
  refine desc_of_after hz hrun hcommit hdesc ?_
  have h0 := hgone (by rw [hd]; decide)
  rw [hd] at h0
  exact h0

/-! ### PAU contexts -/

/-- The Warden's context 0 runs an operation of descriptor 0. -/
def checkedCtx : State :=
  reissuingState {
    ctxs := [(0, { state := .busy, holder := 65, desc := 1, entered := true })]
    arbs := [(8, (arbReset 8).setEngine 0 { owner := some (15, { who := 64, part := 0, page := 0, count := 0 }) })] }

theorem checkedCtx_runs : (checkedCtx.ctx 0).state = .busy ∧ (checkedCtx.ctx 0).entered = true ∧ (checkedCtx.ctx 0).desc = 1
    ∧ ((checkedCtx.arb 8).engine 0).owner = some (15, { who := 64, part := 0, page := 0, count := 0 }) := by
  decide +kernel

theorem checkedCtx_after :
    (checkedCtx.pauFails 0).after.vault.commit = none ∧ ((checkedCtx.pauFails 0).after.desc 0).isSome = true := by
  decide +kernel

theorem exec_pauFails {u j : Fin 4} (hs : (s.ctx (4 * u.val + j.val)).state = .busy) (he : (s.ctx (4 * u.val + j.val)).entered = true)
    {i : Nat} {q : Req} (ho : ((s.arb (8 + u.val)).engine 0).owner = some (i, q)) (hq : q.page = j.val) :
    exec (.pauOpDone u j false) s = answer s (s.pauFails (4 * u.val + j.val)).after := by
  refine congrArg (answer s) ((if_neg ?_).trans (if_neg Bool.false_ne_true))
  rw [hs, he, ho]
  simp [hq]

/-- Refutes O51, as O48: the descriptor that a failed check of a PAU ends may have its number taken at once. -/
theorem not_pauRuns : ¬Obligations.PauRuns := by
  intro h
  obtain ⟨hs, he, hd, ho⟩ := checkedCtx_runs
  obtain ⟨hcommit, hdesc⟩ := checkedCtx_after
  have hrun := exec_pauFails (s := checkedCtx) (u := 0) (j := 0) hs he ho rfl
  obtain ⟨-, hdone⟩ := (h checkedCtx).2 0 0
  obtain ⟨-, -, -, z, hz, -, hgone⟩ := hdone hs he ⟨_, _, ho, rfl⟩
  refine desc_of_after hz hrun hcommit hdesc ?_
  have h0 := hgone (by rw [show (checkedCtx.ctx (4 * (0 : Fin 4).val + (0 : Fin 4).val)).desc = 1 from hd]; decide)
  rw [show (checkedCtx.ctx (4 * (0 : Fin 4).val + (0 : Fin 4).val)).desc = 1 from hd] at h0
  exact h0

end Sys2Proof.Machine
end

section
/-! Messages of the mesh: what is relayed, what is heard, and forwarded work at its home and its origin (14 R336, R350 to R354). -/

namespace Sys2Proof.Machine

variable {s t u : State} {m : Msg}

/-! ### What reaches this device (R336, R337) -/

section
variable {type : Nat} {f : State → State}

/-- A message that this device does not take part in, does not hear or has from no attested port. -/
theorem onMsg_unheard (h : s.meshed = false ∨ s.tam.felledState = true ∨ s.mesh.stale = true ∨ (m.src.val = s.ownId ∧ m.dst.val ≠ s.ownId)
    ∨ (m.src.val ≠ s.ownId ∧ (s.port m.port.val).attested = false)) : s.onMsg m type f = s := by
  unfold State.onMsg
  split
  · rfl
  · rename_i hn
    rw [Bool.or_eq_true, Bool.or_eq_true, Bool.not_eq_true'] at hn
    rcases h with h | h | h | ⟨hs, hd⟩ | ⟨hs, ha⟩
    · exact absurd (.inl (.inl h)) hn
    · exact absurd (.inl (.inr h)) hn
    · exact absurd (.inr h) hn
    · rw [if_pos hs, if_neg hd]
    · rw [if_neg hs, ha]
      rfl

/-- A message for another member goes on. -/
theorem onMsg_relays (hm : s.meshed = true) (hf : s.tam.felledState = false) (hst : s.mesh.stale = false) (hs : m.src.val ≠ s.ownId)
    (ha : (s.port m.port.val).attested = true) (hd : m.dst.val ≠ s.ownId) : s.onMsg m type f = s.relay m type := by
  unfold State.onMsg
  rw [hm, hf, hst, if_neg (by decide), if_neg hs, ha, if_neg (by decide), if_pos hd]

theorem onMsg_heard (h : s.hears m) (ho : s.opens m type = true) : s.onMsg m type f = f s := by
  obtain ⟨hm, hf, hst, hd, hsrc⟩ := h
  unfold State.onMsg
  rw [hm, hf, hst, if_neg (by decide)]
  by_cases hs : m.src.val = s.ownId
  · rw [if_pos hs, if_pos hd]
  · rw [if_neg hs, hsrc.resolve_left hs, if_neg (by decide), if_neg (not_not.2 hd), ho, if_neg (by decide)]

/-- A KEY message of a member without a pair key is not opened. -/
theorem onMsg_sealed (h : s.hears m) (hs : m.src.val ≠ s.ownId) (ho : s.opens m type = false) : s.onMsg m type f = s := by
  obtain ⟨hm, hf, hst, hd, hsrc⟩ := h
  unfold State.onMsg
  rw [hm, hf, hst, if_neg (by decide), if_neg hs, hsrc.resolve_left hs, if_neg (by decide), if_neg (not_not.2 hd), ho]
  rfl

theorem opens_plain (h : msgClass type ≠ 3) : s.opens m type = true := by
  unfold State.opens
  rw [bne_iff_ne.2 h]
  rfl

theorem opens_paired (h : m.src.val = s.ownId ∨ mhas s.mesh.pairKeys m.src.val = true) (type : Nat) : s.opens m type = true := by
  unfold State.opens
  rcases h with h | h
  · rw [h, beq_self_eq_true, Bool.or_true, Bool.true_or]
  · rw [h, Bool.or_true]

theorem opens_unpaired (hc : msgClass type = 3) (hs : m.src.val ≠ s.ownId) (hk : mhas s.mesh.pairKeys m.src.val = false) :
    s.opens m type = false := by
  unfold State.opens
  rw [hc, hk, beq_false_of_ne hs]
  rfl

end

/-! ### The commands that bring a message -/

/-- Each command of a message, with its type, and whether Alatas sees to what it leaves. -/
def messages (m : Msg) : List (Instr × Nat × Bool) :=
  [(.fwd m, 0x10, true), (.accept m, 0x20, false), (.result m, 0x21, true), (.refuse m, 0x22, true), (.fwdMore m, 0x43, false),
   (.fwdData m, 0x23, true), (.txn m, 0x30, true), (.txnAck m, 0x31, false), (.txnDone m, 0x32, true), (.resync m, 0x33, false),
   (.heartbeat m, 0x40, true), (.timeSync m, 0x41, false), (.recipeSync m, 0x42, false)]

/-- A message leaves x. -/
def messageGoes (s : State) (c : Instr × Nat × Bool) (x : State) : Prop := if c.2.2 then becomesThen c.1 s x else becomes c.1 s x

/-- What a message leaves is what `State.onMsg` makes of it. -/
theorem messages_act : ∀ c ∈ messages m, ∃ f : State → State, messageGoes s c (s.onMsg m c.2.1 f) := by
  simp only [messages, List.forall_mem_cons, List.not_mem_nil, false_implies, implies_true, and_true]
  exact ⟨⟨_, rfl⟩, ⟨_, rfl⟩, ⟨_, rfl⟩, ⟨_, rfl⟩, ⟨_, rfl⟩, ⟨_, rfl⟩, ⟨_, rfl⟩,
    ⟨_, rfl⟩, ⟨_, rfl⟩, ⟨_, rfl⟩, ⟨_, rfl⟩, ⟨_, rfl⟩, ⟨_, rfl⟩⟩

theorem keeps_disp_mesh (s : State) (d : Disp) (n : Mesh) : s.keeps { s with disp := d, mesh := n } [.disp, .mesh] :=
  (keeps_disp s d (by decide)).trans (keeps_mesh { s with disp := d } n (by decide))

/-! ### Forwarded work at its home (R350 to R352) -/

theorem takeFwd_becomes (h : s.hears m) {x : State} (hx : s.takeFwd m = x) : becomesThen (.fwd m) s x := by
  subst hx
  exact congrArg (fun x : State => answer s x.after) (onMsg_heard h (opens_plain (by decide)))

theorem takeData_becomes (h : s.hears m) {x : State} (hx : s.takeData m = x) : becomesThen (.fwdData m) s x := by
  subst hx
  exact congrArg (fun x : State => answer s x.after) (onMsg_heard h (opens_plain (by decide)))

/-- The descriptor that a FWD makes. -/
def fwdDesc (s : State) (m : Msg) : DRec :=
  { id := s.disp.nextId, fn := m.part.val, ring := meshRing + m.src.val, idx := BitVec.ofNat 32 m.tag.toNat,
    bytes := fit 64 (m.body.take 64), image := fwdStep m.body, stage := .inbox }

/-- The request that a FWD leaves held. -/
def fwdHeld (m : Msg) : Held :=
  let inp := m.body.drop (64 + (fwdStep m.body).length)
  { src := m.src.val, tag := m.tag, attempt := m.attempt, part := m.part.val, body := inp, got := inp.length, asked := inp.length,
    port := m.port.val }

theorem takeFwd_again {g : Held} (h : (s.mesh.held.find? fun h => h.is m.src.val m.tag.toNat) = some g) :
    s.takeFwd m = s.send m.src.val 0x20 m.tag.toNat m.attempt.toNat g.attempt.toNat [] m.part.val := by
  unfold State.takeFwd
  rw [h]

section
variable (h : (s.mesh.held.find? fun h => h.is m.src.val m.tag.toNat) = none)
include h

theorem takeFwd_refused {why : Nat} (hr : s.fwdRefusal (fwdDesc s m) = some why) :
    s.takeFwd m = s.send m.src.val 0x22 m.tag.toNat m.attempt.toNat why [] m.part.val := by
  unfold State.takeFwd
  rw [h]
  dsimp only
  unfold fwdDesc at hr
  rw [hr]

section
variable (hr : s.fwdRefusal (fwdDesc s m) = none)
include hr

theorem takeFwd_waits (hq : 512 ≤ s.fwdQueue) : s.takeFwd m = { s with mesh := { s.mesh with waitFwd := s.mesh.waitFwd ++ [m] } } := by
  unfold State.takeFwd
  rw [h]
  dsimp only
  unfold fwdDesc at hr
  rw [hr]
  exact if_pos hq

/-- The state in which a FWD is queued and held. -/
theorem takeFwd_queued (hq : s.fwdQueue < 512) : s.takeFwd m = ({ s with
      disp := { s.disp with nextId := s.disp.nextId + 1, descs := s.disp.descs ++ [fwdDesc s m], inbox := s.disp.inbox ++ [s.disp.nextId] }
      mesh := { s.mesh with held := s.mesh.held ++ [fwdHeld m] } } : State).send m.src.val 0x20 m.tag.toNat m.attempt.toNat m.attempt.toNat []
        m.part.val := by
  unfold State.takeFwd
  rw [h]
  dsimp only
  unfold fwdDesc at hr
  rw [hr]
  exact if_neg (Nat.not_le.2 hq)

end

end

theorem fwdRefusal_unserved (r : DRec) (h : s.life.st ≠ .operational ∨ s.vault.ready = false ∨ s.mesh.resyncing = true) :
    s.fwdRefusal r = some 2 := by
  refine if_pos ?_
  rw [Bool.or_eq_true, Bool.or_eq_true, bne_iff_ne, Bool.not_eq_true', or_assoc]
  exact h

section
variable (hl : s.life.st = .operational) (hv : s.vault.ready = true) (hr : s.mesh.resyncing = false)
include hl hv hr

theorem fwdRefusal_served (r : DRec) : s.fwdRefusal r = if r.takesRandom && !s.ent.ready then some 1 else none := by
  unfold State.fwdRefusal
  rw [hl, hv, hr]
  rfl

theorem fwdRefusal_none {r : DRec} (h : r.takesRandom = false ∨ s.ent.ready = true) : s.fwdRefusal r = none := by
  refine (fwdRefusal_served hl hv hr r).trans (if_neg ?_)
  rcases h with h | h <;> rw [h]
  · exact Bool.false_ne_true
  · rw [Bool.not_true, Bool.and_false]
    exact Bool.false_ne_true

end

section
variable {h : Held} (hh : (s.mesh.held.find? fun h => h.is m.src.val m.tag.toNat && h.attempt == m.attempt) = some h)

theorem takeData_unheld (hn : (s.mesh.held.find? fun h => h.is m.src.val m.tag.toNat && h.attempt == m.attempt) = none) : s.takeData m = s := by
  unfold State.takeData
  rw [hn]

include hh

theorem takeData_gone (hd : s.heldDesc h = none) : s.takeData m = s := by
  unfold State.takeData
  rw [hh]
  dsimp only
  rw [hd]

variable {r : DRec} (hd : s.heldDesc h = some r)
include hd

theorem takeData_unfit (hf : leAt m.body 0 8 ≠ h.got ∨ r.inLen < h.got + (m.body.drop 8).length) : s.takeData m = s := by
  unfold State.takeData
  rw [hh]
  dsimp only
  rw [hd]
  exact if_pos hf

variable (hat : leAt m.body 0 8 = h.got) (hlen : h.got + (m.body.drop 8).length ≤ r.inLen)
include hat hlen

theorem takeData_fits : s.takeData m =
    let data := m.body.drop 8
    let q := s.receive r.core m.port.val h.got data r.fn
    let g := { h with body := h.body ++ data, got := h.got + data.length }
    if !q.2 then q.1.refuseHeld h 3 else ((q.1.setHeld g).askMore g r.inLen).1 := by
  unfold State.takeData
  rw [hh]
  dsimp only
  rw [hd]
  exact if_neg (by omega)

end

/-! ### Replies at the origin (R350, R353) -/

section
variable (h : s.hears m)
include h

theorem accept_becomes : becomes (.accept m) s (s.onReply m fun s f => s.setFwd { f with accepted := true, attempt := BitVec.ofNat 16 m.aux.toNat }) :=
  congrArg (answer s) (onMsg_heard h (opens_plain (by decide)))

theorem result_becomes : becomesThen (.result m) s (s.onReply m fun s f => s.takeResult f m.body) :=
  congrArg (fun x : State => answer s x.after) (onMsg_heard h (opens_plain (by decide)))

theorem refuse_becomes : becomesThen (.refuse m) s (s.onReply m fun s f => s.takeRefuse f m.aux.toNat) :=
  congrArg (fun x : State => answer s x.after) (onMsg_heard h (opens_plain (by decide)))

/-- What FWD_MORE does for a live request. -/
def State.sendMore (s : State) (m : Msg) (f : Fwd) : State :=
  let off := leAt m.body 0 8
  let data := slice (s.fwdInput f) off 4096
  (s.setFwd { f with sent := max f.sent (off + data.length) }).send f.dst 0x23 f.tag f.attempt.toNat 0 (toLE 8 off ++ data) f.part

theorem fwdMore_becomes : becomes (.fwdMore m) s (s.onReply m fun s f => s.sendMore m f) :=
  congrArg (answer s) (onMsg_heard h (opens_plain (by decide)))

end

section
variable {g : State → Fwd → State}

theorem onReply_late (h : s.replyTo m = none) : s.onReply m g = s.late m := by
  unfold State.onReply
  rw [h]

theorem onReply_live {f : Fwd} (h : s.replyTo m = some f) : s.onReply m g = g s f := by
  unfold State.onReply
  rw [h]

end

theorem late_counts : s.keeps (s.late m) [.mesh]
    ∧ (s.late m).port m.port.val = { s.port m.port.val with lateReplies := satInc (s.port m.port.val).lateReplies }
    ∧ (s.late m).mesh.fwds = s.mesh.fwds :=
  ⟨keeps_mesh s _ (by decide), State.port_setPort .., rfl⟩

section
variable {f : Fwd} {b : Bytes} {r : DRec}

/-- The answer to a request that no recipe waits for is the descriptor's. -/
theorem takeResult_alone (hd : s.desc f.desc = some r) (hr : r.run = none) : s.takeResult f b =
    let v := (s.endFwd f).modDesc r.id fun q => { q with flags := q.flags ||| setFlag (BitVec.ofNat 15 (leAt b 2 2)) cfForwarded }
    let st := BitVec.ofNat 16 (leAt b 0 2)
    let out := slice b 16 (leAt b 4 4)
    if succeeded st then v.complete r.id st out (slice b 8 8) else (v.putOut r out).finish r.id st := by
  unfold State.takeResult
  dsimp only
  rw [show (s.endFwd f).desc f.desc = some r from hd]
  dsimp only
  rw [hr]
  rfl

theorem takeResult_step {run : Run} (hd : s.desc f.desc = some r) (hr : r.run = some run) : s.takeResult f b =
    (if bit (leAt b 2 2) 15 then (s.endFwd f).noteCounter f else s.endFwd f).stepResult r.id (BitVec.ofNat 16 (leAt b 0 2))
      (setFlag (BitVec.ofNat 15 (leAt b 2 2)) cfForwarded) (slice b 8 8) (slice b 16 (leAt b 4 4)) := by
  unfold State.takeResult
  dsimp only
  rw [show (s.endFwd f).desc f.desc = some r from hd]
  dsimp only
  rw [hr]
  rfl

/-- Member f.dst has said that it has no entropy. -/
def State.unready (s : State) (f : Fwd) : State :=
  { s with mesh := { s.mesh with beats := mset s.mesh.beats f.dst { mget s.mesh.beats f.dst {} with entReady := false } } }

theorem takeRefuse_ends {why : Nat} (h : why ≠ 1 ∨ s.ent.fail = false ∨ (s.unready f).randomHome = []) :
    s.takeRefuse f why = (s.endFwd f).endWith f.desc stMesh := by
  refine if_neg ?_
  rintro ⟨hw, he, hr⟩
  rcases h with h | h | h
  · exact h hw
  · rw [h] at he
    cases he
  · exact hr h

theorem takeRefuse_elsewhere {why : Nat} (hw : why = 1) (he : s.ent.fail = true) (hr : (s.unready f).randomHome ≠ []) :
    s.takeRefuse f why
      = (f.step.elim ((s.unready f).endFwd f) fun x => ((s.unready f).endFwd f).saveRun f.desc x.1).unwait f.desc := if_pos ⟨hw, he, hr⟩

end

/-- Settles O54: a message is relayed, unheard, or acts as its type says on the request that it names. -/
theorem meshForwards : Obligations.MeshForwards := by
  unfold Obligations.MeshForwards
  intro s m
  refine ⟨fun c hc h => ?_, fun c hc hm hf hst hs ha hd => ?_, fun h => ⟨fun g hg => takeFwd_becomes h (takeFwd_again hg),
      fun hn hu => takeFwd_becomes h (takeFwd_refused hn (fwdRefusal_unserved _ hu)),
      fun hn hl hv hr => ⟨fun ht he => takeFwd_becomes h (takeFwd_refused hn ?_), fun ht => ⟨fun hq => ?_, fun hq => ?_⟩⟩⟩,
    fun h => ⟨fun hn => takeData_becomes h (takeData_unheld hn), fun g hg hd => takeData_becomes h (takeData_gone hg hd),
      fun g r hg hd => ⟨fun hf => takeData_becomes h (takeData_unfit hg hd hf), fun hat hlen => ⟨fun u hu => ?_, fun u hu => ?_⟩⟩⟩,
    fun h => ⟨fun hn => ?_, fun f hf => ⟨?_, fun r hd hr => ?_, fun r run hd hr => ?_, ⟨fun hn => ?_, fun hw he hr => ?_⟩, ?_⟩⟩⟩
  · obtain ⟨g, hg⟩ := messages_act (s := s) c hc
    rw [onMsg_unheard h] at hg
    exact hg
  · obtain ⟨g, hg⟩ := messages_act (s := s) c hc
    rw [onMsg_relays hm hf hst hs ha hd] at hg
    exact hg
  · rw [fwdRefusal_served hl hv hr]
    exact if_pos (by rw [show (fwdDesc s m).takesRandom = true from ht, he]; rfl)
  · have hnone := fwdRefusal_none hl hv hr ht
    exact ⟨_, takeFwd_becomes h (takeFwd_waits hn hnone hq), keeps_mesh s _ (by decide), rfl⟩
  · have hnone := fwdRefusal_none hl hv hr ht
    exact ⟨_, takeFwd_becomes h (takeFwd_queued hn hnone hq),
      keeps_disp_mesh .., rfl, rfl⟩
  · refine takeData_becomes h ((takeData_fits hg hd hat hlen).trans ?_)
    dsimp only
    rw [hu]
    rfl
  · refine takeData_becomes h ((takeData_fits hg hd hat hlen).trans ?_)
    dsimp only
    rw [hu]
    rfl
  · simp only [List.forall_mem_cons, List.not_mem_nil, false_implies, implies_true, and_true]
    have ha := accept_becomes h
    have hr := result_becomes h
    have hf := refuse_becomes h
    have hm := fwdMore_becomes h
    rw [onReply_late hn] at ha hr hf hm
    exact ⟨⟨_, ha, late_counts⟩, ⟨_, hr, late_counts⟩, ⟨_, hf, late_counts⟩, ⟨_, hm, late_counts⟩⟩
  · have ha := accept_becomes h
    rw [onReply_live hf] at ha
    exact ⟨_, ha, keeps_mesh s _ (by decide), rfl⟩
  · have ha := result_becomes h
    rw [onReply_live hf, takeResult_alone hd hr] at ha
    refine ⟨s.endFwd f, keeps_mesh s _ (by decide), rfl, fun hs => ?_, fun hs => ?_⟩
    · dsimp only at ha
      rw [if_pos hs] at ha
      exact ha
    · dsimp only at ha
      rw [hs, if_neg Bool.false_ne_true] at ha
      exact ha
  · have ha := result_becomes h
    rw [onReply_live hf, takeResult_step hd hr] at ha
    exact ⟨s.endFwd f, keeps_mesh s _ (by decide), rfl, ha⟩
  · have ha := refuse_becomes h
    rw [onReply_live hf, takeRefuse_ends hn] at ha
    exact ⟨s.endFwd f, keeps_mesh s _ (by decide), rfl, ha⟩
  · have ha := refuse_becomes h
    rw [onReply_live hf, takeRefuse_elsewhere hw he hr] at ha
    refine ⟨(s.unready f).endFwd f, keeps_mesh s _ (by decide), rfl, fun hn => ?_, fun run inp hn => ?_⟩
    · rw [hn] at ha
      exact ha
    · rw [hn] at ha
      exact ha
  · have ha := fwdMore_becomes h
    rw [onReply_live hf] at ha
    exact ⟨_, keeps_mesh s _ (by decide), rfl, ha⟩

end Sys2Proof.Machine
end

section
/-! What the mesh agrees on: transactions, resync, heartbeats, time and the death of a member (14 R338, R343 to R346, R355, R356). -/

namespace Sys2Proof.Machine

variable {s t u v : State} {m : Msg}

/-! ### What a message out leaves -/

/-- A step that leaves what the transactions and the routes of the mesh rest on, and takes nothing back that was sent. -/
structure State.onlySends (s t : State) : Prop where
  keeps : s.keeps t [.mesh]
  life : t.life = s.life
  roster : t.mesh.roster = s.mesh.roster
  fwds : t.mesh.fwds = s.mesh.fwds
  memberMap : t.mesh.memberMap = s.mesh.memberMap
  journal : t.mesh.journal = s.mesh.journal
  rseq : t.mesh.rseq = s.mesh.rseq
  links : ∀ p, (t.port p).attested = (s.port p).attested ∧ (t.port p).peerId = (s.port p).peerId
  sent : ∀ q ∈ s.mesh.sent, q ∈ t.mesh.sent

namespace State.onlySends

theorem refl (s : State) : s.onlySends s := ⟨.refl s _, rfl, rfl, rfl, rfl, rfl, rfl, fun _ => ⟨rfl, rfl⟩, fun _ h => h⟩

theorem trans (h : s.onlySends t) (h' : t.onlySends u) : s.onlySends u :=
  ⟨h.keeps.trans h'.keeps, h'.life.trans h.life, h'.roster.trans h.roster, h'.fwds.trans h.fwds, h'.memberMap.trans h.memberMap, h'.journal.trans h.journal,
    h'.rseq.trans h.rseq, fun p => ⟨(h'.links p).1.trans (h.links p).1, (h'.links p).2.trans (h.links p).2⟩, fun q hq => h'.sent q (h.sent q hq)⟩

theorem fold {α : Type} {f : State → α → State} (hf : ∀ (s : State) a, s.onlySends (f s a)) (l : List α) : ∀ s : State, s.onlySends (l.foldl f s) := by
  induction l with
  | nil => exact fun s => .refl s
  | cons a r ih => exact fun s => (hf s a).trans (ih _)

end State.onlySends

theorem putFlit_link (x : Port) (c w : Nat) : (x.putFlit c w).attested = x.attested ∧ (x.putFlit c w).peerId = x.peerId := by
  unfold Port.putFlit
  split <;> exact ⟨rfl, rfl⟩

theorem putFlits_link (c w : Nat) (l : List Nat) : ∀ x : Port,
    (l.foldl (fun (x : Port) _ => x.putFlit c w) x).attested = x.attested ∧ (l.foldl (fun (x : Port) _ => x.putFlit c w) x).peerId = x.peerId := by
  induction l with
  | nil => exact fun x => ⟨rfl, rfl⟩
  | cons a r ih => exact fun x => ⟨(ih _).1.trans (putFlit_link x c w).1, (ih _).2.trans (putFlit_link x c w).2⟩

theorem emit_onlySends (s : State) (q : Sent) : s.onlySends (s.emit q) := by
  have hk : s.keeps (s.emit q) [.mesh] := keeps_emit ..
  unfold State.emit at hk ⊢
  split at hk
  · rename_i h
    rw [if_pos h]
    exact ⟨hk, rfl, rfl, rfl, rfl, rfl, rfl, fun _ => ⟨rfl, rfl⟩, fun q hq => List.mem_append_left _ hq⟩
  · rename_i h
    rw [if_neg h]
    split at hk
    · exact .refl s
    · exact .refl s
    · rename_i p d n _ _
      refine ⟨hk, rfl, rfl, rfl, rfl, rfl, rfl, fun j => ?_, fun q hq => List.mem_append_left _ hq⟩
      by_cases hj : j = p
      · subst hj
        have hp := State.port_setPort (s := s) j ((List.range (flitCount n.body.length)).foldl
          (fun (x : Port) _ => x.putFlit (msgClass n.type) (s.laneFor n.src j d)) (s.port j))
        obtain ⟨ha, hi⟩ := putFlits_link (msgClass n.type) (s.laneFor n.src j d) (List.range (flitCount n.body.length)) (s.port j)
        exact ⟨(congrArg Port.attested hp).trans ha, (congrArg Port.peerId hp).trans hi⟩
      · have hp := State.port_setPort_ne s ((List.range (flitCount n.body.length)).foldl
          (fun (x : Port) _ => x.putFlit (msgClass n.type) (s.laneFor n.src p d)) (s.port p)) hj
        exact ⟨congrArg Port.attested hp, congrArg Port.peerId hp⟩

theorem send_onlySends (s : State) (dst type tag attempt aux : Nat) (b : Bytes) (part : Nat) :
    s.onlySends (s.send dst type tag attempt aux b part) := emit_onlySends ..

theorem sendTxn_onlySends (s : State) (i : Nat) (t : Txn) : s.onlySends (s.sendTxn i t) := send_onlySends ..

theorem sendMrk_onlySends (s : State) (i : Nat) : s.onlySends (s.sendMrk i) := by
  unfold State.sendMrk
  split
  · exact .refl s
  · exact send_onlySends ..

namespace State.onlySends

variable (h : s.onlySends t)
include h

theorem ownId : t.ownId = s.ownId := by
  unfold State.ownId
  rw [h.life]

theorem linksTo (i : Nat) : t.linksTo i = s.linksTo i := by
  unfold State.linksTo
  simp only [h.links]

theorem route (dst tag : Nat) : t.route dst tag = s.route dst tag := by
  unfold State.route
  simp only [h.roster, h.links, h.linksTo, h.ownId]

theorem lastRseq : t.lastRseq = s.lastRseq := by
  unfold State.lastRseq
  rw [h.journal, h.rseq]

theorem recipeBody : t.recipeBody = s.recipeBody := by
  unfold State.recipeBody
  rw [h.life]

theorem beatBody : t.beatBody = s.beatBody := by
  unfold State.beatBody State.queuedWork State.memberMap
  rw [h.life, h.keeps.ent_eq, h.keeps.vault_eq, h.keeps.disp_eq, h.memberMap, h.ownId]

end State.onlySends

/-- A message with a route is sent, unless it wants a pair key. -/
theorem send_sent {i type tag attempt aux part : Nat} {b : Bytes} {r : Nat × Bool} (hi : i ≠ s.ownId) (hr : s.route i tag = some r)
    (hc : msgClass type ≠ 3) :
    ∃ q ∈ (s.send i type tag attempt aux b part).mesh.sent, q.src = s.ownId ∧ q.dst = i ∧ q.type = type ∧ q.body = b := by
  unfold State.send State.emit State.exit State.sealFor
  dsimp only
  rw [if_neg hi, if_pos rfl, hr, if_neg fun h => hc h.1]
  exact ⟨_, List.mem_append_right _ (List.mem_singleton_self _), rfl, rfl, rfl, rfl⟩

/-- Every heartbeat of the list that has a route is sent. -/
theorem beats_sent (l : List Nat) : ∀ s : State, ∀ i ∈ l, i ≠ s.ownId → (∃ p, s.route i 0 = some p) →
    ∃ q ∈ (l.foldl (fun (s : State) i => s.send i 0x40 0 0 0 s.beatBody) s).mesh.sent,
      q.src = s.ownId ∧ q.dst = i ∧ q.type = 0x40 ∧ q.body = s.beatBody := by
  induction l with
  | nil => exact fun s i hi => absurd hi List.not_mem_nil
  | cons a r ih =>
    rintro s i hi hne ⟨p, hp⟩
    have hs := send_onlySends s a 0x40 0 0 0 s.beatBody 0
    rcases List.mem_cons.1 hi with rfl | hi
    · obtain ⟨q, hq, h⟩ := send_sent (s := s) (type := 0x40) (attempt := 0) (aux := 0) (part := 0) (b := s.beatBody) hne hp (by decide)
      exact ⟨q, (State.onlySends.fold (fun s i => send_onlySends ..) r _).sent q hq, h⟩
    · have h := ih (s.send a 0x40 0 0 0 s.beatBody) i hi (by rw [hs.ownId]; exact hne) ⟨p, (hs.route i 0).trans hp⟩
      rw [hs.ownId, hs.beatBody] at h
      exact h

/-! ### Transactions (R343 to R345) -/

/-- What a TXN that is heard and opened does. -/
def State.hearTxn (s : State) (m : Msg) : State :=
  if txnRseq m.body ≠ 0 then s.takeTxn m
  else if txnKind m.body = 4 then (if m.src.val = s.coordinatorBut s.ownId then s.keepMrk (txnPay m.body) else s)
  else s.number m

theorem record_eq (t : Txn) : ∃ l, s.record t = { s with mesh := { s.mesh with journal := l } } := ⟨_, rfl⟩

theorem record_keeps (t : Txn) : s.keeps (s.record t) [.mesh] ∧ (s.record t).mesh.rseq = s.mesh.rseq := by
  obtain ⟨l, hl⟩ := record_eq (s := s) t
  rw [hl]
  exact ⟨keeps_mesh s _ (by decide), rfl⟩

theorem mem_record (t : Txn) : t ∈ (s.record t).mesh.journal := by
  unfold State.record
  dsimp only
  rw [List.drop_append_of_le_length]
  · exact List.mem_append_right _ (List.mem_singleton_self t)
  · rw [List.length_append, List.length_singleton]
    omega

theorem keepKey_keeps (n : Nat) (k : Bytes) : s.keeps (s.keepKey n k) [.mesh] ∧ (s.keepKey n k).mesh.journal = s.mesh.journal
    ∧ (s.keepKey n k).mesh.rseq = s.mesh.rseq ∧ (k ≠ [] → mget (s.keepKey n k).mesh.unitKeys n [] = k) := by
  unfold State.keepKey
  split
  · rename_i h
    exact ⟨.refl s _, rfl, rfl, fun hn => absurd h hn⟩
  · exact ⟨keeps_mesh s _ (by decide), rfl, rfl, fun _ => mget_mset_self ..⟩

/-- The state in which a member has a numbered transaction in its journal. -/
def State.journaled (s : State) (m : Msg) : State :=
  (if s.mesh.journal.any fun t => t.rseq == txnRseq m.body then s
    else s.record { rseq := txnRseq m.body, origin := txnOrigin m.body, tag := m.tag, attempt := m.attempt, body := (splitKey m.body).1 }).keepKey
      (txnRseq m.body) (splitKey m.body).2

theorem takeTxn_applied (h : txnRseq m.body ≤ s.mesh.rseq) :
    s.takeTxn m = s.send s.coordinator 0x31 0 0 (txnRseq m.body) (toLE 2 0) := if_pos h

theorem takeTxn_new (h : s.mesh.rseq < txnRseq m.body) :
    s.takeTxn m = (s.journaled m).txnPump ((s.journaled m).mesh.journal.length + 1) := if_neg (Nat.not_le.2 h)

theorem journaled_keeps : s.keeps (s.journaled m) [.mesh] ∧ ∃ t ∈ (s.journaled m).mesh.journal, t.rseq = txnRseq m.body := by
  unfold State.journaled
  obtain ⟨hk, hj, -, -⟩ := keepKey_keeps (s := if s.mesh.journal.any fun t => t.rseq == txnRseq m.body then s
    else s.record { rseq := txnRseq m.body, origin := txnOrigin m.body, tag := m.tag, attempt := m.attempt, body := (splitKey m.body).1 })
    (txnRseq m.body) (splitKey m.body).2
  rw [hj]
  refine ⟨State.keeps.trans ?_ hk, ?_⟩
  · split
    · exact .refl s _
    · exact keeps_mesh s _ (by decide)
  · split
    · rename_i h
      obtain ⟨t, ht, he⟩ := List.any_eq_true.1 h
      exact ⟨t, ht, beq_iff_eq.1 he⟩
    · exact ⟨_, mem_record _, rfl⟩

/-- The transaction of the coordinator's journal that an origin's TXN is. -/
def State.knownTxn (s : State) (m : Msg) : Option Txn :=
  s.mesh.journal.find? fun t => t.origin == m.src.val && t.tag == m.tag && t.attempt == m.attempt
    && txnKind t.body == txnKind m.body && (txnPay m.body).isPrefixOf (txnPay t.body)

theorem number_follows (h : ¬(s.coordinator = s.ownId ∧ s.quorum = true ∧ s.mesh.resyncing = false)) : s.number m = s := by
  refine if_pos ?_
  rw [Bool.or_eq_true, Bool.or_eq_true, bne_iff_ne, Bool.not_eq_true', ← Bool.not_eq_true]
  by_contra hn
  refine h ⟨by_contra fun hc => hn (.inl (.inl hc)), by_contra fun hq => hn (.inl (.inr hq)), Bool.not_eq_true _ ▸ fun hr => hn (.inr hr)⟩

section
variable (h : s.coordinator = s.ownId ∧ s.quorum = true ∧ s.mesh.resyncing = false)
include h

theorem leads_checks : (s.coordinator != s.ownId || !s.quorum || s.mesh.resyncing) = false := by
  obtain ⟨hc, hq, hr⟩ := h
  rw [hc, hq, hr, bne_self_eq_false]
  rfl

theorem number_known {t : Txn} (hk : s.knownTxn m = some t) :
    s.number m = if t.done then s.send m.src.val 0x32 m.tag.toNat m.attempt.toNat t.rseq (toLE 2 stDone.toNat) else s := by
  unfold State.number
  unfold State.knownTxn at hk
  rw [if_neg (Bool.eq_false_iff.1 (leads_checks h)), hk]

section
variable (hk : s.knownTxn m = none)
include hk

theorem number_refused {st : Word16} (hr : s.txnRefusal m.body m.attempt = some st) :
    s.number m = s.send m.src.val 0x32 m.tag.toNat m.attempt.toNat 0 (toLE 2 st.toNat) := by
  unfold State.number
  unfold State.knownTxn at hk
  rw [if_neg (Bool.eq_false_iff.1 (leads_checks h)), hk]
  dsimp only
  rw [hr]

theorem number_undrawn (hr : s.txnRefusal m.body m.attempt = none) (hd : (s.txnKey m.body).1 = none) :
    s.number m = s.send m.src.val 0x32 m.tag.toNat m.attempt.toNat 0 (toLE 2 (if s.ent.fail then stEntFailed else stEntNotReady).toNat) := by
  unfold State.number
  unfold State.knownTxn at hk
  rw [if_neg (Bool.eq_false_iff.1 (leads_checks h)), hk]
  dsimp only
  rw [hr]
  dsimp only
  rw [show s.txnKey m.body = (none, (s.txnKey m.body).2) from Prod.ext hd rfl]

/-- The transaction as the coordinator v numbers it. -/
def numbered (v : State) (m : Msg) : Txn :=
  { rseq := v.lastRseq + 1, origin := m.src.val, tag := m.tag, attempt := m.attempt,
    body := txnBody (v.lastRseq + 1) (txnKind m.body + 16 * m.src.val) (txnPay m.body), waiting := v.ownId :: v.peers }

theorem number_given {k : Bytes} (hr : s.txnRefusal m.body m.attempt = none) (hd : s.txnKey m.body = (some k, v)) :
    s.number m = (v.ownId :: v.peers).foldl (fun (w : State) i => w.sendTxn i (numbered v m))
      ((v.record (numbered v m)).keepKey (v.lastRseq + 1) k) := by
  unfold State.number
  unfold State.knownTxn at hk
  rw [if_neg (Bool.eq_false_iff.1 (leads_checks h)), hk]
  dsimp only
  rw [hr]
  dsimp only
  rw [hd]
  rfl

end

end

/-! ### The end of a transaction at its origin (R343) -/

/-- The state in which transaction n is done. -/
def State.txnDone (s : State) (n : Nat) : State :=
  { s with mesh := { s.mesh with journal := s.mesh.journal.map fun t => if t.rseq = n then { t with done := true } else t } }

/-- The state in which descriptor d waits for no TXN_DONE. -/
def State.unasked (s : State) (d : Nat) : State := { s with mesh := { s.mesh with asked := mdel s.mesh.asked d } }

def State.hearDone (s : State) (m : Msg) : State :=
  match (s.txnDone m.aux.toNat).txnOf m.tag.toNat with
  | none => s.txnDone m.aux.toNat
  | some (r, x) => (s.txnDone m.aux.toNat).txnEnds r x (BitVec.ofNat 16 (leAt m.body 0 2))

section
variable {r : DRec} {x : Result} {st : Word16}

theorem txnEnds_step (h : r.run.isSome = true) : s.txnEnds r x st =
    (s.unasked r.id).stepResult r.id (if succeeded st then flaggedStatus stDone x.flags else st) x.flags x.inl x.out := if_pos h

section
variable (h : r.run = none)
include h

theorem txnEnds_fails (hs : succeeded st = false) : s.txnEnds r x st = (s.unasked r.id).endWith r.id st := by
  unfold State.txnEnds
  rw [h, hs]
  rfl

section
variable (hs : succeeded st = true)
include hs

theorem txnEnds_completes (hd : r.durable = false) : s.txnEnds r x st = (s.unasked r.id).complete r.id x.status x.out x.inl := by
  unfold State.txnEnds
  rw [h, hs, hd]
  rfl

theorem txnEnds_durable (hd : r.durable = true) : s.txnEnds r x st = if s.vault.pgFault then (s.unasked r.id).finish r.id stPageTimeout
    else (s.unasked r.id).modDesc r.id fun q => { q with stage := .waitDurable x } := by
  unfold State.txnEnds
  rw [h, hs, hd]
  rfl

end

end

end

/-! ### RESYNC (R346) -/

/-- What RESYNC sends to member i: every later transaction, and the recipe store. -/
def State.resyncs (s : State) (i k : Nat) : State :=
  let t := ((s.sendMrk i).mesh.journal.filter fun t => decide (k < t.rseq)).foldl (fun (v : State) t => v.sendTxn i t) (s.sendMrk i)
  t.send i 0x42 0 0 t.lastRseq t.recipeBody

def State.hearResync (s : State) (m : Msg) : State :=
  let k := leAt m.body 0 8
  if s.coordinatorBut m.src.val != s.ownId || s.mesh.resyncing then s
  else if s.lastRseq ≤ k || s.mesh.journal.any fun t => t.rseq == k + 1 then s.resyncs m.src.val k
  else s

theorem resyncs_eq (i k : Nat) :
    let u := (s.mesh.journal.filter fun t => decide (k < t.rseq)).foldl (fun (v : State) t => v.sendTxn i t) (s.sendMrk i)
    s.keeps u [.mesh] ∧ s.resyncs i k = u.send i 0x42 0 0 s.lastRseq s.recipeBody := by
  intro u
  have hm := sendMrk_onlySends s i
  have hu : s.onlySends u := hm.trans (.fold (fun v t => sendTxn_onlySends v i t) _ _)
  refine ⟨hu.keeps, ?_⟩
  rw [← hu.lastRseq, ← hu.recipeBody]
  unfold State.resyncs
  dsimp only
  rw [hm.journal]

/-- The journal reaches back to transaction k. -/
theorem reaches_iff {k : Nat} : (decide (s.lastRseq ≤ k) || s.mesh.journal.any fun t => t.rseq == k + 1) = true
    ↔ (s.lastRseq ≤ k ∨ ∃ t ∈ s.mesh.journal, t.rseq = k + 1) := by
  simp only [Bool.or_eq_true, decide_eq_true_iff, List.any_eq_true, beq_iff_eq]

/-! ### RECIPE_SYNC (R346) -/

/-- The recipe store as RECIPE_SYNC brings it. -/
def State.storeSynced (s : State) (m : Msg) : State :=
  let n := leAt m.body 0 2
  let vs := (List.range n).map fun i => (leAt m.body (2 + 8 * i) 4, leAt m.body (6 + 8 * i) 4)
  { s with life := { s.life with
    recipes := recipesIn 128 (m.body.drop (2 + 8 * n))
    rversions := vs.foldl (fun (t : Map Nat) c => mset t c.1 c.2) s.life.rversions } }

def State.hearSync (s : State) (m : Msg) : State :=
  if !s.mesh.resyncing then s
  else if m.aux.toNat ≤ s.mesh.rseq then
    { s.storeSynced m with mesh := { (s.storeSynced m).mesh with resyncing := false, resyncTo := none } }
  else { s.storeSynced m with mesh := { (s.storeSynced m).mesh with resyncTo := some m.aux.toNat } }

theorem hearSync_idle (h : s.mesh.resyncing = false) : s.hearSync m = s := by
  unfold State.hearSync
  rw [h]
  rfl

theorem hearSync_syncs (h : s.mesh.resyncing = true) : s.keeps (s.hearSync m) [.mesh, .life]
    ∧ (s.hearSync m).life.recipes = recipesIn 128 (m.body.drop (2 + 8 * leAt m.body 0 2))
    ∧ (m.aux.toNat ≤ s.mesh.rseq → (s.hearSync m).mesh.resyncing = false)
    ∧ (s.mesh.rseq < m.aux.toNat → (s.hearSync m).mesh.resyncing = true ∧ (s.hearSync m).mesh.resyncTo = some m.aux.toNat) := by
  have hk : s.keeps (s.storeSynced m) [.mesh, .life] := keeps_life s _ (by decide)
  unfold State.hearSync
  rw [h, if_neg (by decide)]
  split
  · rename_i hn
    exact ⟨hk.trans (keeps_mesh _ _ (by decide)), rfl, fun _ => rfl, fun h => absurd hn (Nat.not_le.2 h)⟩
  · rename_i hn
    exact ⟨hk.trans (keeps_mesh _ _ (by decide)), rfl, fun h => absurd h hn, fun _ => ⟨h, rfl⟩⟩

/-! ### Heartbeats and the time (R338, R355, R356) -/

/-- The state with member i's heartbeat. -/
def State.beaten (s : State) (m : Msg) : State :=
  { s with mesh := { s.mesh with beats := mset s.mesh.beats m.src.val {
    fresh := true, lifecycle := BitVec.ofNat 4 (leAt m.body 0 1), entReady := bit (leAt m.body 1 1) 0,
    vaultReady := bit (leAt m.body 1 1) 1, queued := leAt m.body 2 2, map := byteAt m.body 4 } } }

def State.hearBeat (s : State) (m : Msg) : State :=
  if mhas (s.beaten m).mesh.pairKeys m.src.val then (((s.beaten m).setMember m.src.val true).countBeat m.src.val).drawMrk else s.beaten m

/-- The correction of the trim by the four stamps. -/
def State.timeSynced (s : State) (m : Msg) : State :=
  let t := fun i => (leAt m.body (8 * i) 8 : Int)
  s.setTime { s.time with trim := trimFor s.time.lastF.toInt (((t 1 - t 0) - ((s.time.counter.toNat : Int) - t 2)) / 2) }

def State.hearTime (s : State) (m : Msg) : State :=
  if s.coordinator = s.ownId then
    s.send m.src.val 0x41 0 0 0 (m.body.take 8 ++ toLE 8 s.time.counter.toNat ++ toLE 8 s.time.counter.toNat ++ zeros 8)
  else if m.src.val ≠ s.coordinator ∨ s.time.lock then s else s.timeSynced m

/-! ### What each message leaves -/

section
variable (h : s.hears m)
include h

theorem recipeSync_becomes : becomes (.recipeSync m) s (s.hearSync m) := congrArg (answer s) (onMsg_heard h (opens_plain (by decide)))

theorem heartbeat_becomes : becomesThen (.heartbeat m) s (s.hearBeat m) :=
  congrArg (fun x : State => answer s x.after) (onMsg_heard h (opens_plain (by decide)))

theorem timeSync_becomes : becomes (.timeSync m) s (s.hearTime m) := congrArg (answer s) (onMsg_heard h (opens_plain (by decide)))

section
variable (hp : m.src.val = s.ownId ∨ mhas s.mesh.pairKeys m.src.val = true)
include hp

theorem txn_becomes : becomesThen (.txn m) s (s.hearTxn m) := congrArg (fun x : State => answer s x.after) (onMsg_heard h (opens_paired hp _))

theorem txnAck_becomes : becomes (.txnAck m) s (s.txnAnswered m.aux.toNat m.src.val) := congrArg (answer s) (onMsg_heard h (opens_paired hp _))

theorem txnDone_becomes : becomesThen (.txnDone m) s (s.hearDone m) :=
  congrArg (fun x : State => answer s x.after) (onMsg_heard h (opens_paired hp _))

theorem resync_becomes : becomes (.resync m) s (s.hearResync m) := congrArg (answer s) (onMsg_heard h (opens_paired hp _))

end

end

theorem hearTxn_numbered (h : txnRseq m.body ≠ 0) : s.hearTxn m = s.takeTxn m := if_pos h

section
variable (h : txnRseq m.body = 0)
include h

theorem hearTxn_root (hk : txnKind m.body = 4) :
    s.hearTxn m = if m.src.val = s.coordinatorBut s.ownId then s.keepMrk (txnPay m.body) else s := (if_neg (not_not.2 h)).trans (if_pos hk)

theorem hearTxn_origin (hk : txnKind m.body ≠ 4) : s.hearTxn m = s.number m := (if_neg (not_not.2 h)).trans (if_neg hk)

end

/-- A KEY message of a member without a pair key changes nothing. -/
theorem key_messages_sealed (h : s.hears m) (hs : m.src.val ≠ s.ownId) (hk : mhas s.mesh.pairKeys m.src.val = false) :
    becomesThen (.txn m) s s ∧ becomes (.txnAck m) s s ∧ becomesThen (.txnDone m) s s ∧ becomes (.resync m) s s :=
  ⟨congrArg (fun x : State => answer s x.after) (onMsg_sealed h hs (opens_unpaired (by decide) hs hk)),
    congrArg (answer s) (onMsg_sealed h hs (opens_unpaired (by decide) hs hk)),
    congrArg (fun x : State => answer s x.after) (onMsg_sealed h hs (opens_unpaired (by decide) hs hk)),
    congrArg (answer s) (onMsg_sealed h hs (opens_unpaired (by decide) hs hk))⟩

/-! ### What this device sends (R355, R356) -/

theorem heartbeatSend_idle (h : s.meshed = false ∨ s.tam.felledState = true) : becomes .heartbeatSend s s := by
  refine congrArg (answer s) (if_pos ?_)
  rw [Bool.or_eq_true, Bool.not_eq_true']
  exact h

theorem timeSyncSend_idle (h : s.meshed = false ∨ s.tam.felledState = true ∨ s.time.lock = true ∨ s.coordinator = s.ownId) :
    becomes .timeSyncSend s s := by
  refine congrArg (answer s) (if_pos ?_)
  rw [Bool.or_eq_true, Bool.or_eq_true, Bool.or_eq_true, Bool.not_eq_true', decide_eq_true_iff, or_assoc, or_assoc]
  exact h

theorem timeSyncSend_asks (hm : s.meshed = true) (hf : s.tam.felledState = false) (hl : s.time.lock = false) (hc : s.coordinator ≠ s.ownId) :
    becomes .timeSyncSend s (s.send s.coordinator 0x41 0 0 0 (toLE 8 s.time.counter.toNat ++ zeros 24)) := by
  refine congrArg (answer s) (if_neg ?_)
  rw [hm, hf, hl, decide_eq_false hc]
  decide

theorem heartbeatSend_beats (hm : s.meshed = true) (hf : s.tam.felledState = false) : becomes .heartbeatSend s
    (((s.members.map (·.meshId)).filter (· != s.ownId)).foldl (fun (s : State) i => s.send i 0x40 0 0 0 s.beatBody) s) := by
  refine congrArg (answer s) (if_neg ?_)
  rw [hm, hf]
  decide

/-- Settles O55: each message by what the journal and the map say, each command by the state. -/
theorem meshAgrees : Obligations.MeshAgrees := by
  unfold Obligations.MeshAgrees
  intro s
  refine ⟨fun m h hs hk => key_messages_sealed h hs hk, fun m h hp => ?_, fun m h => ⟨⟨fun hr => ?_, fun hr => ?_⟩, ⟨fun hk => ?_, fun hk => ?_⟩,
      fun hc => ?_, fun hc hn => ?_, fun hc hi hl => ?_⟩,
    fun h => ⟨heartbeatSend_idle h, timeSyncSend_idle (h.imp_right .inl)⟩, fun hm hf => ⟨?_, fun h => timeSyncSend_idle (.inr (.inr h)),
      fun hl hc => timeSyncSend_asks hm hf hl hc⟩, fun i => ⟨fun h => ?_, fun hm hi => ?_⟩⟩
  · have htxn := txn_becomes h hp
    have hdone := txnDone_becomes h hp
    have hresync := resync_becomes h hp
    refine ⟨fun h0 hn => ?_, fun hn => ?_, fun h0 hk hi => ?_, fun h0 hk hi => ?_, fun h0 hk hl => ?_, fun t h0 hk hl ht => ⟨fun hd => ?_, fun hd => ?_⟩,
      fun h0 hk hl ht => ⟨fun st hr => ?_, fun hr hd => ?_, fun h3 => if_neg h3, fun k v hr hd => ?_⟩,
      ⟨_, txnAck_becomes h hp, keeps_mesh s _ (by decide), rfl⟩,
      ⟨s.txnDone m.aux.toNat, keeps_mesh s _ (by decide), rfl, fun hn => ?_, fun r x hn => ?_⟩, fun hr => ?_, fun hc hr hj => ?_⟩
    · rw [hearTxn_numbered h0, takeTxn_applied hn] at htxn
      exact htxn
    · obtain ⟨hk, hj⟩ := journaled_keeps (s := s) (m := m)
      rw [hearTxn_numbered (by omega), takeTxn_new hn] at htxn
      exact ⟨_, hk, hj, htxn⟩
    · rw [hearTxn_root h0 hk, if_neg hi] at htxn
      exact htxn
    · rw [hearTxn_root h0 hk, if_pos hi] at htxn
      exact ⟨_, htxn, keeps_mesh s _ (by decide), rfl, rfl⟩
    · rw [hearTxn_origin h0 hk, number_follows hl] at htxn
      exact htxn
    · rw [hearTxn_origin h0 hk, number_known hl ht, hd, if_neg Bool.false_ne_true] at htxn
      exact htxn
    · rw [hearTxn_origin h0 hk, number_known hl ht, hd, if_pos rfl] at htxn
      exact htxn
    · rw [hearTxn_origin h0 hk, number_refused hl ht hr] at htxn
      exact htxn
    · rw [hearTxn_origin h0 hk, number_undrawn hl ht hr hd] at htxn
      exact htxn
    · rw [hearTxn_origin h0 hk, number_given hl ht hr hd] at htxn
      obtain ⟨hkeeps, hjournal, hrseq, hkey⟩ := keepKey_keeps (s := v.record (numbered v m)) (v.lastRseq + 1) k
      obtain ⟨hrecord, hsame⟩ := record_keeps (s := v) (numbered v m)
      refine ⟨_, hrecord.trans hkeeps, hrseq.trans hsame, ?_, hkey, htxn⟩
      rw [hjournal]
      exact mem_record (numbered v m)
    · unfold State.hearDone at hdone
      rw [show (s.txnDone m.aux.toNat).txnOf m.tag.toNat = none from hn] at hdone
      exact hdone
    · unfold State.hearDone at hdone
      rw [show (s.txnDone m.aux.toNat).txnOf m.tag.toNat = some (r, x) from hn] at hdone
      dsimp only at hdone
      refine ⟨(s.txnDone m.aux.toNat).unasked r.id, keeps_mesh _ _ (by decide), rfl, fun hr hs => ?_, fun ha hd => ?_, fun ha hd hf => ?_,
        fun ha hd hf => ?_, fun hr => ?_⟩
      · rw [txnEnds_fails hr hs] at hdone
        exact hdone
      · rw [txnEnds_completes ha.1 ha.2 hd] at hdone
        exact hdone
      · rw [txnEnds_durable ha.1 ha.2 hd, show (s.txnDone m.aux.toNat).vault.pgFault = false from hf] at hdone
        exact hdone
      · rw [txnEnds_durable ha.1 ha.2 hd, show (s.txnDone m.aux.toNat).vault.pgFault = true from hf] at hdone
        exact hdone
      · rw [txnEnds_step hr] at hdone
        exact hdone
    · unfold State.hearResync at hresync
      dsimp only at hresync
      rcases hr with hr | hr | hr
      · rw [if_pos (by rw [bne_iff_ne.2 hr]; rfl)] at hresync
        exact hresync
      · rw [if_pos (by rw [hr, Bool.or_true])] at hresync
        exact hresync
      · rw [if_neg (fun h => hr (reaches_iff.1 h)), ite_self] at hresync
        exact hresync
    · unfold State.hearResync at hresync
      dsimp only at hresync
      obtain ⟨hkeeps, he⟩ := resyncs_eq (s := s) m.src.val (leAt m.body 0 8)
      rw [if_neg (by rw [hc, hr, bne_self_eq_false]; decide), if_pos (reaches_iff.2 hj), he] at hresync
      exact ⟨_, hkeeps, rfl, hresync⟩
  · have hb := recipeSync_becomes h
    rw [hearSync_idle hr] at hb
    exact hb
  · exact ⟨_, recipeSync_becomes h, hearSync_syncs hr⟩
  · have hb := heartbeat_becomes h
    unfold State.hearBeat at hb
    rw [show mhas (s.beaten m).mesh.pairKeys m.src.val = false from hk] at hb
    exact hb
  · have hb := heartbeat_becomes h
    unfold State.hearBeat at hb
    rw [show mhas (s.beaten m).mesh.pairKeys m.src.val = true from hk] at hb
    exact hb
  · have hb := timeSync_becomes h
    unfold State.hearTime at hb
    rw [if_pos hc] at hb
    exact hb
  · have hb := timeSync_becomes h
    unfold State.hearTime at hb
    rw [if_neg hc, if_pos hn] at hb
    exact hb
  · have hb := timeSync_becomes h
    unfold State.hearTime at hb
    rw [if_neg hc, if_neg (by rw [hl]; rintro (h | h); exacts [h hi, nomatch h])] at hb
    exact ⟨_, hb, keeps_time s _ (by decide), rfl⟩
  · have hs := State.onlySends.fold (fun (s : State) i => send_onlySends s i 0x40 0 0 0 s.beatBody 0) ((s.members.map (·.meshId)).filter (· != s.ownId)) s
    refine ⟨_, heartbeatSend_beats hm hf, hs.keeps, hs.roster, hs.fwds, fun i hi hne hp => ?_⟩
    obtain ⟨x, hx, rfl⟩ := hi
    exact beats_sent _ s x.meshId (List.mem_filter.2 ⟨List.mem_map_of_mem hx, bne_iff_ne.2 hne⟩) hne hp
  · refine congrArg (answer s) (if_neg ?_)
    rcases h with h | h <;> rw [h]
    · exact Bool.false_ne_true
    · rw [bne_self_eq_false, Bool.and_false]
      exact Bool.false_ne_true
  · exact congrArg (answer s) (if_pos (by rw [hm, bne_iff_ne.2 hi]; rfl))

end Sys2Proof.Machine
end
